-- ==== Sys2Proof/Word.lean ====
section
/-! DEFINITION. The word types of the device: the widths in which hosts and engines see values. -/
namespace Sys2Proof

/-- One byte of a buffer, a frame or a descriptor. -/
abbrev Byte := BitVec 8
/-- A 16-bit word: the loop engine's and the safety executive's data word (R374). -/
abbrev Half := BitVec 16
/-- A 32-bit register (R12) or program word. -/
abbrev Word := BitVec 32
/-- A 64-bit value: two consecutive registers (R14), or a host address. -/
abbrev Quad := BitVec 64

end Sys2Proof
end

