-- ==== Sys2Proof/Syntax.lean ====
section
/-! DEFINITION. The commands of the device: one constructor of `Instr` per row of spec/opcode_table.json, with the
operand types they carry. Every command but the boundary-scan ones carries `t`, the DTIME in ns at which it happens. -/
namespace Sys2Proof

/-- A host port, H0 to H3 (R65, R70). -/
abbrev PortId := Fin 4
/-- A channel, CH0 to CH127 (R7). -/
abbrev ChanId := Fin 128
/-- A CAN controller, C0 to C15 (R75). -/
abbrev CanId := Fin 16

/-- One submission ring of one port (R69). -/
structure SqRef where
  port : PortId
  sq   : Fin 32
  deriving DecidableEq, Repr

/-- A ring of a port, by kind and number (R69). -/
inductive RingRef where
  | sq (n : Fin 32)
  | cq (n : Fin 32)
  | eq
  deriving DecidableEq, Repr

/-- A submission descriptor (R105): its fields, and PARAM, bytes 24 to 63, in `param`. -/
structure Desc where
  opcode    : Nat
  flags     : Nat
  unit      : Nat
  epoch     : Nat
  length    : Nat
  cid       : Nat
  waitLimit : Nat
  bufAddr   : Nat
  param     : List Byte
  deriving DecidableEq, Repr

/-- What a read of a descriptor's buffer brings (R115): its bytes, or the failure of the fetch. -/
inductive Buf where
  | arrived (bytes : List Byte)
  | failed
  deriving DecidableEq, Repr

/-- One entry of a submission ring as it lies in host memory (R105). -/
abbrev RingEntry := Vector Byte 64

/-- What a descriptor fetch brings (R68, R122): entries in ring order, or a failure with its AER bit number. -/
inductive Fetch where
  | arrived (es : List RingEntry)
  | failed (kind : Nat)
  deriving DecidableEq, Repr

/-- The value of a register write, and what the write reads where it disables a submission ring (R103). -/
structure WriteData where
  value : Word
  got   : Fetch
  deriving DecidableEq, Repr

/-- A place in a port's memory space: an offset in BAR0, or in BAR2. -/
structure BarPlace where
  bar2 : Bool
  off  : Nat
  deriving DecidableEq, Repr

/-- Why a port went down (R124). -/
inductive DownCause where
  | link
  | d3hot
  deriving DecidableEq, Repr

/-- The four trip inputs of a channel that pass a trip filter (R229), by fault source index. -/
inductive TripSrc where
  | fltn
  | ocU
  | ocV
  | ov2
  deriving DecidableEq, Repr

/-- A trip input (R229, R263): CHn_FLTN, whose level is 0 when low (active) and anything else when high, or the input pin of one
of the five comparators, in the order of R263, whose level is its voltage in µV. -/
inductive TripInput where
  | fltn
  | cmp (k : Fin 5)
  deriving DecidableEq, Repr

/-- What the self-test of the comparators finds (R279): the ones that failed, and the converter codes of each. -/
structure CmpFound where
  fails : BitVec 5
  codes : List Nat
  deriving DecidableEq, Repr

/-- The instant at which a level is qualified, and that of its first sample, in ns of DTIME. -/
structure Steady where
  t     : Nat
  first : Nat
  deriving DecidableEq, Repr

/-- A rail, by its LAST_RESET code, and its level in mV (R691). -/
structure RailLevel where
  code : Nat
  mv   : Nat
  deriving DecidableEq, Repr

/-- A converter of a channel (R243). -/
inductive Adc where
  | a
  | b
  deriving DecidableEq, Repr

/-- What the converters see of an identification (R145, R146, R252): the samples of step 3, each the CHn_VBUS pin in µV, the
duty of leg U corrected for dead time in 2^-16, and the CHn_IU pin in µV; a conversion that finds the CHn_VBUS pin at a
voltage in µV; the pulses of step 5, each the CHn_VBUS pin in µV, the time in ns, and the CHn_IU pin in µV at its end. -/
inductive IdentStep where
  | steady (samples : List (Nat × Nat × Nat))
  | bus (uv : Nat)
  | completed (pulses : List (Nat × Nat × Nat))
  deriving DecidableEq, Repr

/-- What a loop-back test of a channel finds (R730, R731): for the tests of digital circuits the checks that fail, by FAIL
bit; for sensing at LB2 the codes of ADC-A and ADC-B at each level through IU, IV and VBUS in turn, the comparator outputs at
each level, and whether the threshold DACs fail. -/
inductive LbFound where
  | digital (fails : BitVec 5)
  | analog (codes : List (Nat × Nat)) (cmps : List (BitVec 5)) (dacs : Bool)
  deriving DecidableEq, Repr

/-- One full-VBUS vector of a polarity test (R341): its length in ns, and the CHn_IU and CHn_IV pins in µV at its end. -/
structure PolPulse where
  ns : Nat
  uvU : Nat
  uvV : Nat
  deriving DecidableEq, Repr

/-- What ends a discharge of itself (R359): the voltage reached, or the time limit. -/
inductive DischargeEnd where
  | voltage
  | limit
  deriving DecidableEq, Repr

/-- The engine that executes an instruction: the loop engine of a channel (R372), or the core of the SE (R583). -/
inductive Eng where
  | ch (n : ChanId)
  | se
  deriving DecidableEq, Repr

/-- What the memories and the comparator report beside an instruction (R377, R586, R601): a parity error at the word
read, and for the SE a comparator-class fault found at this output. -/
structure EngFault where
  parity  : Bool
  compare : Option Nat
  deriving DecidableEq, Repr

/-- A raster access that fails while a command runs (R543): after how many accesses of the command, and the AER bit. -/
structure RasFail where
  after : Nat
  kind  : Nat
  deriving DecidableEq, Repr

/-- What a tile fetch brings (R526): the directory entry as two words, or one line, 0 to 31 of the coverage plane and 32
to 63 of the exclusion plane, byte b in bits 8b to 8b + 7. -/
inductive TileData where
  | entry (lo hi : Word)
  | line (k : Fin 64) (bits : BitVec 2048)
  deriving DecidableEq, Repr

/-- A CAN data or remote frame (R558, R562). -/
structure CanFrame where
  id   : BitVec 29
  ide  : Bool
  rtr  : Bool
  fdf  : Bool
  brs  : Bool
  esi  : Bool
  dlc  : Fin 16
  data : List Byte
  deriving DecidableEq, Repr

/-- A protocol error as the bit engine finds it (R568, ISO 11898-1): LAST_ERR kind 1 to 6, in the data phase or not, the
controller was the transmitter, the error is one that ISO exempts from the first count, how many further counts of 8 the
error and overload flags after it bring, and the transmitter delay measured in the frame. -/
structure CanErr where
  kind   : Nat
  data   : Bool
  sender : Bool
  exempt : Bool
  extra  : Nat
  tdc    : Option Nat
  deriving DecidableEq, Repr

/-- What the safety inputs and readbacks show through one SE cycle start (R593, R605, R628, R638): channels whose record
fails its check code, pairs whose test pulses fail the check of step 3 and of step 5 (R628), the readbacks SOq_RA and
SOq_RB, and the cause (8 to 11) of a comparator-class fault found at the start (R595, R644). -/
structure SeInputs where
  recErr : BitVec 128
  testsA : BitVec 24
  testsB : BitVec 24
  ra     : BitVec 8
  rb     : BitVec 8
  fault  : Option Nat
  deriving DecidableEq, Repr

/-- What a debugger writes in instance A (R615): a register, the PC, a word of A's half of the PSM, or one of the eight
breakpoints. -/
inductive DbgTarget where
  | d (r : Fin 32)
  | acc (a : Fin 4)
  | ix (n : Fin 4)
  | pc
  | psm (a : Fin 2048)
  | breakpoint (i : Fin 8)
  deriving DecidableEq, Repr

/-- The inputs of one housekeeping round (R679): 64 pairs of converter code and the value it stands for in the unit of
R679's table (the transfer curves are the board's), and the die comparators now above threshold (R681). -/
structure HkInputs where
  samples  : List (Nat × Int)
  above    : BitVec 16
  deriving DecidableEq, Repr

/-- A storage medium as the device finds it at start (R671, R674): R671's error code, log2 of its density, and the
mode and clock in MHz that Sn_INFO reports. -/
structure Medium where
  err   : Nat
  log2  : Nat
  mode  : Nat
  clock : Nat
  deriving DecidableEq, Repr

/-- The verdict of a self-test (R716, R725): failed clusters, failed shared units, the ports whose ring engine failed
(R709), and the duration in ms. -/
structure Verdict where
  clFail     : BitVec 8
  sharedFail : BitVec 6
  portFail   : BitVec 4
  ms         : Nat
  deriving DecidableEq, Repr

/-- What the board brings to a start (R36, R52, R703, R705, R707): the always-on clock's reading in ns, the REFA
measurement in kHz (0 while absent), the strap levels, the media, the verdict the start self-test would give, and the
qualified level of each CHn_PLGN (bit n = 1: asserted). -/
structure StartInputs where
  clock    : Nat
  refaKHz  : Nat
  admin    : Fin 4
  seSplit  : Bool
  recCfg   : Bool
  bootMode : Fin 4
  s0       : Medium
  s1       : Medium
  test     : Verdict
  plugs    : BitVec 128
  deriving DecidableEq, Repr

/-- The commands of the device: one constructor per row of spec/opcode_table.json. -/
inductive Instr where
  /- Descriptors (R110): the device executes the descriptor that stands first in ring `q`. -/
  | nop (t : Nat) (q : SqRef)
  | bind (t : Nat) (q : SqRef)
  | unbind (t : Nat) (q : SqRef)
  | chArm (t : Nat) (q : SqRef)
  | chRun (t : Nat) (q : SqRef)
  | chStop (t : Nat) (q : SqRef)
  | chBrake (t : Nat) (q : SqRef)
  | chDischarge (t : Nat) (q : SqRef)
  | chClearTrip (t : Nat) (q : SqRef)
  | chSetpoint (t : Nat) (q : SqRef)
  | chCmpTest (t : Nat) (q : SqRef)
  | chIdent (t : Nat) (q : SqRef)
  | chLbTest (t : Nat) (q : SqRef)
  | nleLoad (t : Nat) (q : SqRef) (buf : Buf)
  | nlePsmWrite (t : Nat) (q : SqRef) (buf : Buf)
  | nlePsmRead (t : Nat) (q : SqRef) (stored : Bool)
  | nleMailbox (t : Nat) (q : SqRef) (buf : Buf)
  | fpeFix (t : Nat) (q : SqRef) (buf : Buf)
  | fpeGeometry (t : Nat) (q : SqRef) (buf : Buf)
  | fpeMode (t : Nat) (q : SqRef)
  | rasterInvalidate (t : Nat) (q : SqRef) (fail : Option RasFail)
  | rasterFlush (t : Nat) (q : SqRef) (fail : Option RasFail)
  | rasterPause (t : Nat) (q : SqRef) (host : List (BitVec 2048)) (fail : Option RasFail)
  | canSend (t : Nat) (q : SqRef) (buf : Buf)
  | canAbort (t : Nat) (q : SqRef)
  | canRestart (t : Nat) (q : SqRef)
  | pstSend (t : Nat) (q : SqRef) (buf : Buf)
  | recRead (t : Nat) (q : SqRef) (stored : Bool)
  | recMark (t : Nat) (q : SqRef) (buf : Buf)
  | shutdown (t : Nat) (q : SqRef)
  | calendarSet (t : Nat) (q : SqRef)
  /- Rings and ports (chapter 02). -/
  | sqTailDoorbell (t : Nat) (port : PortId) (off : Nat) (value : Word)
  | cqHeadDoorbell (t : Nat) (port : PortId) (cq : Fin 32) (value : Word)
  | eqHeadDoorbell (t : Nat) (port : PortId) (value : Word)
  | descriptorFetch (t : Nat) (q : SqRef) (got : Fetch)
  | completionResume (t : Nat) (q : SqRef) (fail : Option Nat)
  | eventsLost (t : Nat) (port : PortId) (fail : Option Nat)
  | coalTimeout (t : Nat) (port : PortId) (cq : Fin 32)
  | descriptorTimeout (t : Nat) (q : SqRef)
  | ringEnable (t : Nat) (port : PortId) (ring : RingRef) (cfg : Word)
  | ringDisable (t : Nat) (port : PortId) (ring : RingRef) (cfg : Word) (got : Fetch)
  | portDown (t : Nat) (port : PortId) (cause : DownCause)
  | portUp (t : Nat) (port : PortId) (speed width : Nat)
  | functionLevelReset (t : Nat) (port : PortId) (fromD3 : Bool)
  | registerWrite (t : Nat) (port : PortId) (off : Nat) (data : WriteData)
  | narrowAccess (t : Nat) (port : PortId) (off size : Nat) (write : Option Word)
  | lowHalfRead (t : Nat) (port : PortId) (place : BarPlace)
  /- Time (chapter 01). -/
  | refaLost (t : Nat) (cause : Nat)
  | refaRestored (t : Nat) (kHz : Nat)
  | refbEdge (t : Nat) (rising : Bool)
  | ppsLost (t : Nat)
  | vcoreWindowEnd (t : Nat)
  | aonClockLoad (t : Nat)
  | optimeTick (t : Nat)
  | aonRestart (t : Nat)
  /- The channel: time base and carrier (chapters 04, 05). -/
  | carrierBoundary (t : Nat) (n : ChanId)
  | midUpdate (t : Nat) (n : ChanId)
  | periodRequest (t : Nat) (port : PortId) (n : ChanId) (value : Word)
  | bandRequest (t : Nat) (port : PortId) (n : ChanId) (value : Word)
  | bandWrite (t : Nat) (port : PortId) (n : ChanId) (value : Word)
  | bandCalibrated (t : Nat) (n : ChanId) (entry : Fin 8)
  | realign (t : Nat) (port : PortId) (n : ChanId) (value : Word)
  | lockDetected (t : Nat) (n : ChanId)
  | tbLocked (t : Nat) (n : ChanId)
  | tbLockFail (t : Nat) (n : ChanId)
  | lockLost (t : Nat) (n : ChanId)
  | tbRelocked (t : Nat) (n : ChanId)
  | tbCoastLimit (t : Nat) (n : ChanId)
  | hopLocked (t : Nat) (n : ChanId)
  | glideDone (t : Nat) (n : ChanId)
  | hopTimeout (t : Nat) (n : ChanId)
  /- The channel: sensing (chapter 06). -/
  | currentSlot (t : Nat) (n : ChanId) (mid : Bool)
  | freeSlot (t : Nat) (n : ChanId)
  | slotResult (t : Nat) (n : ChanId) (uvU uvV : Nat)
  | vbusResult (t : Nat) (n : ChanId) (uvA uvB : Nat)
  | housekeepingResult (t : Nat) (n : ChanId) (uvNtc uvMidA uvMidB : Nat)
  | convTimeout (t : Nat) (n : ChanId)
  | autoZeroDone (t : Nat) (n : ChanId)
  | tripInputChange (t : Nat) (n : ChanId) (input : TripInput) (level : Nat)
  | tripQualified (t : Nat) (n : ChanId) (src : TripSrc)
  | tripReleased (t : Nat) (n : ChanId) (src : TripSrc)
  | captureStart (t : Nat) (n : ChanId) (adc : Adc)
  | captureDelivery (t : Nat) (n : ChanId) (adc : Adc) (uv : Nat)
  | thresholdWrite (t : Nat) (port : PortId) (n : ChanId) (cmpB : Bool) (value : Word)
  | thresholdSettled (t : Nat) (n : ChanId) (k : Fin 5) (uv : Nat)
  | windowWrite (t : Nat) (port : PortId) (n : ChanId) (value : Word)
  | cmpTestDone (t : Nat) (n : ChanId) (found : CmpFound)
  /- The channel: plug, identification, protection (chapters 03, 08, 11). -/
  | tailDrop (w : Steady) (n : ChanId)
  | plugAsserted (w : Steady) (n : ChanId)
  | plugged (t : Nat) (n : ChanId)
  | plugEnWrite (t : Nat) (port : PortId) (n : ChanId) (value : Word)
  | motorProfileWrite (t : Nat) (port : PortId) (n : ChanId) (ls : Bool) (value : Word)
  | identDone (t : Nat) (n : ChanId) (what : IdentStep)
  | stopLimitExpired (t : Nat) (n : ChanId)
  | retryWaitExpired (t : Nat) (n : ChanId)
  | stoReadbackFault (t : Nat) (n : ChanId) (differs : Bool)
  | chopFault (t : Nat) (n : ChanId)
  | riseCheck (t : Nat) (n : ChanId)
  | dischargeDone (t : Nat) (n : ChanId) (how : DischargeEnd)
  /- The channel: position and field control (chapters 07, 08). -/
  | positionEdge (t stamp16 : Nat) (n : ChanId) (a b z : Bool)
  | indexEdge (t stamp16 : Nat) (n : ChanId) (z : Bool)
  | standstill (t : Nat) (n : ChanId)
  | posConfigWrite (t : Nat) (port : PortId) (n : ChanId) (cpr : Bool) (value : Word)
  | rearm (t : Nat) (port : PortId) (n : ChanId) (value : Word)
  | modulatorAnswer (t : Nat) (n : ChanId)
  | probePulse (t : Nat) (n : ChanId) (uvU uvV : Nat)
  | polarityTest (t : Nat) (n : ChanId) (plus minus : PolPulse)
  | alignDone (t : Nat) (n : ChanId)
  | startTimeout (t : Nat) (n : ChanId)
  | blendEnd (t : Nat) (n : ChanId)
  | keTimer (t : Nat) (n : ChanId)
  /- The loop engine (chapters 09, 10). -/
  | runStart (t : Nat) (n : ChanId)
  | runStopTimeout (t : Nat) (n : ChanId)
  | feTimeout (t : Nat) (n : ChanId)
  | nleNop (t : Nat) (e : Eng) (f : EngFault)
  | endRun (t : Nat) (e : Eng) (f : EngFault)
  | jmp (t : Nat) (e : Eng) (f : EngFault)
  | jal (t : Nat) (e : Eng) (f : EngFault)
  | jr (t : Nat) (e : Eng) (f : EngFault)
  | beq (t : Nat) (e : Eng) (f : EngFault)
  | bne (t : Nat) (e : Eng) (f : EngFault)
  | blt (t : Nat) (e : Eng) (f : EngFault)
  | bge (t : Nat) (e : Eng) (f : EngFault)
  | bcz (t : Nat) (e : Eng) (f : EngFault)
  | loop (t : Nat) (e : Eng) (f : EngFault)
  | bbs (t : Nat) (e : Eng) (f : EngFault)
  | bbc (t : Nat) (e : Eng) (f : EngFault)
  | ld (t : Nat) (e : Eng) (f : EngFault)
  | st (t : Nat) (e : Eng) (f : EngFault)
  | ldi (t : Nat) (e : Eng) (f : EngFault)
  | mov (t : Nat) (e : Eng) (f : EngFault)
  | lda (t : Nat) (e : Eng) (f : EngFault)
  | sta (t : Nat) (e : Eng) (f : EngFault)
  | lix (t : Nat) (e : Eng) (f : EngFault)
  | aix (t : Nat) (e : Eng) (f : EngFault)
  | mix (t : Nat) (e : Eng) (f : EngFault)
  | dset (t : Nat) (e : Eng) (f : EngFault)
  | sincos (t : Nat) (e : Eng) (f : EngFault)
  | alu (t : Nat) (e : Eng) (f : EngFault)
  | addi (t : Nat) (e : Eng) (f : EngFault)
  | andi (t : Nat) (e : Eng) (f : EngFault)
  | ori (t : Nat) (e : Eng) (f : EngFault)
  | xori (t : Nat) (e : Eng) (f : EngFault)
  | shift (t : Nat) (e : Eng) (f : EngFault)
  | mul (t : Nat) (e : Eng) (f : EngFault)
  | muli (t : Nat) (e : Eng) (f : EngFault)
  | mac (t : Nat) (e : Eng) (f : EngFault)
  | aop (t : Nat) (e : Eng) (f : EngFault)
  | racc (t : Nat) (e : Eng) (f : EngFault)
  | pi (t : Nat) (e : Eng) (f : EngFault)
  | chkpt (t : Nat) (e : Eng) (f : EngFault)
  | sior (t : Nat) (e : Eng) (f : EngFault)
  | siow (t : Nat) (e : Eng) (f : EngFault)
  | psts (t : Nat) (e : Eng) (f : EngFault)
  | pstr (t : Nat) (e : Eng) (f : EngFault)
  /- Field position engine and coverage raster (chapters 12, 13). -/
  | fixFrame (t : Nat) (port : Fin 2) (frame : List Byte)
  | frameGap (t : Nat) (port : Fin 2)
  | framingError (t : Nat) (port : Fin 2) (lenBad : Bool)
  | sourceStale (t : Nat) (src : Fin 3)
  | fpeTick (t : Nat)
  | fpeTickDone (t : Nat)
  | fpeStopDone (t : Nat) (host : List (BitVec 2048)) (fail : Option RasFail)
  | lbFrame (t : Nat) (port : Fin 2) (intact : Bool)
  | rasterEnable (t : Nat) (port : PortId) (value : Word)
  | rasterDisable (t : Nat) (port : PortId) (value : Word)
  | tileFetchDone (t : Nat) (col row : Nat) (got : TileData)
  | cacheWaitEnd (t : Nat)
  | writeBackDue (t : Nat) (col row : Nat) (line : Fin 32)
  | rasterFault (t : Nat) (write : Bool) (kind ofs : Nat)
  | rasterPauseLimit (t : Nat) (host : List (BitVec 2048)) (fail : Option RasFail)
  /- CAN FD controllers (chapter 14). -/
  | canModeWrite (t : Nat) (port : PortId) (k : CanId) (value : Word)
  | canModeApplied (t : Nat) (k : CanId)
  | canIntegrated (t : Nat) (k : CanId)
  | canRecoveryDone (t : Nat) (k : CanId)
  | canFrameReceived (t : Nat) (k : CanId) (sof : Nat) (frame : CanFrame) (dmaFail : Option Nat)
  | canRxrHeadWrite (t : Nat) (port : PortId) (k : CanId) (value : Word)
  | canTxAttempt (t : Nat) (k : CanId) (sof : Nat)
  | canTxDone (t : Nat) (k : CanId) (tdc : Option Nat) (dmaFail : Option Nat)
  | canError (t : Nat) (k : CanId) (err : CanErr)
  | abdDwellTimeout (t : Nat) (k : CanId)
  | dominantLimit (t : Nat) (k : CanId)
  /- Safety executive (chapter 15). -/
  | seCycleStart (t : Nat) (inputs : SeInputs)
  | lateCycle (t : Nat)
  | restartTest (t : Nat) (pass : Bool)
  | seDebug (t : Nat)
  | debugDetach (t : Nat)
  | debuggerWrite (t : Nat) (target : DbgTarget) (value : Nat)
  | debugHalt (t : Nat)
  | debugStep (t : Nat) (f : EngFault)
  | debugResume (t : Nat)
  | breakpointHit (t : Nat)
  /- Safety inputs and outputs, safe transfer, operator ports (chapter 16). -/
  | siLevelQualified (w : Steady) (p : Fin 24) (b level : Bool)
  | discTimeout (t : Nat) (p : Fin 24)
  | outputFault (t : Nat) (q : Fin 8) (ra rb : Bool)
  | offPulse (t : Nat) (q : Fin 8) (low : Bool)
  | offPulseEnd (t : Nat) (q : Fin 8) (readback : Bool)
  | pstWatchdogTimeout (t : Nat) (s : Fin 16)
  | keyPress (w : Steady) (k : Fin 6)
  | keyHold (t : Nat) (k : Fin 6)
  | keyRelease (w : Steady) (k : Fin 6)
  | keyDrivePulse (t : Nat) (k : Fin 6) (sense : Bool)
  | touchMeasurement (t : Nat) (k : Fin 6) (count : Nat)
  | wakeKey (t : Nat) (k : Fin 6)
  /- Recorder and storage (chapter 17). -/
  | recordWrite (t : Nat) (ok : Bool)
  | suppressed (t : Nat)
  | gap (t : Nat)
  | blockEraseDone (t : Nat) (ok : Bool)
  | s1Read (t : Nat) (port : PortId) (value : Word)
  | s1Program (t : Nat) (port : PortId) (value : Word)
  | s1Erase (t : Nat) (port : PortId) (value : Word)
  | s1CommandDone (t : Nat) (ok : Bool)
  | storLbStart (t : Nat) (port : PortId) (value : Word)
  | storLbDone (t : Nat) (pass : Bool)
  /- Housekeeping, supply and start (chapters 18, 19). -/
  | hkRound (t : Nat) (inputs : HkInputs)
  | dieShutdown (w : Steady) (sensor : Fin 16) (reading : Int)
  | powerFail (w : Steady) (source vin vaux : Nat)
  | powerFailRestart (t : Nat)
  | railReset (w : Steady) (rail : RailLevel)
  | supFault (t : Nat) (cause : Nat)
  | softStart (t : Nat)
  | supVddStop (t : Nat)
  | supplyControllerStart (t : Nat) (supSel : Bool)
  | start (t : Nat) (inputs : StartInputs)
  | startReady (t : Nat) (tReady : Nat)
  | selftestEnd (t : Nat) (v : Verdict)
  /- Test and performance (chapter 20). -/
  | lbTestDone (t : Nat) (n : ChanId) (found : LbFound)
  | perfWindowEnd (t : Nat)
  | bwWinWrite (t : Nat) (port : PortId) (value : Word)
  | tagSampleRead (t : Nat) (port : PortId)
  | idcode
  | samplePreload (shiftIn : List Bool)
  | extest
  | clamp
  | highz
  | prodTest
  | bypass
  deriving DecidableEq, Repr

end Sys2Proof
end

