-- ==== Sys2Proof/Decode.lean ====
section
/-! DEFINITION. The commands that a word of the opcode table spells. No row of spec/opcode_table.json gives bits (every
`fields` list is empty): the commands of this block are descriptors in host memory, register accesses and events, not
words, so no word spells one. -/
namespace Sys2Proof

/-- The rows of the opcode table that give bits: mask, pattern, and the command that a matching word spells. -/
def tableRows : List (Nat × Nat × Instr) := []

/-- The command that an `nbits`-bit word `w` spells by the table's bits. -/
def decodeTableWord (nbits w : Nat) : Option Instr :=
  (tableRows.find? fun r => decide (w < 2 ^ nbits) && w &&& r.1 == r.2.1).map fun r => r.2.2

end Sys2Proof
end

