-- ==== Sys2Proof/Config.lean ====
section
/-! DEFINITION. What an implementation fixes and the values the spec leaves open: uninterpreted constants with no body, so
that nothing can be proved of their value. -/
namespace Sys2Proof.Config

/-- A value the spec does not fix: the first argument is the state's counter of free values (`State.freeCtr`), the second
names the use within one command (assumption log entry 10). -/
opaque freeInt : Nat → Nat → Int

/-- R737: the manufacturer identity assigned to Acwazu (assumption log entry 11). -/
opaque manufacturer : BitVec 11

/-- R158: the idle oscillator of a channel runs at 360 to 440 MHz, and the spec does not state where; one draw for each time
it takes the island over (assumption log entry 10). -/
opaque idleOsc : Nat → Nat

/-- R340: the tracking error, in 2^-16 revolution, that the demodulated error stands for; the spec does not state the scale
between the two (assumption log entry 10). -/
opaque hfiError : Int → Int

/-- R263: the hysteresis of a comparator lies from 8 to 16 mV, and the spec does not state where (assumption log entry 10). -/
opaque cmpHyst : Nat → Nat

/-- R650: what the full scale of a touch count has above 2; the spec does not state it (assumption log entry 17). -/
opaque touchSpan : Nat

/-- R650: the full scale of a touch count. A count that is neither 0 nor at full scale exists (assumption log entry 17). -/
def touchFull : Nat := touchSpan + 2

/-- R65: the vendor ID assigned to Acwazu (assumption log entry 11). -/
opaque vendorId : BitVec 16

end Sys2Proof.Config
end

