-- ==== Sys2Proof/Machine/State.lean ====
section
/-! DEFINITION. The state of the device: every register, ring, queue, counter, mode and pin the spec gives it, as plain
data with its reset value, the queue of waiting commands, and the reasons a command may stop. -/
namespace Sys2Proof.Machine

/-- The machine's faults. No command of this block stops the machine: what the spec calls a fault (a trip, a ring fault,
an SE fault, a media error) is an effect on the state. No meaning raises this one; an access to host memory that the
bus refuses reaches the device as an operand. Raising it would be safe (the machine stops). -/
inductive Fault where
  | none
  deriving DecidableEq, Repr

/-- The machine's refusals. `notModelled` is raised by an arm of `exec` whose command has no meaning yet; safe. -/
inductive Refusal where
  | notModelled (mnemonic : String)
  deriving DecidableEq, Repr

/-- A sparse memory of `w`-bit cells: (address, value) pairs, addresses strictly rising, no entry equal to what an
unlisted address reads as (`Cells.wf` in Machine/Ops.lean). -/
abbrev Cells (w : Nat) := List (Nat × BitVec w)

/-! ### Events, records and what the device writes to the hosts -/

/-- One field of an event's DATA: byte offset (16 to 31), length in bytes, value. -/
structure EvField where
  off : Nat
  len : Nat
  val : Nat
  deriving DecidableEq, Repr

/-- An event (R108) without its ring flags. -/
structure Ev where
  code  : Nat
  unit  : Nat
  epoch : Nat
  stamp : Nat
  data  : List EvField
  deriving DecidableEq, Repr

/-- A completion (R107) without the phase bit, and whether its descriptor set IRQ_NOW. -/
structure Completion where
  cid    : Nat
  sqHead : Nat
  sqId   : Nat
  status : Nat
  detail : Nat
  result : Nat
  stamp  : Nat
  irqNow : Bool
  deriving DecidableEq, Repr

/-- A recorder record waiting in the queue or lying in a slot (R657), before LAP, MARK and CHECK are put on. -/
structure Rec where
  code     : Nat
  unit     : Nat
  epoch    : Nat
  kind     : Bool
  calValid : Bool
  port     : Nat
  stamp    : Nat
  data     : List EvField
  /-- A privileged record that entered the queue without a global token takes one before it is written (R660). -/
  owes     : Bool
  /-- The submission ring whose REC_MARK waits for this record (R673). -/
  mark     : Option SqRef
  deriving DecidableEq, Repr

/-- What a read request of the device reads in host memory (R66, R68, R115, R526). -/
inductive ReadOf where
  | entries
  | buffer
  | raster
  deriving DecidableEq, Repr

/-- One request of the device to a host (R109, R119, R115, R558, R532, R96), in the order the device makes them: a
completion or an event with its index in the ring and its host address, an interrupt, a buffer, receive-ring entry or raster
line stored, and a read of `len` bytes. -/
inductive Out where
  | completion (port : PortId) (cq : Fin 32) (index addr : Nat) (phase : Bool) (c : Completion)
  | event (port : PortId) (index addr : Nat) (phase recorded : Bool) (e : Ev)
  | msix (port : PortId) (vector : Fin 64)
  | buffer (port : PortId) (addr : Nat) (bytes : List Byte)
  | canEntry (port : PortId) (addr : Nat) (bytes : List Byte)
  | rasterLine (port : PortId) (addr : Nat) (bytes : List Byte)
  | read (port : PortId) (what : ReadOf) (addr len : Nat)
  deriving DecidableEq, Repr

/-! ### Host ports (chapter 02) -/

/-- A descriptor fetched and waiting to execute: its ring index, arrival stamp and place in the order of fetches. -/
structure Fetched where
  desc  : Desc
  index : Nat
  stamp : Nat
  seq   : Nat
  deriving DecidableEq, Repr

/-- The descriptor whose completion is held while its operation runs (R90), or while the opcode's wait lasts (R116). -/
structure Held where
  opcode   : Nat
  unit     : Nat
  cid      : Nat
  sqHead   : Nat
  irqNow   : Bool
  deadline : Option Nat
  /-- R60, R63 the awaited condition came after the deadline: only the TIMEOUT is still due. -/
  late : Bool := false
  deriving DecidableEq, Repr

/-- One submission ring. -/
structure Sq where
  /-- R69 HOST.SQ.BASE_LO; reset DESIGN CHOICE 0 (log 5). -/
  baseLo : Word := 0
  /-- R69 HOST.SQ.BASE_HI; reset DESIGN CHOICE 0 (log 5). -/
  baseHi : Word := 0
  /-- R92 CFG fields CQ_ID [12:8] and SIZE_K [4:0]; reset 0. -/
  cfg : Word := 0
  /-- R92 CFG.ENABLE; reset 0. -/
  enabled : Bool := false
  /-- R92, R93 CFG.ERR; reset 0. -/
  err : Nat := 0
  /-- R69 HEAD: next descriptor to fetch; reset 0. -/
  head : Nat := 0
  /-- R69 TAIL: last tail accepted; reset 0. -/
  tail : Nat := 0
  /-- R89, R117 descriptors fetched and not executed, oldest first; reset none. -/
  fetched : List Fetched := []
  /-- R90 the descriptor whose completion is held; reset none. -/
  held : Option Held := none
  /-- R101 completions waiting for a free entry, oldest first; reset none. -/
  stalled : List Completion := []
  /-- R103, R117 ABORTED completions of a disabled ring that follow the held one; reset none. -/
  behind : List Completion := []
  /-- R92 CQ_ID as the last creation took it; reset 0. -/
  cq : Fin 32 := 0
  deriving DecidableEq, Repr

/-- An entry of a completion or event ring that the host has not released (R119). -/
structure Mark where
  stamp     : Nat
  irqNow    : Bool
  signalled : Bool
  deriving DecidableEq, Repr

/-- A completion ring, or the event ring. -/
structure OutRing where
  /-- R69 BASE_LO; reset DESIGN CHOICE 0 (log 5). -/
  baseLo : Word := 0
  /-- R69 BASE_HI; reset DESIGN CHOICE 0 (log 5). -/
  baseHi : Word := 0
  /-- R92 CFG fields VECTOR [21:16], IRQ_EN [15], SIZE_K [4:0]; reset 0. -/
  cfg : Word := 0
  /-- R92 CFG.ENABLE; reset 0. -/
  enabled : Bool := false
  /-- R92, R93 CFG.ERR; reset 0. -/
  err : Nat := 0
  /-- R122 a DMA failure has stopped the ring since its creation; reset 0. -/
  faulted : Bool := false
  /-- R69 TAIL: index written next; reset 0. -/
  tail : Nat := 0
  /-- R69 HEAD: last head accepted; reset 0. -/
  head : Nat := 0
  /-- R99 phase bit of the present pass; reset 1. -/
  phase : Bool := true
  /-- R118 COAL: COAL_T [31:16], COAL_N [7:0] (completion rings only); reset 1. -/
  coal : Word := 1
  /-- R119 entries not yet released, oldest first; reset none. -/
  marks : List Mark := []
  /-- R119 1 = an interrupt may be sent (the head doorbell has been written since the last one); reset 1. -/
  irqReady : Bool := true
  deriving DecidableEq, Repr

/-- One MSI-X table entry (R69, R121). -/
structure Msix where
  /-- R69 message address low; reset 0 (PRESUMED, log 6). -/
  addrLo : Word := 0
  /-- R69 message address high; reset 0 (PRESUMED, log 6). -/
  addrHi : Word := 0
  /-- R69 message data; reset 0 (PRESUMED, log 6). -/
  data : Word := 0
  /-- R69, R121 vector control, bit 0 = masked; reset 1 (PRESUMED, log 6). -/
  ctrl : Word := 1
  deriving DecidableEq, Repr

/-- The link and power state of a port (R124). -/
inductive Link where
  | down
  | l0
  | d3hot
  deriving DecidableEq, Repr

/-- The counters of one port (R739), each 48 bits wide (R741). -/
structure PerfCnt where
  /-- R739 RD_BYTES; reset 0. -/
  rdBytes : Nat := 0
  /-- R739 WR_BYTES; reset 0. -/
  wrBytes : Nat := 0
  /-- R739 DESC; reset 0. -/
  desc : Nat := 0
  /-- R739 MMIO; reset 0. -/
  mmio : Nat := 0
  /-- R739 CQ_HOLD; reset 0. -/
  cqHold : Nat := 0
  deriving DecidableEq, Repr

/-- One host port: its HOST block, its link, and what the device keeps for it. -/
structure PortS where
  /-- R124 link of the port; reset DESIGN CHOICE down (log 7). -/
  link : Link := .down
  /-- R71 HOST.CONTROL; reset 1. -/
  control : Word := 1
  /-- R69 HOST.NONOWNER_WR; reset 0. -/
  nonownerWr : Nat := 0
  /-- R69 HOST.DB_ERR; reset 0. -/
  dbErr : Nat := 0
  /-- R69, R102 HOST.EVT_LOST; reset 0. -/
  evtLost : Nat := 0
  /-- R102 events lost since the previous EVENTS_LOST; reset 0. -/
  lostSince : Nat := 0
  /-- R69 the 32 submission rings; reset none enabled. -/
  sqs : Vector Sq 32 := Vector.replicate 32 {}
  /-- R69 the 32 completion rings; reset none enabled. -/
  cqs : Vector OutRing 32 := Vector.replicate 32 {}
  /-- R69 the event ring; reset not enabled. -/
  eq : OutRing := {}
  /-- R69 the MSI-X table; reset all masked. -/
  msix : Vector Msix 64 := Vector.replicate 64 {}
  /-- R69, R121 the MSI-X pending bits; reset 0. -/
  pba : BitVec 64 := 0
  /-- R121 MSI-X Enable of the port's configuration space; reset DESIGN CHOICE 1, no command carries a configuration write
(log 6). -/
  msixOn : Bool := true
  /-- R121 MSI-X Function Mask of the port's configuration space; reset PRESUMED 0 (the PCIe base specification, log 6). -/
  msixMask : Bool := false
  /-- R123 the Advanced Error Reporting status of the port's failed requests, by AER bit; reset PRESUMED 0 (the PCIe base
specification, log 117). -/
  aer : Word := 0
  /-- R15, R775 the latched high halves, by offset of the pair's low half; reset none (each reads 0). -/
  latches : Cells 32 := []
  /-- R744 PERF.TAG_SEL, this port's copy; reset 0. -/
  tagSel : Word := 0
  /-- R744 the latched copy of the tag sample, words 0 to 7; reset 0. -/
  tagCopy : Vector Word 8 := Vector.replicate 8 0
  /-- R739, R746 PERF.LIVE; reset 0. -/
  live : PerfCnt := {}
  /-- R739 DTIME since which a completion has been held under R101; reset none. -/
  holdFrom : Option Nat := none
  /-- R740 PERF.LIVE as it stood when the running window began; reset 0. -/
  winBase : PerfCnt := {}
  /-- R740, R746 PERF.WIN; reset 0. -/
  win : PerfCnt := {}
  deriving DecidableEq, Repr

/-- One entry of the unit table (R75, R77). -/
structure UnitS where
  /-- R77 BOUND and OWNER; reset 0 (unbound). -/
  owner : Option PortId := none
  /-- R77 EPOCH; reset 1. -/
  epoch : Nat := 1
  /-- R77 ROLE; reset 0. -/
  role : Nat := 0
  deriving DecidableEq, Repr

/-- The count that an event raised once a second keeps for its unit and code (R777). -/
structure Limiter where
  unit   : Nat
  code   : Nat
  second : Nat
  count  : Nat
  deriving DecidableEq, Repr

/-! ### Time (chapter 01) -/

/-- The time unit: REFA, REFB and calendar. -/
structure TimeS where
  /-- R56 STATUS.REFA_OK; reset 0. -/
  refaOk : Bool := false
  /-- R56 STATUS.REFA_RANGE; reset 0. -/
  refaRange : Bool := false
  /-- R56 STATUS.HOLDOVER; reset 0. -/
  holdover : Bool := false
  /-- R40, R58 DTIME at which holdover began; reset 0. -/
  holdoverFrom : Nat := 0
  /-- R56 STATUS.PPS_LOCK; reset 0. -/
  ppsLock : Bool := false
  /-- R57 TIME.CONTROL; reset 0x0000_6401. -/
  control : Word := 0x00006401#32
  /-- R55 TIME.REFA_FREQ in kHz; reset DESIGN CHOICE 0 (log 5). -/
  refaFreq : Nat := 0
  /-- R780 the last valid REFA measurement in kHz; reset DESIGN CHOICE 25,000 (log 5). -/
  refaKHz : Nat := 25000
  /-- R171 DTIME at which `refPhase` was counted: the last change of REFA or of the rate trim; reset 0. -/
  refAt : Nat := 0
  /-- R171 REFA periods since the anchor epoch at `refAt`, in 10^-6 × 2^-20; reset 0. -/
  refPhase : Nat := 0
  /-- R55 TIME.PPS_STAMP; reset DESIGN CHOICE 0 (log 5). -/
  ppsStamp : Nat := 0
  /-- R480 the accepted edges before PPS_STAMP, newest first, at most 16; reset none. -/
  ppsPrev : List Nat := []
  /-- R42 the last accepted edge since power-up or since PPS_EN was set; reset none. -/
  ppsLast : Option Nat := none
  /-- R44 consecutive accepted edges; reset 0. -/
  ppsRun : Nat := 0
  /-- R44, R61 the last accepted edge before an edge that came too late for PPS_LOCK, until the loss is declared; reset none. -/
  ppsLate : Option Nat := none
  /-- R55 TIME.RATE_ADJ in 0.001 ppm; reset DESIGN CHOICE 0 (log 5). -/
  rateAdj : Int := 0
  /-- R55 TIME.PPS_REJECT; reset 0. -/
  ppsReject : Nat := 0
  /-- R48 calendar time minus DTIME, ns; reset from the always-on clock at start (R52). -/
  calOffset : Int := 0
  deriving DecidableEq, Repr

/-- A self-test record (R706, R716): RESULT code and what the test wrote with it. -/
structure SelfTestRec where
  /-- R706 RESULT; reset 0 (NONE). -/
  result : Nat := 0
  /-- R716 CL_FAIL; reset 0. -/
  clFail : BitVec 8 := 0
  /-- R716 SHARED_FAIL; reset 0. -/
  sharedFail : BitVec 6 := 0
  /-- R716 duration in ms; reset 0. -/
  ms : Nat := 0
  /-- R716 operating time at the end of the test; reset 0. -/
  optime : Nat := 0
  /-- R716 power-cycle count at the end of the test; reset 0. -/
  pcycle : Nat := 0
  deriving DecidableEq, Repr

/-- The always-on domain (R694). -/
structure AonS where
  /-- R52 the always-on clock, ns of calendar time as last loaded, in steps of 1/32,768 s; reset 0 (R54). -/
  clock : Nat := 0
  /-- R52 DTIME of the last load; reset DESIGN CHOICE 0 (log 5). -/
  clockAt : Nat := 0
  /-- R53, R55 TIME.OPTIME in s; reset 0. -/
  optime : Nat := 0
  /-- R53, R55 TIME.PCYCLE; reset 0. -/
  pcycle : Nat := 0
  /-- R54, R56 TIME.STATUS.AON_LOST; reset per R54, DESIGN CHOICE 0 (log 5). -/
  aonLost : Bool := false
  /-- R54, R56 TIME.STATUS.CAL_VALID; reset 0. -/
  calValid : Bool := false
  /-- R706 the self-test record; reset NONE. -/
  selfTest : SelfTestRec := {}
  /-- R687 the basking record: 1 = basking; reset 0. -/
  basking : Bool := false
  /-- R687 the shutdown stamp on the always-on clock, ns; reset 0. -/
  bask : Nat := 0
  /-- R691, R701 LAST_RESET; reset 0. -/
  lastReset : Nat := 0
  /-- R698 HK.SHUT_CNT; reset 0. -/
  shutCnt : Nat := 0
  /-- R652 the WAKE bits of the keys; reset 0. -/
  wake : BitVec 6 := 0
  deriving DecidableEq, Repr

/-! ### Start, shut-down and the device registers (chapters 00, 19) -/

/-- Where the device stands between standby and READY (R707, R713, R718, R719). -/
inductive Phase where
  /-- VAUX is not up: before the first start, in standby, or held by a rail. -/
  | off
  /-- A start is running (R707). -/
  | starting
  /-- READY (R707 step 7). -/
  | ready
  /-- A SHUTDOWN has passed its checks and the shut-down self-test runs (R713 steps 1 to 7). -/
  | shutdown
  /-- The power-fail path of R719. -/
  | powerFail
  deriving DecidableEq, Repr

/-- The DEV block and the start sequencer. -/
structure DevS where
  /-- R2, R6 the ordering code: 1 = TS9128-AC, 0 = TS9128-AQ; DESIGN CHOICE 0 (log 8). -/
  variantAc : Bool := false
  /-- R713 R719 the phase of the device; reset off (log 4). -/
  phase : Phase := .off
  /-- R722 ADMIN_SEL as sampled; reset per strap, DESIGN CHOICE 0 (log 5). -/
  admin : Fin 4 := 0
  /-- R722 SE_SPLIT as sampled; reset per strap, DESIGN CHOICE 0 (log 5). -/
  seSplit : Bool := false
  /-- R722 RECORDER_CFG as sampled; reset per strap, DESIGN CHOICE 0 (log 5). -/
  recCfg : Bool := false
  /-- R722 BOOT_MODE as sampled; reset per strap, DESIGN CHOICE 0 (log 5). -/
  bootMode : Fin 4 := 0
  /-- R723 START.KIND: 1 = full; reset per R706, DESIGN CHOICE 1 (log 5). -/
  full : Bool := true
  /-- R723 START.CAUSE; reset per R705, DESIGN CHOICE 0 (log 5). -/
  cause : Nat := 0
  /-- R723 START.WAKE_KEY; reset 7. -/
  wakeKey : Nat := 7
  /-- R723 START.T_READY in ms (no stored reset value); DESIGN CHOICE 0 (log 5). -/
  tReady : Nat := 0
  /-- R724 SHUT_CFG; reset 1. -/
  shutCfg : Word := 1
  /-- R725 SELFTEST.SHUT_RES; reset per R706, DESIGN CHOICE 0 (log 5). -/
  shutRes : Nat := 0
  /-- R725 SELFTEST.START_RES; reset 0. -/
  startRes : Nat := 0
  /-- R725 SELFTEST.SHARED_FAIL; reset 0. -/
  sharedFail : BitVec 6 := 0
  /-- R725 SELFTEST.CL_FAIL; reset 0. -/
  clFail : BitVec 8 := 0
  /-- R709 ports whose ring engine failed the start test; reset 0. -/
  portFail : BitVec 4 := 0
  /-- R726 the shut-down record found at this start, for SELFTEST_RESULT at READY; reset NONE. -/
  found : SelfTestRec := {}
  /-- R726 duration of the start test in ms; reset 0. -/
  startMs : Nat := 0
  /-- R711 MODE of the SHUTDOWN in progress: 1 = RESTART; reset 0. -/
  restart : Bool := false
  /-- R713 1 = the shut-down self-test is running (step 7); reset 0. -/
  testing : Bool := false
  /-- R719 DTIME of the power-fail warning; reset 0. -/
  warnAt : Nat := 0
  /-- R717 R718 1 = a start with the cause below is due; reset none. -/
  due : Option Nat := none
  deriving DecidableEq, Repr

/-! ### Housekeeping and supply (chapter 18) -/

/-- One housekeeping input register (R698). -/
structure HkIn where
  /-- R698 HK.IN VALUE; reset DESIGN CHOICE 0 (log 5). -/
  value : Int := 0
  /-- R698 HK.IN last code; reset DESIGN CHOICE 0 (log 5). -/
  code : Nat := 0
  deriving DecidableEq, Repr

/-- Housekeeping (unit 0x0500). -/
structure HkS where
  /-- R698 HK.IN[0..63]; reset DESIGN CHOICE 0 (log 5). -/
  inp : Vector HkIn 64 := Vector.replicate 64 {}
  /-- R699 STATUS.BASKING; reset per R687. -/
  basking : Bool := false
  /-- R699 STATUS.SHUT: stage 2 demand in force; reset per R687. -/
  shut : Bool := false
  /-- R699 STATUS.WARN; reset 0. -/
  warn : Bool := false
  /-- R699 STATUS.HOT_SENSOR; reset 0. -/
  hot : Nat := 0
  /-- R699 STATUS.BROKEN; reset 0. -/
  broken : BitVec 16 := 0
  /-- R700 HK.CTRL; reset 0x000A_0078. -/
  ctrl : Word := 0x000A0078#32
  /-- R681, R685 DTIME of the shutdown stamp; reset DESIGN CHOICE 0 (log 5). -/
  shutAt : Int := 0
  /-- R681, R685 die comparators above their threshold; reset 0. -/
  above : BitVec 16 := 0
  deriving DecidableEq, Repr

/-- The state of the supply controller (R688, R690, R718). -/
inductive SupCtl where
  | stopped
  | running
  | held
  | offLatch
  deriving DecidableEq, Repr

/-- Supply: the controller and SUPPLY registers. -/
structure SupS where
  /-- R688 R690 R718 the supply controller; reset stopped. -/
  ctl : SupCtl := .stopped
  /-- R690, R718 DTIME at which the present hold, or the off latch, began; reset DESIGN CHOICE 0 (log 5). -/
  heldAt : Nat := 0
  /-- R690 causes of stops not yet raised as SUP_FAULT; reset none. -/
  owed : List Nat := []
  /-- R701 CONFIG: 1 = VEHICLE; reset per SUP_SEL, DESIGN CHOICE 0 (log 5). -/
  vehicle : Bool := false
  /-- R701 PF; reset 0. -/
  pf : Bool := false
  /-- R701 CONV_OK; reset 0. -/
  convOk : Bool := false
  /-- R701 VBAT_LOW; reset 0. -/
  vbatLow : Bool := false
  /-- R702 CFG; reset MAINS 0x1194_0384. -/
  cfg : Word := 0x11940384#32
  /-- R31 VCORE_CTRL MODE [31], VSET [15:8], MARGIN [7:0]; reset 0x8000_A040. -/
  vctrl : Word := 0x8000A040#32
  /-- R31 VCORE_CTRL.VNOW; reset 200. -/
  vnow : Nat := 200
  /-- R30 minimum relative slack of the window, as slack and interval; reset none. -/
  slack : Option (Int × Nat) := none
  /-- R30, R33 DTIME at which the window in progress began; reset 0. -/
  windowAt : Nat := 0
  /-- R34 DTIME until which VCORE is not lowered; reset 0. -/
  noLower : Nat := 0
  deriving DecidableEq, Repr

/-! ### Recorder and storage (chapter 17) -/

/-- The token bucket of one event code (R660), level in tokens times 10^9. -/
structure Bucket where
  code  : Nat
  level : Nat
  stamp : Nat
  deriving DecidableEq, Repr

/-- The suppression count of one code (R661). -/
structure Suppr where
  code  : Nat
  unit  : Nat
  count : Nat
  first : Nat
  deriving DecidableEq, Repr

/-- The recorder (unit 0x0400). -/
structure RecS where
  /-- R678 STATUS.READY; reset 0. -/
  ready : Bool := false
  /-- R678 STATUS.CONFIG: 1 = extended; reset 0. -/
  extended : Bool := false
  /-- R678 STATUS.MEDIA_ERR; reset 0. -/
  mediaErr : Nat := 0
  /-- R678 STATUS.LAP; reset 0. -/
  lap : Nat := 0
  /-- R660 the write queue, oldest first; reset none (STATUS.QUEUE 0). -/
  queue : List Rec := []
  /-- R677 LIMIT; reset 0x0040_000A. -/
  limit : Word := 0x0040000A#32
  /-- R664 CAPACITY; reset per configuration, 65,536. -/
  capacity : Nat := 65536
  /-- R677 NEXT; reset per R667, 0. -/
  next : Nat := 0
  /-- R667 OLDEST; reset per R667, 0. -/
  oldest : Nat := 0
  /-- R662 LOST; reset 0. -/
  lost : Nat := 0
  /-- R662 records lost since the last GAP; reset 0. -/
  lostSince : Nat := 0
  /-- R677 SUPPR; reset 0. -/
  suppr : Nat := 0
  /-- R677 WRITTEN; reset 0. -/
  written : Nat := 0
  /-- R660 code buckets that have given a token; reset none. -/
  buckets : List Bucket := []
  /-- R660, R677 the level of every other code bucket at `spareAt`, tokens times 10^9; reset full. -/
  spare : Nat := 64000000000
  /-- R660, R677 DTIME of that level: the last write of LIMIT; reset 0. -/
  spareAt : Nat := 0
  /-- R660 the global bucket, tokens times 10^9; reset full. -/
  global : Nat := 400000000000
  /-- R660 DTIME of the global bucket's level; reset 0. -/
  globalAt : Nat := 0
  /-- R661 suppression counts above 0, in ascending code order; reset none. -/
  supprs : List Suppr := []
  /-- R661 the second of DTIME whose SUPPRESSED records have been queued; reset none. -/
  supprAt : Option Nat := none
  /-- R668 1 = ordinary records are no longer admitted; reset 0. -/
  draining : Bool := false
  /-- R713 step 5: 1 = no record is admitted; reset 0. -/
  closed : Bool := false
  /-- R665 the internal store: slots whose 32 bytes are not all 0; reset none (as it leaves the factory). -/
  store : List (Nat × List Byte) := []
  /-- R666 the S0 medium's slots that are not erased; DESIGN CHOICE none (log 9). -/
  s0 : List (Nat × List Byte) := []
  /-- R666 the 4 KiB blocks to be erased, the one being erased first; reset none. -/
  erasing : List Nat := []
  deriving DecidableEq, Repr

/-- The storage ports and S1 (R674 to R677, R735). -/
structure StorS where
  /-- R677 S0_CFG; reset 200. -/
  s0Cfg : Word := 200
  /-- R677 S1_CFG; reset 200. -/
  s1Cfg : Word := 200
  /-- R677 S0_INFO; reset 0 until the port is brought up (DESIGN CHOICE, log 5). -/
  s0Info : Word := 0
  /-- R677 S1_INFO; reset 0 until the port is brought up (DESIGN CHOICE, log 5). -/
  s1Info : Word := 0
  /-- R677 S1_CMD as last written; reset DESIGN CHOICE 0 (log 5). -/
  s1Cmd : Word := 0
  /-- R677 S1_STATUS.BUSY for a command in progress; reset 0. -/
  s1Busy : Bool := false
  /-- R677 S1_STATUS.ERR; reset DESIGN CHOICE 0 (log 5). -/
  s1Err : Nat := 0
  /-- R675 a bank is in use; reset 0. -/
  bankUsed : Bool := false
  /-- R677 S1_STATUS bank in use: 1 = B; reset per R675. -/
  bankB : Bool := false
  /-- R677 S1_STATUS SEQ of the bank in use; reset per R675. -/
  seq : Nat := 0
  /-- R677 S1_BUF; reset DESIGN CHOICE 0 (log 5). -/
  s1Buf : Vector Byte 256 := Vector.replicate 256 0
  /-- R676 the S1 medium, an unlisted byte reads 0xFF; DESIGN CHOICE none listed (log 9). -/
  s1 : Cells 8 := []
  /-- R735 STOR_LB PORT [8] and DEPTH [5:4]; reset 0x10. -/
  lbCfg : Word := 0x10#32
  /-- R735 STOR_LB.BUSY; reset 0. -/
  lbBusy : Bool := false
  /-- R735 port under test while BUSY: 1 = S1; reset 0. -/
  lbPort : Bool := false
  /-- R735 STOR_LB.RESULT; reset 0. -/
  lbResult : Nat := 0
  deriving DecidableEq, Repr

/-! ### Test access and performance (chapter 20) -/

/-- The instructions of the test access port (R736). -/
inductive JtagIr where
  | idcode
  | samplePreload
  | extest
  | clamp
  | highz
  | seDebug
  | prodTest
  | bypass
  deriving DecidableEq, Repr

/-- The test access port (R736). -/
structure JtagS where
  /-- R736 the instruction in force; reset IDCODE (Test-Logic-Reset). -/
  ir : JtagIr := .idcode
  /-- R736, R738 the boundary register as last preloaded; reset DESIGN CHOICE empty (log 5). -/
  boundary : List Bool := []
  /-- R737 the identification register as selected by IDCODE; reset DESIGN CHOICE 0 (log 5). -/
  dr : Word := 0
  deriving DecidableEq, Repr

/-- Performance counters common to the ports (R747). -/
structure PerfS where
  /-- R747 PERF.CTRL; reset 0x0000_2710. -/
  ctrl : Word := 0x2710#32
  /-- R746 PERF.BW_SEQ; reset 0. -/
  bwSeq : Nat := 0
  /-- R740 DTIME at which the running window ends; reset 1,000,000,000. -/
  winEnd : Nat := 1000000000
  /-- R740 1 = no window runs: the next one starts at `winEnd`; reset 0. -/
  winWait : Bool := false
  deriving DecidableEq, Repr

/-! ### A channel: state, plug, identification (chapter 03) -/

/-- The channel states, in the order of their codes (R131). -/
inductive ChCode where
  | off
  | ready
  | armed
  | run
  | stopping
  | brake
  | discharge
  | safe
  | tripped
  | locked
  | unplugged
  | ident
  | wrongMotor
  deriving DecidableEq, Repr

/-- A running identification (R145). -/
structure IdentRun where
  /-- DTIME at which IDENT was entered. -/
  start : Nat
  /-- R155 MOTOR_RS as it stood at step 1. -/
  rs : Word
  /-- R155 MOTOR_LS as it stood at step 1. -/
  ls : Word
  /-- R330 I_FS at step 1. -/
  iFs : Nat
  /-- R330 V_FS at step 1. -/
  vFs : Nat
  /-- R148 RS_MEAS, once step 3 has been completed. -/
  rsMeas : Option Nat
  deriving DecidableEq, Repr

/-- A running CH_LB_TEST (R728), and for a position test (R320) the changes of its pattern made so far, the levels of the
balls, the levels at which the pattern began, the count to which it must return, and the checks that failed. -/
structure LbRun where
  target : Nat
  depth  : Nat
  start  : Nat
  made   : Nat
  balls  : BitVec 3
  first  : BitVec 3
  home   : Nat
  bad    : BitVec 5
  deriving DecidableEq, Repr

/-- State, plug and identification of a channel (R131 to R157). -/
structure CoreS where
  /-- R131, R152 STATE.CODE; reset 10 (UNPLUGGED). -/
  code : ChCode := .unplugged
  /-- R152 STATE.PREV; reset 0. -/
  prev : ChCode := .off
  /-- R152 STATE.CAUSE; reset 0x01. -/
  cause : Nat := 1
  /-- R135, R152 STATE.VERIFIED; reset 0. -/
  verified : Bool := false
  /-- R782 the channel is unplugged (STATE.PLUGGED is its negation while PLUG_EN = 1); reset 1. -/
  isUnplugged : Bool := true
  /-- R152 STATE.STO_ACTIVE; reset 0. -/
  stoActive : Bool := false
  /-- R611 stage 3 demands ASC rather than all off; it falls once and does not come back; reset 0. -/
  stoAsc : Bool := false
  /-- R682 the ASC of stage 2 has ended until basking ends; reset 0. -/
  s2Off : Bool := false
  /-- R132 row SAFE: the release leads to LOCKED; reset 0. -/
  safeLocks : Bool := false
  /-- R781 the channel is in TRIPPED after a die thermal shutdown; reset 0. -/
  thermal : Bool := false
  /-- R159 the channel PLL clocks the island; reset 0 (idle oscillator). -/
  onPll : Bool := false
  /-- R153 CONFIG; reset 0x0000_320C. -/
  config : Word := 0x0000320C#32
  /-- R153 CONFIG as the last CH_ARM took it; reset 0x0000_320C. -/
  configIn : Word := 0x0000320C#32
  /-- R154 PLUG.PLUG_EN; reset 1. -/
  plugEn : Bool := true
  /-- R154 the qualified level of CHn_PLGN: 1 = asserted (no stored reset value); DESIGN CHOICE 0 (log 5). -/
  plugPin : Bool := false
  /-- R143, R154 PLUG.DEBOUNCING: DTIME at which the debounce began; reset none. -/
  debounce : Option Nat := none
  /-- R154 PLUG.UNPLUG_CNT; reset 0. -/
  unplugCnt : Nat := 0
  /-- R20 RWL_DROP; reset DESIGN CHOICE 0 (log 5). -/
  rwlDrop : Nat := 0
  /-- R155 MOTOR_RS; reset 0. -/
  motorRs : Word := 0
  /-- R155 MOTOR_LS; reset 0. -/
  motorLs : Word := 0
  /-- R156 IDENT_CFG; reset 0x2800_0320. -/
  identCfg : Word := 0x28000320#32
  /-- R157 IDENT_RS; reset 0. -/
  identRs : Word := 0
  /-- R157 IDENT_LS; reset 0. -/
  identLs : Word := 0
  /-- R145 the identification in progress; reset none. -/
  ident : Option IdentRun := none
  /-- R132 DTIME at which STOPPING was entered; reset none. -/
  stopFrom : Option Nat := none
  /-- R728 the loop-back test in progress; reset none. -/
  lb : Option LbRun := none
  deriving DecidableEq, Repr

/-! ### Time base (chapter 04) -/

/-- Something that takes effect at an update point: what is due at the next one, and what completed inside its commit
window and so is due at the one after (R202, R176, R207). -/
structure Due (α : Type) where
  now  : Option α := none
  next : Option α := none
  deriving DecidableEq, Repr

/-- An entry of band memory (R162, R190). -/
structure Band where
  /-- R190 NINT [25:20] and NFRAC [19:0]; reset 16 and 0. -/
  word : BitVec 26 := 0x1000000#26
  /-- R190 VALID; reset 0 (entry 0: 1). -/
  valid : Bool := false
  /-- R190 CAL; reset 0. -/
  cal : Bool := false
  deriving DecidableEq, Repr

/-- TB_STATUS.STATE (R192), in the order of its codes. -/
inductive TbState where
  | idle
  | cal
  | locking
  | aligning
  | locked
  | hopping
  | gliding
  | coast
  | relocking
  deriving DecidableEq, Repr

/-- A band request: the entry and who made it (R176, R194). -/
structure BandReq where
  entry   : Fin 8
  program : Bool
  deriving DecidableEq, Repr

/-- A HOP or GLIDE that is under way (R178): its entry, its kind, and its start in DTIME, in REFA periods since the anchor
epoch (10^-6 × 2^-20) and in frequency (kHz × 2^20). -/
structure BandChange where
  entry : Fin 8
  glide : Bool
  start : Nat
  ref   : Nat
  clk   : Nat
  deriving DecidableEq, Repr

/-- A count of ticks at an instant (R187): ticks in 10^-6 × 2^-40, and DTIME. -/
structure TickAt where
  ticks : Nat := 0
  dtime : Nat := 0
  deriving DecidableEq, Repr

/-- The time base of a channel. -/
structure TbS where
  /-- R189 TB_CTRL without BAND_SEL and REALIGN; reset 0x0800_0000. -/
  ctrl : Word := 0x08000000#32
  /-- R189 BAND_SEL; reset 0. -/
  sel : Fin 8 := 0
  /-- R191 TB_PROFILE; reset 0x0064_0A64. -/
  profile : Word := 0x00640A64#32
  /-- R162, R190 band memory; reset entry 0 VALID. -/
  bands : Vector Band 8 := (Vector.replicate 8 {}).set 0 { valid := true }
  /-- R190 the INDEX last written; reset 0. -/
  index : Fin 8 := 0
  /-- R192 STATE from LOCKING on; CAL and LOCKING follow the time since `seqFrom`; reset IDLE. -/
  state : TbState := .idle
  /-- R166 DTIME of step 1 of the running lock sequence, none while it waits for REFA; reset none. -/
  seqFrom : Option Nat := none
  /-- R166 a lock sequence runs, begun at this DTIME; reset none. -/
  seqBegan : Option Nat := none
  /-- R784 the first step 1 of the running lock sequence has been taken; reset 0. -/
  picked : Bool := false
  /-- R166 the entries that step 2 of the running lock sequence calibrates; reset 0. -/
  calDue : BitVec 8 := 0
  /-- R166 how many they were at step 1; reset 0. -/
  calCount : Nat := 0
  /-- R784 the entry in use, from the first step 1 until the PLL stops; reset 0. -/
  entry : Fin 8 := 0
  /-- R785 the word in use; reset that of entry 0. -/
  word : BitVec 26 := 0x1000000#26
  /-- R168 TB_LOCK_FAIL has been raised since CH_ARM; reset 0. -/
  failRaised : Bool := false
  /-- R163 entries for which TB_N_CLAMP has been raised since the lock; reset 0. -/
  clampRaised : BitVec 8 := 0
  /-- R176, R177 band requests; reset none. -/
  req : Due BandReq := {}
  /-- R178 the HOP or GLIDE under way, or interrupted by coast (R185); reset none. -/
  change : Option BandChange := none
  /-- R175, R779 realigns requested and not yet made; reset none. -/
  realign : Due Unit := {}
  /-- R175 the present carrier period is lengthened by a realign; reset 0. -/
  lengthened : Bool := false
  /-- R186 the coast limit has been taken in this coast; reset 0. -/
  coastLimit : Bool := false
  /-- R174, R192 OFF_GRID; reset 0. -/
  offGrid : Bool := false
  /-- R183 DTIME at which coast began; reset none. -/
  coastFrom : Option Nat := none
  /-- R192 LOCK_CNT; reset 0. -/
  lockCnt : Nat := 0
  /-- R192 HOP_CNT; reset 0. -/
  hopCnt : Nat := 0
  /-- R182 REFA periods since the anchor epoch, in 10^-6 × 2^-20, from which the modulation may restart (lock or end of a
  change); reset 0. -/
  ssFrom : Nat := 0
  /-- R167 REFA periods since the anchor epoch, in 10^-6 × 2^-20, at which STATE was entered; for a lock sequence, at its
  step 1; reset 0. -/
  stateRef : Nat := 0
  /-- R187 the ticks that the source clocking the island has counted up to `tickAt`, in 10^-6 × 2^-40; reset 0. -/
  ticks : Nat := 0
  /-- R187 DTIME of `ticks`: the last change of source, word or STATE; reset 0. -/
  tickAt : Nat := 0
  /-- R171 REFA periods since the anchor epoch at `tickAt`, in 10^-6 × 2^-20; reset 0. -/
  tickRef : Nat := 0
  /-- R183, R185 the frequency at `tickAt` in kHz × 2^20, held in coast; reset 0. -/
  tickClk : Nat := 0
  /-- R187 what the 64-bit tick counter held beyond `ticks`, in 10^-6 × 2^-40; reset 0. -/
  tickBase : Int := 0
  /-- R158 which draw of the idle oscillator's frequency clocks the island (log 10); reset DESIGN CHOICE 0 (log 5). -/
  idleNo : Nat := 0
  /-- R187 the lock record: the two latest pairs of tick count and DTIME, the later first; reset 0. -/
  record : TickAt × TickAt := ({}, {})
  /-- R184 the cluster's die temperature at coast entry, 0.1 °C; reset DESIGN CHOICE 0 (log 5). -/
  coastTemp : Int := 0
  /-- R193 TB_ANCHOR; reset 0. -/
  anchor : Nat := 0
  deriving DecidableEq, Repr

/-! ### PWM (chapter 05) -/

/-- A duty set: three compares in 20.4 ticks (R198, R200). -/
structure DutySet where
  cu : Nat
  cv : Nat
  cw : Nat
  deriving DecidableEq, Repr

/-- What a leg does in the present carrier period, in 20.4 ticks from count 0 (R205, R210 to R220): the high-side pulse,
and the low-side intervals. An open end (`none`) is the next count 0. -/
structure LegPlan where
  high : Option (Nat × Option Nat)
  low  : List (Nat × Option Nat)
  deriving DecidableEq, Repr

/-- One leg of the modulator. -/
structure LegS where
  /-- R211 the low side was on immediately before the present count 0; reset 0. -/
  lowBefore : Bool := false
  /-- R211 the high side was on immediately before the present count 0; reset 0. -/
  highBefore : Bool := false
  /-- R205 the plan of the present period; reset none (both switches off). -/
  plan : LegPlan := { high := none, low := [] }
  /-- R218 consecutive periods with the high side on and no low-side turn-on; reset 0. -/
  count : Nat := 0
  /-- R221 the first stage 6 period begins with a refresh; reset 0. -/
  first : Bool := false
  deriving DecidableEq, Repr

/-- What drives the two switches of a leg (R224): a standing command of the high and the low side, or pulses, those of the
leg's plan at stage 6 (`plan`) or those of a built-in regulator at stage 5, with the side that an ON or OFF of stage 4
holds. -/
inductive LegCmd where
  | fixed (high low : Bool)
  | pulses (plan : Bool) (high low : Option Bool)
  deriving DecidableEq, Repr

/-- The lanes of a leg under a standing command (R215, R225, R231). Instants are tick counts in 10^-6 × 2^-40. -/
structure LegOut where
  /-- R224 what drives the leg; reset off. -/
  cmd : LegCmd := .fixed false false
  /-- R225 when the high side turns on or has turned on, none while it is off; reset none. -/
  highOn : Option Nat := none
  /-- R225 see `highOn`; reset none. -/
  lowOn : Option Nat := none
  /-- R225 when the high side last turned off; reset 0. -/
  highOff : Nat := 0
  /-- R225 see `highOff`; reset 0. -/
  lowOff : Nat := 0
  /-- R215 the last edge of the leg's gate lanes that `highOn` and `lowOn` do not tell, and whether it was a turn-on; reset
  none. -/
  edge : Option (Nat × Bool) := none
  deriving DecidableEq, Repr

/-- The PWM island of a channel. -/
structure PwmS where
  /-- R236 PWM_CFG without PERIOD; reset 0x0800_0000. -/
  cfg : Word := 0x08000000#32
  /-- R236 UPD as the last CH_ARM took it; reset 0. -/
  updIn : Nat := 0
  /-- R207, R236 the PERIOD in force, 20.4 ticks as written; reset 0x4_E200. -/
  period : Nat := 0x4E200
  /-- R237 PWM_DT; reset 0x0050_0050. -/
  dt : Word := 0x00500050#32
  /-- R238 PWM_MINPW; reset 40. -/
  minpw : Word := 40
  /-- R239 GATE_PROFILE; reset 0. -/
  profile : Word := 0
  /-- R240 GATE_BSR; reset 0x0001_9000. -/
  bsr : Word := 0x00019000#32
  /-- R195 the carrier runs: DTIME of the last count 0; reset none. -/
  count0 : Option Nat := none
  /-- R195 the tick count at the last count 0, in 10^-6 × 2^-40; reset 0. -/
  tick0 : Nat := 0
  /-- R175 what a realign adds to the present period, in 10^-6 × 2^-40 tick; reset 0. -/
  extra : Nat := 0
  /-- R199 the MID update point of the present period has passed; reset 0. -/
  midDone : Bool := false
  /-- R247 the tick count at the carrier count 0 that ended the lock sequence, in 10^-6 × 2^-40; reset 0. -/
  first0 : Nat := 0
  /-- R247 the tick counts of the previous period's count 0 and MID update point, in 10^-6 × 2^-40; reset 0. -/
  prev0 : Nat × Nat := (0, 0)
  /-- R247 the periods (R248) of the last slots of a BOUNDARY and of a MID update point; reset -1. -/
  slotNo : Int × Int := (-1, -1)
  /-- R248 carrier periods since the first count 0 after entry into ARMED; reset 0. -/
  periodNo : Int := 0
  /-- R207 PERIOD requests: value, and 1 = from the loop program; reset none. -/
  periodReq : Due (Nat × Bool) := {}
  /-- R202, R203 duty sets not yet in effect; reset none. -/
  duty : Due DutySet := {}
  /-- R209 the duty set in force; reset none. -/
  set : Option DutySet := none
  /-- R209, R241 SET_VALID; reset 0. -/
  setValid : Bool := false
  /-- R136 a release of the gate lanes is due at the next BOUNDARY; reset 0. -/
  release : Bool := false
  /-- R779 the release was requested inside a commit window; reset 0. -/
  releaseLate : Bool := false
  /-- R224 the lanes are released: stage 6, or the start at stage 5, may drive; reset 0. -/
  released : Bool := false
  /-- R205, R218 the legs U, V, W; reset off. -/
  legs : Vector LegS 3 := Vector.replicate 3 {}
  /-- R129, R215, R225 the lanes of the legs U, V, W; reset off. -/
  outs : Vector LegOut 3 := Vector.replicate 3 {}
  /-- R241 LATE_CNT; reset 0. -/
  lateCnt : Nat := 0
  /-- R241 XCMD_CNT; reset 0. -/
  xcmdCnt : Nat := 0
  /-- R233, R242 stamps of the XCMD events of the last 1 ms, newest first, and whether each has contributed to a
  qualification; reset none. -/
  xcmds : List (Nat × Bool) := []
  /-- R232 the legs on which the both-asserted condition holds; reset 0. -/
  both : BitVec 3 := 0
  /-- R241 W1C bits RANGE [11], XCMD [10:8], RF [6:4], LATE_SET [0]; reset 0. -/
  flags : Word := 0
  deriving DecidableEq, Repr

/-! ### Position (chapter 07) -/

/-- The position unit of a channel. -/
structure PosS where
  /-- R323 POS_CFG; reset 0x0434_6428. -/
  cfg : Word := 0x04346428#32
  /-- R324 POS_CPR; reset 4,096. -/
  cpr : Word := 4096
  /-- R325 POS_INDEX.INDEX_POS; reset 0. -/
  indexPos : Nat := 0
  /-- R304, R326 the count; reset 0. -/
  count : Nat := 0
  /-- R305 the revolution counter; reset 0. -/
  rev : BitVec 32 := 0
  /-- R312 edges in one direction since the estimate was reset; reset 0. -/
  n : Nat := 0
  /-- R311 the estimate taken at the last edge, 1/16 count per second; reset 0. -/
  speed : Int := 0
  /-- R312 SPD_UNCERTAIN; reset 0. -/
  uncertain : Bool := false
  /-- R314 STILL; reset 1. -/
  still : Bool := true
  /-- R327 DIR: 1 = down; reset 0. -/
  down : Bool := false
  /-- R295 a direction is known; reset 0. -/
  dirKnown : Bool := false
  /-- R316 stamp of the last edge, 1/16 ns; reset DESIGN CHOICE 0 (log 5). -/
  edge : Nat := 0
  /-- R307 index acquisition is armed; reset 1. -/
  acquire : Bool := true
  /-- R327 REFERENCED; reset 0. -/
  referenced : Bool := false
  /-- R309 SLIP, 16-bit saturating; reset 0. -/
  slip : Int := 0
  /-- R327 ERR_RUN; reset 0. -/
  errRun : Nat := 0
  /-- R327 INV_RUN; reset 0. -/
  invRun : Nat := 0
  /-- R302 the last valid Hall sector since the position state was reset; reset none. -/
  sector : Option Nat := none
  /-- R327 PINS, PA [0], PB [1], PZ [2] (no stored reset value); DESIGN CHOICE 0 (log 5). -/
  pins : BitVec 3 := 0
  /-- R327 POS_FLT; reset 0. -/
  flt : Bool := false
  /-- R327 W1C bits QUAD_ERR [7], HALL_SKIP [6], HALL_INVALID [5], INDEX_ERR [4]; reset 0. -/
  flags : Word := 0
  deriving DecidableEq, Repr

/-! ### Sensing (chapter 06) -/

/-- A trim entry (R289). -/
structure Trim where
  /-- R289 GAIN; reset 0. -/
  gain : BitVec 12 := 0
  /-- R289 OFS; reset 0. -/
  ofs : BitVec 12 := 0
  /-- R289 AZ_VALID; reset 0. -/
  azValid : Bool := false
  deriving DecidableEq, Repr

/-- A window comparator (R290). -/
structure Window where
  /-- R290 the entry without INDEX; reset EN 0, SRC 0, HI 4,095, LO 0. -/
  cfg : BitVec 30 := 0x00FFF000#30
  /-- R273, R274 armed; reset 0. -/
  armed : Bool := false
  /-- R291 WIN_OUT; reset 0. -/
  out : Bool := false
  /-- R274 the re-arm band has been empty since the window was last disarmed or written; reset 0. -/
  dead : Bool := false
  deriving DecidableEq, Repr

/-- A capture pending or running on a converter (R267 to R270). -/
structure Capture where
  cmp      : Fin 5
  crossing : Nat
  /-- R271 the sample instant, once the conversion has started. -/
  sample   : Option Nat
  /-- R258 the trim entry that the conversion uses, taken at its start. -/
  trim     : Trim
  deriving DecidableEq, Repr

/-- A slot whose conversions run (R249). -/
structure SlotRun where
  /-- R247 start of the slot, DTIME. -/
  start : Nat
  /-- R252 a free slot. -/
  free : Bool
  /-- R380 the update point it belongs to: 1 = MID. -/
  mid : Bool
  /-- R250 a housekeeping slot. -/
  hk : Bool
  /-- R251 a cross-check slot. -/
  xchk : Bool
  /-- R269 the slot was delayed or repeats the last value. -/
  delayed : Bool
  /-- R391 the deadline of its UPDATE run. -/
  deadline : Nat
  /-- R380 carrier count at the slot start. -/
  count : Nat
  /-- R258 the trim entries its conversions use, each as it stands at that conversion's start. -/
  trim : Vector Trim 5
  /-- R316 the position unit at the sample instant, none before it. -/
  pos : Option PosS
  /-- R461 on_x and mod_x of the legs at the sample instant, none where nothing has changed since it. -/
  lanes : Option (BitVec 3 × BitVec 3)
  /-- R249 conversions delivered: 0 none, 1 step 1, 2 step 2. -/
  step : Nat
  deriving DecidableEq, Repr

/-- What an auto-zero has collected of one input (R259): least, greatest and sum. -/
structure AzSum where
  lo  : Int
  hi  : Int
  sum : Int
  deriving DecidableEq, Repr

/-- An auto-zero in progress (R259). -/
structure AzRun where
  slots : Nat
  u     : Option AzSum
  v     : Option AzSum
  deriving DecidableEq, Repr

/-- The position snapshot that reaches the safety executive (R317, R605). -/
structure SeSnap where
  /-- R311 speed; reset 0. -/
  speed : Int := 0
  /-- R304 count; reset 0. -/
  count : Nat := 0
  /-- R312 SPD_UNCERTAIN; reset 0. -/
  uncertain : Bool := false
  /-- R314 STILL; reset 1. -/
  still : Bool := true
  /-- R327 DIR; reset 0. -/
  down : Bool := false
  /-- R317 the sample stamp of the slot; reset DESIGN CHOICE 0 (log 5). -/
  stamp : Nat := 0
  deriving DecidableEq, Repr

/-- The sensing unit of a channel. -/
structure AdcS where
  /-- R286 ADC_CFG; reset 0x40C4_2000. -/
  cfg : Word := 0x40C42000#32
  /-- R286 ADC_CFG as the last CH_ARM took it; reset 0x40C4_2000. -/
  cfgIn : Word := 0x40C42000#32
  /-- R287 CMP_A; reset 0x3CD0_CFCD. -/
  cmpA : Word := 0x3CD0CFCD#32
  /-- R288 CMP_B; reset 0x0400_CFCD. -/
  cmpB : Word := 0x0400CFCD#32
  /-- R289 the trim entries IU, IV, VBUS A, VBUS B, NTC; reset 0. -/
  trim : Vector Trim 5 := Vector.replicate 5 {}
  /-- R289 ADC_TRIM.INDEX; reset 0. -/
  trimIdx : Nat := 0
  /-- R290 the windows; reset per R290. -/
  win : Vector Window 4 := Vector.replicate 4 {}
  /-- R290 ADC_WIN.INDEX; reset 0. -/
  winIdx : Nat := 0
  /-- R254 the last eight mid-scale deviations of ADC-A, newest first; reset none. -/
  devA : List Int := []
  /-- R254 the last eight mid-scale deviations of ADC-B, newest first; reset none. -/
  devB : List Int := []
  /-- R249 the slot in progress; reset none. -/
  slot : Option SlotRun := none
  /-- R252 DTIME of the last slot start; reset 0. -/
  slotAt : Nat := 0
  /-- R250 start of the previous housekeeping slot since the island last changed clock; reset none. -/
  hkAt : Option Nat := none
  /-- R251 free slots since the last change of clock source; reset 0. -/
  freeNo : Nat := 0
  /-- R262 the sample stamp of IV_LAST; reset DESIGN CHOICE 0 (log 5). -/
  seAt : Nat := 0
  /-- R251 the carrier period from which the next slot is a cross-check slot; reset 0. -/
  xchkAt : Int := 0
  /-- R276, R291 XCHK_RUN; reset 0. -/
  xchkRun : Nat := 0
  /-- R255 the last corrected IU and IV codes; reset DESIGN CHOICE 0 (log 5). -/
  iu : Int := 0
  /-- R255 see `iu`; reset DESIGN CHOICE 0 (log 5). -/
  iv : Int := 0
  /-- R256 the last corrected VBUS code of ADC-A; reset DESIGN CHOICE 0 (log 5). -/
  vbus : Nat := 0
  /-- R256 the last corrected VBUS code of ADC-B; reset DESIGN CHOICE 0 (log 5). -/
  vbusB : Nat := 0
  /-- R256 the last corrected NTC code; reset DESIGN CHOICE 0 (log 5). -/
  ntc : Nat := 0
  /-- R679 NTC result housekeeping took at the last round; reset DESIGN CHOICE 0 (log 5). -/
  ntcHk : Nat := 0
  /-- R605 NSAMP: IV values on the safety path since the last input latch; reset 0. -/
  seN : Nat := 0
  /-- R605 IV_MAX; reset 0. -/
  seMax : Int := 0
  /-- R605 IV_MIN; reset 0. -/
  seMin : Int := 0
  /-- R605 IV_LAST; reset 0. -/
  seLast : Int := 0
  /-- R317 the position snapshot of the last current slot; reset that of a position unit just reset. -/
  seSnap : SeSnap := {}
  /-- R259 the auto-zero in progress; reset none. -/
  az : Option AzRun := none
  /-- R291 CMP_LIVE; reset 0. -/
  live : BitVec 5 := 0
  /-- R266 comparators whose threshold settles, and DTIME of the last write; reset none. -/
  settle : Vector (Option Nat) 5 := Vector.replicate 5 none
  /-- R270 the capture of ADC-A; reset none. -/
  capA : Option Capture := none
  /-- R270 the capture of ADC-B; reset none. -/
  capB : Option Capture := none
  /-- R291 CAP_MERGE; reset 0. -/
  capMerge : Nat := 0
  /-- R279 DTIME at which the comparator self-test began; reset none. -/
  cmpTest : Option Nat := none
  /-- R291 CMP_FAIL; reset 0. -/
  cmpFail : BitVec 5 := 0
  /-- R291 ADC_FLT; reset 0. -/
  flt : Bool := false
  /-- R291 W1C bits W_SAT [19], AZ_SKIP [18], SLOT_DLY [1], CONV_TO [0]; reset 0. -/
  flags : Word := 0
  deriving DecidableEq, Repr

/-! ### Field control (chapter 08) -/

/-- FCU_STATUS.PHASE (R370), in the order of its codes. -/
inductive FcuPhase where
  | idle
  | probe
  | hfiConverge
  | polarity
  | align
  | waitRef
  | catchAsc
  | sync
  | done
  | brakeAsc
  | brakePulsed
  | discharge
  | wrongMotorAsc
  deriving DecidableEq, Repr

/-- An estimator (R340, R342): its lock and the runs of slots inside and outside its bands. -/
structure Estim where
  /-- R340, R343 HFI_LOCK or OBS_LOCK; reset 0. -/
  lock : Bool := false
  /-- R340, R343 consecutive slots inside ±364; reset 0. -/
  good : Nat := 0
  /-- R340, R343 consecutive slots outside the losing band; reset 0. -/
  bad : Nat := 0
  /-- R331 estimated angle; reset DESIGN CHOICE 0 (log 5). -/
  theta : Nat := 0
  /-- R332 estimated speed; reset DESIGN CHOICE 0 (log 5). -/
  omega : Int := 0
  deriving DecidableEq, Repr

/-- A discharge in progress (R358). -/
structure DisRun where
  mode  : Nat
  start : Nat
  /-- R359 DTIME since which VBUS has stayed at or below DIS_V_END. -/
  low   : Option Nat
  deriving DecidableEq, Repr

/-- The direction in which the blend weight moves (R337). -/
inductive BlendDir where
  | steady
  | rising
  | falling
  deriving DecidableEq, Repr

/-- The field control unit of a channel. -/
structure FcuS where
  /-- R367 FCU_CFG; reset 0x2301_0000. -/
  cfg : Word := 0x23010000#32
  /-- R367 FCU_CFG as the last CH_ARM took it; reset 0x2301_0000. -/
  cfgIn : Word := 0x23010000#32
  /-- R369 the parameters as written; reset per R369. -/
  par : Vector Nat 34 := #v[0, 0, 0, 0, 100000, 6000, 1600, 50, 200, 100, 200, 50, 50, 100, 50, 200, 8, 5000, 200, 2000,
    5, 800, 200, 300, 500, 205, 166, 333, 4096, 20, 6000, 800, 5000, 160]
  /-- R368 the parameters as the last CH_ARM took them; reset per R369. -/
  parIn : Vector Nat 34 := #v[0, 0, 0, 0, 100000, 6000, 1600, 50, 200, 100, 200, 50, 50, 100, 50, 200, 8, 5000, 200, 2000,
    5, 800, 200, 300, 500, 205, 166, 333, 4096, 20, 6000, 800, 5000, 160]
  /-- R368 FCU_PARAM.INDEX; reset 0. -/
  parIdx : Nat := 0
  /-- R342 MOTOR_RS.NOM and MOTOR_LS.NOM as the last CH_ARM took them; reset 0. -/
  rsIn : Nat := 0
  /-- R342 see `rsIn`; reset 0. -/
  lsIn : Nat := 0
  /-- R370 PHASE; reset IDLE. -/
  phase : FcuPhase := .idle
  /-- R370 START_DONE; reset 0. -/
  startDone : Bool := false
  /-- R347 DTIME at which the start in progress began; reset none. -/
  startFrom : Option Nat := none
  /-- R345 the start that runs or ran last; reset 4 (NONE). -/
  startMode : Nat := 4
  /-- R370 OUTCOME; reset 0. -/
  outcome : Nat := 0
  /-- R353 angles of the probe's pulses, newest first, with |i| of each in 2^-16 of a Q15 unit; reset none. -/
  probe : List (Nat × Nat) := []
  /-- R354 the probe repeats after INCONSISTENT; reset 0. -/
  probeAgain : Bool := false
  /-- R352 DTIME at which the first pulse of the probe began; reset 0. -/
  probeFrom : Nat := 0
  /-- R353 mean speed of the probe, 2^-16 revolution per second, as a fraction; reset DESIGN CHOICE 0 (log 5). -/
  probeSpeed : Int × Nat := (0, 1)
  /-- R344 entry 3: the ASC speed is the probe's; reset 0. -/
  probeUse : Bool := false
  /-- R341 polarity tests made in this start; reset 0. -/
  polarity : Nat := 0
  /-- R341 DTIME at which the polarity test in progress began; reset 0. -/
  polarityAt : Nat := 0
  /-- R351 DTIME at which the ALIGN start in progress began; reset 0. -/
  alignFrom : Nat := 0
  /-- R335 the aligned count, in place of count 0; reset none. -/
  aligned : Option Nat := none
  /-- R340 the injection estimator; reset unlocked. -/
  hfi : Estim := {}
  /-- R342 the observer; reset unlocked. -/
  obs : Estim := {}
  /-- R339 the modulator service has answered with injection since the last slot; reset 0. -/
  injected : Bool := false
  /-- R339 a duty set without injection has been delivered since the last slot; reset 0. -/
  plainSet : Bool := false
  /-- R339 sign of the injection at the next slot: 1 = negative; reset 0. -/
  injNeg : Bool := false
  /-- R337 blend weight w in 2^-16; reset 0. -/
  blend : Nat := 0
  /-- R337 movement of w; reset steady. -/
  blendDir : BlendDir := .steady
  /-- R337 DTIME at which w had that value and its movement began; reset 0. -/
  blendAt : Nat := 0
  /-- R331 θ at the last slot; reset DESIGN CHOICE 0 (log 5). -/
  theta : Nat := 0
  /-- R332 ω at the last slot; reset DESIGN CHOICE 0 (log 5). -/
  omega : Int := 0
  /-- R333 DTIME of the sample instant of the last slot; reset 0. -/
  sampleAt : Nat := 0
  /-- R331 id and iq at the last slot, Q15; reset DESIGN CHOICE 0 (log 5). -/
  id : Int := 0
  /-- R331 see `id`; reset DESIGN CHOICE 0 (log 5). -/
  iq : Int := 0
  /-- R340 the change of iq at the last slot; reset 0. -/
  dIq : Int := 0
  /-- R331, R342 ialpha and ibeta at the last slot, Q15; reset 0. -/
  iAb : Int × Int := (0, 0)
  /-- R342 the size of the back-EMF at the last slot, 10^-9 V; reset 0. -/
  emf : Nat := 0
  /-- R344 entry 4: rotation of the short-circuit current vector while ASC is applied; reset none. -/
  ascOmega : Option Int := none
  /-- R344 entry 4: angle of the loop that follows the short-circuit current vector; reset 0. -/
  ascTheta : Nat := 0
  /-- R344 entry 4: sample instant of the last slot in ASC; reset 0. -/
  ascAt : Nat := 0
  /-- R344 DTIME since which |i| has stayed below ASC_I_MIN; reset none. -/
  ascLow : Option Nat := none
  /-- R370 DEMAG; reset 0. -/
  demag : Bool := false
  /-- R370 V_SAT; reset 0. -/
  vSat : Bool := false
  /-- R360 the filtered ratio in 2^-24; reset 0. -/
  keFilt : Nat := 0
  /-- R360 DTIME of the last slot at which the monitor ran; reset none. -/
  keAt : Option Nat := none
  /-- R361 time out of KE_WRONG_LO to KE_WRONG_HI, ns; reset 0. -/
  keWrong : Nat := 0
  /-- R361 time below KE_DEMAG, ns; reset 0. -/
  keLow : Nat := 0
  /-- R362 time at or above KE_DEMAG + 8, ns; reset 0. -/
  keBack : Nat := 0
  /-- R357 BRAKE_SLOW has been raised in this BRAKE; reset 0. -/
  brakeSlow : Bool := false
  /-- R356 PULSED: the lanes are in the off interval; reset 0. -/
  pulseOff : Bool := false
  /-- R358 the discharge in progress; reset none. -/
  dis : Option DisRun := none
  deriving DecidableEq, Repr

/-! ### Loop engine (chapters 09, 10) -/

/-- The registers of an engine (R375, R418, R586); IX and PC hold at most their width. -/
structure RegsS where
  /-- R375 D0 to D31; reset DESIGN CHOICE 0 (log 5). -/
  d : Vector Half 32 := Vector.replicate 32 0
  /-- R375 ACC0 to ACC3, signed 40-bit; reset DESIGN CHOICE 0 (log 5). -/
  acc : Vector (BitVec 40) 4 := Vector.replicate 4 0
  /-- R375 IX0 to IX3; reset DESIGN CHOICE 0 (log 5). -/
  ix : Vector Nat 4 := Vector.replicate 4 0
  /-- R375 PC; reset DESIGN CHOICE 0 (log 5). -/
  pc : Nat := 0
  deriving DecidableEq, Repr

/-- The four entries, in the order of their priority (R386). -/
inductive Entry where
  | update
  | capture
  | slow
  | host
  deriving DecidableEq, Repr

/-- A pending trigger (R388): its DTIME stamp, and for UPDATE the deadline and the position snapshot's M of R403. -/
structure Trigger where
  stamp    : Nat
  deadline : Nat
  deriving DecidableEq, Repr

/-- A run in progress (R386, R388). -/
structure RunS where
  entry    : Entry
  trig     : Trigger
  /-- R381 the input words as they stood when the run started. -/
  inp      : Cells 16
  /-- R383 VQ has been written in this run and the answer has not come. -/
  waitsMod : Bool
  /-- R382 the step 2 delivery of this UPDATE run's slot has not come. -/
  waitsVbus : Bool
  /-- R433 instructions executed. -/
  count    : Nat
  deriving DecidableEq, Repr

/-- R400 the PSM transfer of a host that is under way: it moves a chunk at a time, between runs. -/
structure PsmJob where
  /-- The PSM address of the next word. -/
  addr    : Nat
  /-- Words still to move. -/
  left    : Nat
  /-- The words to write, or those read so far. -/
  words   : List Half
  /-- NLE_PSM_READ. -/
  read    : Bool
  /-- R115 the host buffer that a read fills. -/
  bufAddr : Nat
  /-- The next chunk goes before any pending trigger. -/
  first   : Bool
  deriving DecidableEq, Repr

/-- The loop engine of a channel. -/
structure NleS where
  /-- R376 the control store; reset 0. -/
  store : Cells 32 := []
  /-- R376 the PSM; reset 0. -/
  psm : Cells 16 := []
  /-- R375 the registers; reset per R376. -/
  regs : RegsS := {}
  /-- R407 LOADED; reset 0. -/
  loaded : Bool := false
  /-- R407 PROG_ID; reset 0. -/
  progId : Nat := 0
  /-- R407 LATE_MAX; reset 3. -/
  lateMax : Nat := 3
  /-- R398 the entries' addresses; reset absent. -/
  entries : Vector (Option Nat) 4 := Vector.replicate 4 none
  /-- R398 the budgets in ns; reset 0. -/
  budgets : Vector Nat 4 := Vector.replicate 4 0
  /-- R409 NLE_FE; reset 0x0064_FFFF. -/
  fe : Word := 0x0064FFFF#32
  /-- R409 NLE_FE as the last CH_ARM took it; reset 0x0064_FFFF. -/
  feIn : Word := 0x0064FFFF#32
  /-- R387 the engine is enabled; reset 0. -/
  enabled : Bool := false
  /-- R390 DTIME at which the engine was last disabled; reset none. -/
  disabledAt : Option Nat := none
  /-- R388 pending triggers, by entry; reset none. -/
  pend : Vector (Option Trigger) 4 := Vector.replicate 4 none
  /-- R388 the run in progress; reset none. -/
  run : Option RunS := none
  /-- R400 the host's PSM transfer under way; reset none. -/
  job : Option PsmJob := none
  /-- R380, R381 the input words of the I/O space, as last delivered; reset DESIGN CHOICE 0 (log 5). -/
  inp : Cells 16 := []
  /-- R380 the words the program writes (0x280 to 0x2FF, MBX_OUT); reset DESIGN CHOICE 0 (log 5). -/
  out : Cells 16 := []
  /-- R401 HOST runs under way or pending whose NLE_MAILBOX has completed with TIMEOUT; reset 0. -/
  orphans : Nat := 0
  /-- R380 CAP_NEW; reset 0. -/
  capNew : BitVec 2 := 0
  /-- R380 RUN_INFO.FIRST of the next UPDATE run; reset 0. -/
  first : Bool := false
  /-- R380 the previous UPDATE run was late; reset 0. -/
  prevLate : Bool := false
  /-- R380 an UPDATE trigger was skipped since the previous UPDATE run; reset 0. -/
  skipped : Bool := false
  /-- R403 FE_REF has been written since RUN was entered; reset 0. -/
  feWritten : Bool := false
  /-- R403, R408 FE_OVER; reset 0. -/
  feOver : Bool := false
  /-- R404 time FE_OVER has held, ns, and DTIME of the last UPDATE completion; reset 0. -/
  feTime : Nat := 0
  /-- R404 see `feTime`; reset none. -/
  feAt : Option Nat := none
  /-- R411 DTIME of the last NLE_USER; reset none. -/
  userAt : Option Nat := none
  /-- R408 LATE_CNT; reset 0. -/
  lateCnt : Nat := 0
  /-- R408 OVR_CNT; reset 0. -/
  ovrCnt : Nat := 0
  /-- R393, R408 LATE_RUN; reset 0. -/
  lateRun : Nat := 0
  /-- R408 ENTRY; reset 0. -/
  entry : Entry := .update
  /-- R408 W1C bits MEM_ERR [4], EXC [3], ABORT [2], OVR [1], LATE [0]; reset 0. -/
  flags : Word := 0
  deriving DecidableEq, Repr

/-! ### Protection and thermal model (chapter 11) -/

/-- A trip input with its filter (R229). -/
structure TripIn where
  /-- R229 the level before the filter; reset 0. -/
  raw : Bool := false
  /-- R229 first sample of that level, DTIME; reset 0. -/
  since : Nat := 0
  /-- R229 the source is active after its filter; reset 0. -/
  qual : Bool := false
  deriving DecidableEq, Repr

/-- A chopper check in progress (R455). -/
structure ChopCheck where
  v0       : Nat
  deadline : Nat
  last     : Nat
  deriving DecidableEq, Repr

/-- The protection unit of a channel. -/
structure ProtS where
  /-- R466 FAULT_MAP entries without INDEX, by source; reset per R439. -/
  map : Vector Word 11 := #v[0x00C90028#32, 0x00850008#32, 0x00850008#32, 0x00090028#32, 0x00490000#32, 0x00150000#32,
    0x00150000#32, 0x00490000#32, 0x00490000#32, 0x00050000#32, 0x00490000#32]
  /-- R466 FAULT_MAP.INDEX; reset 0. -/
  mapIdx : Nat := 0
  /-- R467 PROT_RETRY; reset 0x0190_C064. -/
  retry : Word := 0x0190C064#32
  /-- R468 PROT_OV1 without CHOP_FLT; reset 0x1484_3A98. -/
  ov1 : Word := 0x14843A98#32
  /-- R468 PROT_OV1.CHOP_FLT; reset 0. -/
  chopFlt : Bool := false
  /-- R454 the chopper demands CHn_AUX on; reset 0. -/
  chopOn : Bool := false
  /-- R455 the chopper check in progress; reset none. -/
  chop : Option ChopCheck := none
  /-- R456 slots of stage 6 within the last 1 ms: stamp and power, newest first; reset none. -/
  power : List (Nat × Int) := []
  /-- R229 the filtered sources FLTN, OC_U, OC_V, OV2; reset inactive. -/
  trip : Vector TripIn 4 := Vector.replicate 4 {}
  /-- R440 source STO is active; reset 0. -/
  sto : Bool := false
  /-- R440, R462 THERM cause 0 is active; reset 0. -/
  hot : Bool := false
  /-- R228 sources whose actions last until the channel has left TRIPPED and LOCKED; reset 0. -/
  held : BitVec 11 := 0
  /-- R445 entries whose ON actions have turned to OFF; reset 0. -/
  spdOff : BitVec 11 := 0
  /-- R471 LATCHED; reset 0. -/
  latched : BitVec 11 := 0
  /-- R471 FIRST_SRC; reset 15. -/
  firstSrc : Nat := 15
  /-- R471 FIRST_CAUSE; reset 0. -/
  firstCause : Nat := 0
  /-- R447 the last 16 trip stamps, newest first; reset none. -/
  stamps : List Nat := []
  /-- R448 n of the trip of FIRST_SRC; reset 0. -/
  n : Nat := 0
  /-- R443 stamp of the trip of FIRST_SRC; reset none. -/
  firstAt : Option Nat := none
  /-- R447, R472 n of the latest trip; reset 0. -/
  nLast : Nat := 0
  /-- R448 the stamp from which RETRY_WAIT runs, and whether the trip is THERM's; reset none. -/
  wait : Option (Nat × Bool) := none
  deriving DecidableEq, Repr

/-- One NTC reading kept for R464: stamp, T_NTC, broken. -/
structure NtcAt where
  stamp  : Nat
  temp   : Int
  broken : Bool
  deriving DecidableEq, Repr

/-- The power-stage thermal model (R458 to R464); temperatures in 2^-20 K. -/
structure ThermS where
  /-- R469 the parameters as written; reset per R469. -/
  par : Vector Nat 16 := #v[1, 1000, 3435, 1000, 16000, 200, 40, 100, 100, 4800, 10000, 100, 200, 110, 140, 50]
  /-- R469 THERM_PARAM.INDEX; reset 0. -/
  parIdx : Nat := 0
  /-- R461 dt[u], dt[v], dt[w]; reset 0. -/
  dt : Vector Int 3 := Vector.replicate 3 0
  /-- R470 T_NTC; reset 0. -/
  tNtc : Int := 0
  /-- R470 T_EST; reset 0. -/
  tEst : Int := 0
  /-- R470 DERATE; reset 100. -/
  derate : Nat := 100
  /-- R470 HOT_LEG; reset 0. -/
  hotLeg : Nat := 0
  /-- R470 NTC_BROKEN; reset 0. -/
  broken : Bool := false
  /-- R470 RISE; reset 0. -/
  rise : Bool := false
  /-- R470 WARN; reset 0. -/
  warn : Bool := false
  /-- R461 DTIME of the last update; reset none. -/
  last : Option Nat := none
  /-- R461 slots since the last update; reset 0. -/
  slots : Nat := 0
  /-- R461 sums of ix × ix with on_x = 1 since the last update, Q15 squared; reset 0. -/
  sumSq : Vector Nat 3 := Vector.replicate 3 0
  /-- R461 sums of |ix| with mod_x = 1 since the last update, Q15; reset 0. -/
  sumAbs : Vector Nat 3 := Vector.replicate 3 0
  /-- R464 readings of about the last second, newest first; reset none. -/
  hist : List NtcAt := []
  deriving DecidableEq, Repr

/-- Instruction tagging of a channel (R743, R748). -/
structure TagS where
  /-- R748 PERF_CFG; reset 1,024. -/
  cfg : Word := 1024
  /-- R743 instructions until the next tag; reset 0. -/
  left : Nat := 0
  /-- R744 SEQ; reset 0. -/
  seq : Nat := 0
  /-- R744 words 0 to 5 of the latest sample; reset 0. -/
  words : Vector Word 6 := Vector.replicate 6 0
  deriving DecidableEq, Repr

/-- One control channel. -/
structure Chan where
  /-- R131 state, plug, identification. -/
  core : CoreS := {}
  /-- R188 time base. -/
  tb : TbS := {}
  /-- R235 PWM and gate. -/
  pwm : PwmS := {}
  /-- R285 converters and comparators. -/
  adc : AdcS := {}
  /-- R322 position and speed. -/
  pos : PosS := {}
  /-- R366 field control unit. -/
  fcu : FcuS := {}
  /-- R406 loop engine. -/
  nle : NleS := {}
  /-- R465 protection. -/
  prot : ProtS := {}
  /-- R465 thermal model. -/
  therm : ThermS := {}
  /-- R748 performance sampling. -/
  tag : TagS := {}
  deriving DecidableEq, Repr

/-! ### Field position engine (chapters 12, 13) -/

/-- An accepted fix with its derived values (R477, R482): positions in mm, heading in 2^-32 revolution, speed in 2^-16
mm/s, yaw in 2^-32 revolution per second, the epoch and the arrival stamp in ns. -/
structure Fix where
  east    : Int
  north   : Int
  heading : Nat
  speed   : Int
  yaw     : Int
  epoch   : Int
  arrival : Nat
  qual    : Nat
  hitch   : Option Int
  deriving DecidableEq, Repr

/-- One source of fixes (R483, R484). -/
structure SrcS where
  /-- R480 the last accepted fix; reset none. -/
  last : Option Fix := none
  /-- R488 the accepted fix before it; reset none. -/
  prev : Option Fix := none
  /-- R483 the source is fresh; reset 0. -/
  fresh : Bool := false
  /-- R484 consecutive accepted fixes while fresh; reset 0. -/
  run : Nat := 0
  /-- R62, R63 a staleness deadline that has passed before a later fix and is not yet declared, with the arrival of the last fix
in time; reset none. -/
  owed : Option (Nat × Nat) := none
  deriving DecidableEq, Repr

/-- A channel record (R494). -/
structure GeoRec where
  /-- R494 X; reset 0. -/
  x : Int := 0
  /-- R494 Y; reset 0. -/
  y : Int := 0
  /-- R494 WIDTH; reset 0. -/
  width : Nat := 0
  /-- R494 L_ON in ms as it acts; reset 0. -/
  lOn : Nat := 0
  /-- R494 L_OFF in ms as it acts; reset 0. -/
  lOff : Nat := 0
  /-- R494 OVERRIDE as it acts; reset 0. -/
  forced : Nat := 0
  /-- R493, R494 ENABLE; reset 0. -/
  enable : Bool := false
  /-- R494 MARK; reset 0. -/
  mark : Bool := false
  /-- R494 CH_EPOCH; reset 0. -/
  epoch : Nat := 0
  /-- R494 ON_THR as it acts; reset 0. -/
  onThr : Nat := 0
  /-- R494 OFF_THR as it acts; reset 1. -/
  offThr : Nat := 1
  /-- R501 FPE_CH_STALE has been raised since the record was written; reset 0. -/
  told : Bool := false
  deriving DecidableEq, Repr

/-- The implement geometry (R493). -/
structure Impl where
  /-- R493 MODEL: 1 = TRAILED; reset 0. -/
  trailed : Bool := false
  /-- R493 HITCH_X; reset 0. -/
  hx : Int := 0
  /-- R493 HITCH_Y; reset 0. -/
  hy : Int := 0
  /-- R493 TONGUE_L; reset 5,000. -/
  tongue : Nat := 5000
  deriving DecidableEq, Repr

/-- A geometry descriptor that waits for a tick computation (R493). -/
structure GeoWait where
  first : Nat
  recs  : List GeoRec
  impl  : Option Impl
  deriving DecidableEq, Repr

/-- A tool point at a tick with the implement's right unit there (R529): 2^-16 mm, and 2^-32. -/
structure Tip where
  e  : Int
  n  : Int
  re : Int
  rn : Int
  deriving DecidableEq, Repr

/-- What the FPE keeps for a channel between ticks. -/
structure RowS where
  /-- R497 ON at the last tick; reset 0. -/
  on : Bool := false
  /-- R499 APPLYING at the last tick; reset 0. -/
  apply : Bool := false
  /-- R499 ON intervals by tick instant, newest first, the open one without an end; reset none. -/
  hist : List (Nat × Option Nat) := []
  /-- R499 the tool point at the last tick; reset none. -/
  tip : Option Tip := none
  deriving DecidableEq, Repr

/-- One enabled channel in a tick computation (R492 to R498). -/
structure TickRow where
  ch    : ChanId
  on    : Bool
  stop  : Bool
  speed : Int
  tip   : Tip
  deriving DecidableEq, Repr

/-- A tick computation in progress, with its results (R487 to R499). -/
structure TickRun where
  /-- R487 the tick instant. -/
  instant  : Nat
  /-- R506 the next tick instant. -/
  deadline : Nat
  /-- R503 the FPE was running when the computation started. -/
  active   : Bool
  /-- R488, R491 no coverage is marked at this tick. -/
  noMark   : Bool
  /-- R491 JACKKNIFE at this tick. -/
  jack     : Bool
  /-- R485 the pose is valid. -/
  valid    : Bool
  /-- R484 the source in use. -/
  src      : Nat
  /-- R513 QUAL of the fix in use. -/
  qual     : Nat
  /-- R487 the pose: east and north as the registers show them. -/
  east     : Int
  north    : Int
  /-- R509 tractor heading and implement heading. -/
  heading  : Nat
  heading2 : Nat
  /-- R509 reference-point speed. -/
  speed    : Int
  /-- R490 the articulation angle. -/
  gamma    : Int
  /-- R497 the decisions. -/
  rows     : List TickRow
  deriving DecidableEq, Repr

/-- R503 the states of the FPE, in the order of their codes. -/
inductive FpeCode where
  | idle
  | running
  | stopping
  deriving DecidableEq, Repr

/-- R526 the state of a coverage line, with the time of the first mark that made it DIRTY. -/
inductive LineSt where
  | invalid
  | clean
  | dirty (since : Nat)
  deriving DecidableEq, Repr

/-- A coverage line. -/
structure CovLine where
  /-- R526 its state; reset INVALID. -/
  st : LineSt := .invalid
  /-- R522 its bits; reset 0. -/
  bits : BitVec 2048 := 0
  deriving DecidableEq, Repr

/-- What a cached directory entry says (R521). -/
inductive EntrySt where
  | awaited
  | missing
  | present (ofs : Nat)
  deriving DecidableEq, Repr

/-- A cache slot that holds a tile (R526). -/
structure Tile where
  /-- R519 tile column. -/
  col : Nat
  /-- R519 tile row. -/
  row : Nat
  /-- R526 the directory entry. -/
  entry : EntrySt
  /-- R522 the coverage lines. -/
  cov : Vector CovLine 32
  /-- R522 the exclusion lines, none = INVALID. -/
  exc : Vector (Option (BitVec 2048)) 32
  /-- R526 a fetch is outstanding, with its place in the order of requests. -/
  fetch : Option Nat
  /-- R528 the last tick that used the tile. -/
  used : Nat
  /-- R528 the last tick of which the tile held a point. -/
  holds : Nat
  deriving DecidableEq, Repr

/-- A swath of one channel (R529): its two tool points. -/
structure Swath where
  ch : ChanId
  w  : Nat
  p0 : Tip
  p1 : Tip
  deriving DecidableEq, Repr

/-- An entry of the mark queue (R531). -/
structure QSwath where
  col : Nat
  row : Nat
  sw  : Swath
  deriving DecidableEq, Repr

/-- The coverage raster. -/
structure RasterS where
  /-- R547 CTRL.ENABLE; reset 0. -/
  enable : Bool := false
  /-- R547 CTRL.PAUSED with the DTIME at which the PAUSE completed; reset none. -/
  paused : Option Nat := none
  /-- R547 CTRL.FAULT; reset 0. -/
  fault : Bool := false
  /-- R547 CTRL without ENABLE, PAUSED and FAULT; reset 0x0007_03E8. -/
  ctrl : Word := 0x000703E8#32
  /-- R546 WIN_LO; reset DESIGN CHOICE 0 (log 5). -/
  winLo : Word := 0
  /-- R546 WIN_HI; reset DESIGN CHOICE 0 (log 5). -/
  winHi : Word := 0
  /-- R546 WIN_SIZE; reset DESIGN CHOICE 0 (log 5). -/
  winSize : Word := 0
  /-- R546 DIR_DIM; reset 0x0001_0001. -/
  dirDim : Word := 0x00010001#32
  /-- R546 ORIGIN_E; reset DESIGN CHOICE 0 (log 5). -/
  originE : Word := 0
  /-- R546 ORIGIN_N; reset DESIGN CHOICE 0 (log 5). -/
  originN : Word := 0
  /-- R516, R548 CFG_ERR; reset 0. -/
  cfgErr : Nat := 0
  /-- R525, R546 COUNT0.LATE; reset 0. -/
  late : Nat := 0
  /-- R521, R546 COUNT0.DIR_ERR; reset 0. -/
  dirErr : Nat := 0
  /-- R531, R546 COUNT1.SWATH_LOST; reset 0. -/
  swathLost : Nat := 0
  /-- R517, R546 COUNT1 dirty lines discarded; reset 0. -/
  linesLost : Nat := 0
  /-- R524, R546 COUNT2; reset 0. -/
  missCnt : Nat := 0
  /-- R532, R546 WB_LINES; reset 0. -/
  wbLines : Nat := 0
  /-- R526 the tile cache; reset empty. -/
  slots : Vector (Option Tile) 32 := Vector.replicate 32 none
  /-- R528 requests that wait for a slot, oldest first; reset none. -/
  waits : List (Nat × Nat) := []
  /-- R526 number of tile fetches requested so far (the model's own); reset 0. -/
  fetchNo : Nat := 0
  /-- R531 the mark queue, oldest first; reset empty. -/
  queue : List QSwath := []
  deriving DecidableEq, Repr

/-- A position port (R473, R508). -/
structure PosPort where
  /-- R512 PORT_CFG; reset 1,152. -/
  cfg : Word := 1152
  /-- R509 FRAME_ERR of the port; reset 0. -/
  frameErr : Nat := 0
  /-- R509 LB_CNT of the port; reset 0. -/
  lbCnt : Nat := 0
  /-- R508 DTIME of the last built-in frame; reset none. -/
  lbAt : Option Nat := none
  deriving DecidableEq, Repr

/-- The field position engine. -/
structure FpeS where
  /-- R503, R513 STATE; reset IDLE. -/
  state : FpeCode := .idle
  /-- R510 CTRL; reset 0x0303_23E8. -/
  ctrl : Word := 0x030323E8#32
  /-- R511 SRC_CFG; reset 0x1834_C92C. -/
  srcCfg : Word := 0x1834C92C#32
  /-- R512 the position ports; reset EN 0. -/
  ports : Vector PosPort 2 := Vector.replicate 2 {}
  /-- R481, R509 FIX_REJECT; reset 0. -/
  fixReject : Nat := 0
  /-- R506, R509 TICK_LATE; reset 0. -/
  tickLate : Nat := 0
  /-- R506, R513 LATE_RUN; reset 0. -/
  lateRun : Nat := 0
  /-- R483 the sources P0, P1 and HOST; reset no fix. -/
  src : Vector SrcS 3 := Vector.replicate 3 {}
  /-- R485, R513 POSE: 1 = valid; reset 0. -/
  pose : Bool := false
  /-- R484, R513 the active source; reset 3. -/
  active : Nat := 3
  /-- R487, R488 the fix the last tick used, and its source; reset none. -/
  inUse : Option (Nat × Fix) := none
  /-- R493 the implement geometry; reset RIGID. -/
  impl : Impl := {}
  /-- R493 the channel records; reset ENABLE 0. -/
  geo : Vector GeoRec 128 := Vector.replicate 128 {}
  /-- R493 a geometry descriptor waits for a tick computation; reset none. -/
  geoWait : Option GeoWait := none
  /-- R502 channels whose record has lost ENABLE and owe a last delivery; reset none. -/
  owed : List ChanId := []
  /-- R490 the implement heading, 2^-64 revolution; reset none (set at the first tick after RUN). -/
  phiI : Option Nat := none
  /-- R491, R513 JACKKNIFE; reset 0. -/
  jack : Bool := false
  /-- R513 HITCH; reset 0. -/
  gamma : Int := 0
  /-- R509 POSE_E; reset DESIGN CHOICE 0 (log 5). -/
  poseE : Int := 0
  /-- R509 POSE_N; reset DESIGN CHOICE 0 (log 5). -/
  poseN : Int := 0
  /-- R509 POSE_HDG tractor heading; reset DESIGN CHOICE 0 (log 5). -/
  hdg : Nat := 0
  /-- R509 POSE_HDG implement heading; reset DESIGN CHOICE 0 (log 5). -/
  hdgI : Nat := 0
  /-- R509 POSE_SPD; reset DESIGN CHOICE 0 (log 5). -/
  poseSpd : Int := 0
  /-- R513 SRC as of the last completed tick; reset 3. -/
  srcShown : Nat := 3
  /-- R513 QUAL as of the last completed tick; reset 0. -/
  qual : Nat := 0
  /-- R497, R499 what is kept for each channel; reset none. -/
  rows : Vector RowS 128 := Vector.replicate 128 {}
  /-- R487 the last tick instant that was started or skipped; reset 0. -/
  lastTick : Nat := 0
  /-- R506 the tick computation in progress; reset none. -/
  tick : Option TickRun := none
  /-- R506 a tick instant that waits for the computation in progress; reset none. -/
  wait : Option Nat := none
  /-- R504 DTIME of a RUN that waits for its first tick instant; reset none. -/
  runAt : Option Nat := none
  /-- R505 DTIME at which STOPPING was entered; reset 0. -/
  stopAt : Nat := 0
  /-- R505, R514 what ended RUNNING: 0 = FPE_MODE, 1 = halt, 2 = port down; reset 0. -/
  stopCause : Nat := 0
  /-- R515 the coverage raster. -/
  raster : RasterS := {}
  deriving DecidableEq, Repr

/-! ### CAN FD controllers (chapter 14) -/

/-- CAN.STATUS.STATE (R555), in the order of its codes. -/
inductive CanCode where
  | off
  | integrating
  | errorActive
  | errorPassive
  | busOff
  | recovering
  | abdSearch
  | listening
  deriving DecidableEq, Repr

/-- A pending transmission (R564 to R569). -/
structure CanTx where
  frame    : CanFrame
  /-- R566 the ring whose CAN_SEND waits for it. -/
  waiter   : Option SqRef
  /-- R569 a CAN_ABORT has named it. -/
  abort    : Bool
  /-- R585 attempts so far. -/
  attempts : Nat
  /-- R570 SOF stamp of the last attempt. -/
  sof      : Nat
  deriving DecidableEq, Repr

/-- A message object (R557). -/
structure CanObj where
  /-- R584 OBJ_CFG; reset 0. -/
  cfg : Word := 0
  /-- R579 OBJ_ID; reset 0. -/
  id : Word := 0
  /-- R579 OBJ_MASK; reset 0. -/
  mask : Word := 0
  /-- R571, R584 LONELY; reset 0. -/
  lonely : Bool := false
  /-- R563, R584 LOST; reset 0. -/
  lost : Nat := 0
  /-- R567, R584 COUNT; reset 0. -/
  count : Nat := 0
  /-- R565, R584 PENDING: the pending transmission; reset none. -/
  pend : Option CanTx := none
  deriving DecidableEq, Repr

/-- One CAN FD controller. -/
structure CanS where
  /-- R580 CTRL; reset 0x0000_0048. -/
  ctrl : Word := 0x48#32
  /-- R556 the MODE in effect; reset 0. -/
  mode : Nat := 0
  /-- R581 NBT; reset BRP 4, TSEG1 63, TSEG2 16, SJW 16. -/
  nbt : Word := 0x020FC810#32
  /-- R581 DBT; reset DBRP 1, DTSEG1 29, DTSEG2 10, DSJW 10. -/
  dbt : Word := 0x011D0A0A#32
  /-- R555, R582 STATE; reset OFF. -/
  state : CanCode := .off
  /-- R582 TDC_VAL; reset 0. -/
  tdc : Nat := 0
  /-- R559, R582 OBJ_BUSY; reset 0. -/
  objBusy : Bool := false
  /-- R553, R582 CFG_ERR; reset 0. -/
  cfgErr : Bool := false
  /-- R575, R582 ABD_DONE; reset 0. -/
  abdDone : Bool := false
  /-- R575, R582 ABD_RATE; reset 0. -/
  abdRate : Nat := 0
  /-- R571, R582 ACK_RUN; reset 0. -/
  ackRun : Nat := 0
  /-- R582 LAST_ERR; reset 0. -/
  lastErr : Nat := 0
  /-- R571, R582 LONELY; reset 0. -/
  lonely : Bool := false
  /-- R579 TEC; reset 0. -/
  tec : Nat := 0
  /-- R579 REC; reset 0. -/
  rxErr : Nat := 0
  /-- R583 ABD_CFG; reset 0x0002_32FF. -/
  abdCfg : Word := 0x232FF#32
  /-- R574 the candidate under search; reset 0. -/
  abdIdx : Nat := 0
  /-- R575 DTIME at which the candidate's dwell began; reset 0. -/
  abdFrom : Nat := 0
  /-- R575 consecutive frames error-free up to their BRS bit; reset 0. -/
  abdRun : Nat := 0
  /-- R561 the receive ring; reset not enabled. -/
  ring : OutRing := {}
  /-- R563 frames were lost since the last entry; reset 0. -/
  lostFlag : Bool := false
  /-- R579 OBJ_SEL; reset 0. -/
  sel : Fin 128 := 0
  /-- R557 the objects; reset disabled. -/
  objs : Vector CanObj 128 := Vector.replicate 128 {}
  /-- R559 the objects written since the last frame ended: DTIME of the write, the object, and the OBJ_CFG, OBJ_ID and OBJ_MASK
  before it; reset none. -/
  past : List (Nat × Fin 128 × Word × Word × Word) := []
  /-- R567, R584 ON_BUS: the object whose frame is on the bus; reset none. -/
  onBus : Option (Fin 128) := none
  /-- R86, R577 the object whose frame is on the bus is from before a chameleon change: it is disabled when its frame has
ended; reset 0. -/
  leaving : Bool := false
  /-- R569 a CAN_ABORT waits: objects aborted so far; reset none. -/
  aborting : Option Nat := none
  /-- R563, R579 COUNT0.RX_LOST; reset 0. -/
  rxLost : Nat := 0
  /-- R558, R579 COUNT0.RX_NOMATCH; reset 0. -/
  noMatch : Nat := 0
  /-- R579 COUNT1 protocol errors; reset 0. -/
  errors : Nat := 0
  /-- R573, R579 COUNT1.BUS_OFF; reset 0. -/
  busOffs : Nat := 0
  deriving DecidableEq, Repr

/-! ### Safety executive (chapter 15) -/

/-- SE_STATUS.STATE (R619), in the order of its codes. -/
inductive SeCode where
  | init
  | run
  | restart
  | halted
  | debug
  | split
  deriving DecidableEq, Repr

/-- The header of the accepted image (R587), as the program fields the SE keeps. -/
structure SeImg where
  /-- R587 PROG_ID; reset 0. -/
  progId : Nat := 0
  /-- R587 DEBUG_EN; reset 0. -/
  debugEn : Bool := false
  /-- R587 CYCLE_US; reset 0. -/
  cycleUs : Nat := 0
  /-- R587 BUDGET in ns; reset 0. -/
  budget : Nat := 0
  /-- R587 ENTRY; reset 0. -/
  entry : Nat := 0
  /-- R587 ENTRY_Y; reset 0. -/
  entryY : Nat := 0
  /-- R590, R609 the initial PSM words; reset none. -/
  psm : List Half := []
  deriving DecidableEq, Repr

/-- The kind and target of an output (R600). -/
inductive SeKind where
  | word (addr : Nat)
  | pair (q : Nat)
  | pst (slot : Nat)
  | chkpt (id n : Nat)
  deriving DecidableEq, Repr

/-- One entry of the output delay buffer (R599): one value word. -/
structure SeOut where
  kind  : SeKind
  value : Half
  deriving DecidableEq, Repr

/-- A frame that a run queues (R646). -/
structure SeFrame where
  slot : Nat
  vals : List Half
  deriving DecidableEq, Repr

/-- What one instance has issued in its run. -/
structure SeIssued where
  /-- R599 outputs in program order, newest first; reset none. -/
  outs : List SeOut := []
  /-- R604 output words last written in this run; reset none. -/
  words : List (Nat × Half) := []
  /-- R601 outputs issued (an output may have several value words); reset 0. -/
  issued : Nat := 0
  /-- R602 SIOW demands of this run, by pair; reset none. -/
  pairs : List (Nat × Half) := []
  /-- R646 PSTS frames of this run, by slot; reset none. -/
  frames : List SeFrame := []
  deriving DecidableEq, Repr

/-- A run of the SE in progress (R591): which instance, its start of cycle, what A and B have issued. -/
structure SeRun where
  /-- R591 1 = B or Y executes. -/
  second   : Bool
  /-- R591 DTIME of the cycle start. -/
  start    : Nat
  /-- R601 instructions executed by A (or X). -/
  countA   : Nat
  /-- R601 instructions executed by B (or Y). -/
  countB   : Nat
  /-- R599 what A (or X) issued. -/
  a        : SeIssued
  /-- R600 what B (or Y) issued. -/
  b        : SeIssued
  /-- R600 A's entries that B has not yet met, in program order. -/
  left     : List SeOut
  /-- R614 split mode: X's run was abandoned. -/
  xStopped : Bool
  /-- R62, R592 the stamp of an END after the deadline, while the late cycle is not yet declared; none before. -/
  overAt   : Option Nat := none
  deriving DecidableEq, Repr

/-- A debugger write logged with A's instruction count (R616). -/
structure DbgWrite where
  count  : Nat
  target : DbgTarget
  value  : Nat
  deriving DecidableEq, Repr

/-- The receive side of one PST slot as the input latch took it (R593, R645). -/
structure PstLatch where
  /-- R645 receive status word; reset 0. -/
  status : Half := 0
  /-- R645 payload words; reset none. -/
  vals : List Half := []
  deriving DecidableEq, Repr

/-- The safety executive. -/
structure SeS where
  /-- R619 STATE; reset INIT. -/
  state : SeCode := .init
  /-- R588, R619 IMG_ERR; reset 0. -/
  imgErr : Nat := 0
  /-- R619 Y_STOP; reset 0. -/
  yStop : Bool := false
  /-- R619 X_STOP; reset 0. -/
  xStop : Bool := false
  /-- R608, R619 LOCKOUT; reset 0. -/
  lockout : Bool := false
  /-- R587 the image in use; reset none. -/
  img : SeImg := {}
  /-- R587, R618 STO_ASC_SPEED in 0.1 Hz; reset 0. -/
  stoSpeed : Nat := 0
  /-- R586 the control store; reset 0. -/
  store : Cells 32 := []
  /-- R586 the PSM; reset 0. -/
  psm : Cells 16 := []
  /-- R591, R596 registers of A or X; reset 0. -/
  regsA : RegsS := {}
  /-- R591, R596 registers of B or Y; reset 0. -/
  regsB : RegsS := {}
  /-- R609 the restart test has passed: RUN at the next cycle start; reset 0. -/
  tested : Bool := false
  /-- R707 step 5: an accepted image waits for its first cycle start; reset 0. -/
  armed : Bool := false
  /-- R604 FIRST of the next cycle; reset 0. -/
  first : Bool := false
  /-- R604 FIRST of the present cycle; reset 0. -/
  firstNow : Bool := false
  /-- R604, R618 cycles since start; reset 0. -/
  cycle : Nat := 0
  /-- R591 the cycle in progress; reset none. -/
  run : Option SeRun := none
  /-- R593 the input delay buffer, by I/O address; reset none. -/
  latch : Cells 16 := []
  /-- R593 the safety input state words as latched; reset 0. -/
  latchSi : Vector Half 24 := Vector.replicate 24 0
  /-- R593 the PST slots as latched; reset 0. -/
  latchPst : Vector PstLatch 16 := Vector.replicate 16 {}
  /-- R602 the released output words, by I/O address; reset 0. -/
  released : Cells 16 := []
  /-- R602, R611 STO_REQ as released from B, the second line; reset 0. -/
  stoB : BitVec 128 := 0
  /-- R618 SE_SLACK: slack of the last cycle, ns; reset 0. -/
  lastSlack : Int := 0
  /-- R618 slacks of the last 1 s with their stamps, newest first; reset none. -/
  slacks : List (Nat × Int) := []
  /-- R620 CLASS; reset 0. -/
  fClass : Nat := 0
  /-- R620 CAUSE; reset 0. -/
  fCause : Nat := 0
  /-- R620 INSTANCE; reset 0. -/
  fInst : Bool := false
  /-- R620 WHERE; reset 0. -/
  fWhere : Nat := 0
  /-- R618 SE_FAULT_CNT; reset 0. -/
  faults : Nat := 0
  /-- R610, R654 stamps of the last faults, newest first, at most 3; reset none. -/
  faultAt : List Nat := []
  /-- R615 a debugger is attached; reset 0. -/
  attached : Bool := false
  /-- R615 instance A is halted; reset 0. -/
  dbgHalt : Bool := false
  /-- R615 the instruction at a breakpoint may execute: the debugger has resumed or stepped; reset 0. -/
  dbgPass : Bool := false
  /-- R615 the breakpoints; reset none. -/
  breaks : Vector (Option Nat) 8 := Vector.replicate 8 none
  /-- R616 writes of this cycle that B has not replayed, oldest first; reset none. -/
  dbgLog : List DbgWrite := []
  /-- R616 writes made while B runs, for the next cycle; reset none. -/
  dbgNext : List DbgWrite := []
  /-- R616 writes logged in this cycle; reset 0. -/
  dbgCount : Nat := 0
  /-- R616 the refusal has been reported in this cycle; reset 0. -/
  dbgFull : Bool := false
  deriving DecidableEq, Repr

/-! ### Safety inputs and outputs, safe transfer, operator ports (chapter 16) -/

/-- One safety input pair. -/
structure SiS where
  /-- R626, R624 SI_CFG in force; reset 0. -/
  cfg : Half := 0
  /-- R634 A; reset 0. -/
  a : Bool := false
  /-- R634 B; reset 0. -/
  b : Bool := false
  /-- R627 a level of SIp_A has been qualified since the pair left OFF; reset 0. -/
  seenA : Bool := false
  /-- R627 a level of SIp_B has been qualified since the pair left OFF; reset 0. -/
  seenB : Bool := false
  /-- R634 SAFE; reset 0. -/
  safe : Bool := false
  /-- R634 STARTUP; reset 0. -/
  startup : Bool := false
  /-- R634 TEST_FAULT; reset 0. -/
  testFault : Bool := false
  /-- R634 DISC_FAULT; reset 0. -/
  discFault : Bool := false
  /-- R631, R634 DISC_RUN with its deadline stamp; reset none. -/
  disc : Option Nat := none
  /-- R630 the last discrepancy was resolved within DISC_T; reset 1. -/
  inTime : Bool := true
  /-- R632 the unsafe combination has been qualified since a fault was last set; reset 0. -/
  sawUnsafe : Bool := false
  /-- R633 the unsafe combination has been qualified since STARTUP was set; reset 0. -/
  startUnsafe : Bool := false
  deriving DecidableEq, Repr

/-- One safety output pair. -/
structure SoS where
  /-- R635, R624 SO_CFG word 0 in force; reset 0. -/
  cfg : Half := 0
  /-- R635 OP_PER in force; reset 0. -/
  per : Half := 0
  /-- R602, R636 the released demand; reset 0. -/
  demand : Bool := false
  /-- R636 the applied demand; reset 0. -/
  on : Bool := false
  /-- R636, R637 DTIME of the last change of the applied demand; reset 0. -/
  since : Nat := 0
  /-- R638 OUT_FAULT; reset 0. -/
  fault : Bool := false
  /-- R638 CAUSE; reset 0. -/
  cause : Nat := 0
  /-- R637, R638 the off-pulse in progress: switch (1 = low side) and start; reset none. -/
  pulse : Option (Bool × Nat) := none
  /-- R637 the last off-pulse: switch (1 = low side) and end; reset none. -/
  pulsed : Option (Bool × Nat) := none
  /-- R638 RA; reset 0. -/
  ra : Bool := false
  /-- R638 RB; reset 0. -/
  rb : Bool := false
  deriving DecidableEq, Repr

/-- R643, R645 the states of a PST slot, in the order of their codes. -/
inductive PstCode where
  | off
  | resync
  | ok
  deriving DecidableEq, Repr

/-- One PST slot. -/
structure PstS where
  /-- R641, R624 the configuration words in force; reset 0. -/
  cfg : Vector Half 8 := Vector.replicate 8 0
  /-- R643 STATE; reset OFF. -/
  state : PstCode := .off
  /-- R643 COUNT; reset 0. -/
  count : Nat := 0
  /-- R642 SEQ of the last accepted frame; reset 0. -/
  seq : Nat := 0
  /-- R642 STAMP of the last accepted frame; reset 0. -/
  stamp : Nat := 0
  /-- R642 o_ref in 10^-9 µs; reset 0. -/
  oRef : Int := 0
  /-- R642 arrival stamp of the last accepted frame, ns; reset 0. -/
  arrival : Nat := 0
  /-- R643 watchdog deadline; reset none. -/
  deadline : Option Nat := none
  /-- R62, R63 frames that arrived after the deadline while its expiry is not yet declared, oldest first, with their arrival
stamps; reset none. -/
  late : List (List Byte × Nat) := []
  /-- R645 the last accepted payload; reset none. -/
  payload : List Byte := []
  /-- R645 DISC since the previous latch; reset 0. -/
  disc : Bool := false
  /-- R645 TIMEOUT since the previous latch; reset 0. -/
  timeout : Bool := false
  /-- R645 TIME_FAULT since the previous latch; reset 0. -/
  timeFault : Bool := false
  /-- R645 SEQ_FAULT since the previous latch; reset 0. -/
  seqFault : Bool := false
  /-- R645 NEW since the previous latch; reset 0. -/
  new : Bool := false
  /-- R653 arrival stamp of the first frame of the RESET = 1 interval; reset none. -/
  resetFrom : Option Nat := none
  /-- R655 PST_CNT frames accepted; reset 0. -/
  accepted : Nat := 0
  /-- R655 PST_CNT frames discarded; reset 0. -/
  discarded : Nat := 0
  /-- R646, R655 SEQ of the last produced frame; reset 0. -/
  txSeq : Nat := 0
  /-- R655 length of the last produced frame; reset 0. -/
  txLen : Nat := 0
  /-- R655 unsent frames; reset 0. -/
  unsent : Nat := 0
  /-- R646, R655 PST_TX, the last frame produced for the rings; reset none. -/
  txFrame : List Byte := []
  deriving DecidableEq, Repr

/-- One operator port. -/
structure KeyS where
  /-- R648, R624 KEY_CFG in force; reset 0. -/
  cfg : Half := 0
  /-- R651 PRESSED, with the stamp of the press; reset none. -/
  press : Option Nat := none
  /-- R651 HELD; reset 0. -/
  held : Bool := false
  /-- R649, R650 FAULT; reset 0. -/
  fault : Bool := false
  /-- R650 the first counts after configuration, newest first; reset none. -/
  early : List Nat := []
  /-- R650 the baseline, in eighths of a count; reset none. -/
  base : Option Nat := none
  /-- R650 consecutive counts beyond the limit of the next change; reset 0. -/
  run : Nat := 0
  /-- R650 DTIME of the last movement of the baseline; reset 0. -/
  moved : Nat := 0
  /-- R649, R650 DTIME before which the next drive pulse or measurement does not come; reset 0. -/
  due : Nat := 0
  deriving DecidableEq, Repr

/-- A reset request that waits for the next cycle start (R654): source, stamp, duration in ms. -/
structure ResetReq where
  source : Nat
  stamp  : Nat
  ms     : Nat
  deriving DecidableEq, Repr

/-- The functions of chapter 16. -/
structure SafeIoS where
  /-- R624, R655 a configuration release has happened since main power-up; reset 0. -/
  configured : Bool := false
  /-- R623 SI_GLOB TP_W in force; reset 0. -/
  tpW : Nat := 0
  /-- R626 the input pairs; reset OFF. -/
  si : Vector SiS 24 := Vector.replicate 24 {}
  /-- R635 the output pairs; reset OFF. -/
  so : Vector SoS 8 := Vector.replicate 8 {}
  /-- R641 the PST slots; reset OFF. -/
  pst : Vector PstS 16 := Vector.replicate 16 {}
  /-- R648 the operator ports; reset OFF. -/
  keys : Vector KeyS 6 := Vector.replicate 6 {}
  /-- R654 reset requests not yet judged, oldest first; reset none. -/
  requests : List ResetReq := []
  /-- R655 RESET_CNT resets applied; reset 0. -/
  resets : Nat := 0
  /-- R655 RESET_CNT requests ignored or refused; reset 0. -/
  refused : Nat := 0
  deriving DecidableEq, Repr

/-! ### The device -/

/-- The whole device. -/
structure State where
  /-- R89 the commands that are waiting, first in, first out (the model's own); reset none. -/
  pending : List Instr := []
  /-- R46 DTIME in ns; reset 0. -/
  dtime : Nat := 0
  /-- R55 the time unit. -/
  time : TimeS := {}
  /-- R721 the DEV block and the start sequencer. -/
  dev : DevS := {}
  /-- R69 the four host ports. -/
  ports : Vector PortS 4 := Vector.replicate 4 {}
  /-- R89 number of descriptors fetched so far, which orders their execution (the model's own); reset 0. -/
  fetchSeq : Nat := 0
  /-- R77 the unit table: channels 0 to 127, CAN controllers 128 to 143, the FPE 144. -/
  units : Vector UnitS 145 := Vector.replicate 145 {}
  /-- R777 counts of the events raised once a second; reset none. -/
  limits : List Limiter := []
  /-- R8 the 128 channels. -/
  chans : Vector Chan 128 := Vector.replicate 128 {}
  /-- R509 the field position engine and the raster. -/
  fpe : FpeS := {}
  /-- R579 the CAN FD controllers. -/
  can : Vector CanS 16 := Vector.replicate 16 {}
  /-- R618 the safety executive. -/
  se : SeS := {}
  /-- R655 safety inputs and outputs, safe transfer, operator ports. -/
  io : SafeIoS := {}
  /-- R677 the recorder. -/
  recorder : RecS := {}
  /-- R677 the storage ports. -/
  stor : StorS := {}
  /-- R698 housekeeping. -/
  hk : HkS := {}
  /-- R698 the supply controller and SUPPLY. -/
  sup : SupS := {}
  /-- R694 the always-on domain. -/
  aon : AonS := {}
  /-- R746 PERF and TEST. -/
  perf : PerfS := {}
  /-- R736 the test access port. -/
  jtag : JtagS := {}
  /-- R109 what the device has written to the hosts, oldest first (the model's own); reset none. -/
  outbox : List Out := []
  /-- R13, R14 the value of the last register read that a command stands for (the model's own); reset 0. -/
  lastRead : Word := 0
  /-- Counter of the free values used so far (the model's own, DESIGN CHOICE 0, log 10); reset 0. -/
  freeCtr : Nat := 0
  deriving DecidableEq, Repr

/-- The device before its first start: main supply off, every register at its reset value, no command waiting. -/
def State.reset : State := {}

end Sys2Proof.Machine
end

