-- ==== Sys2Proof/Machine/Ops.lean ====
section
/-! DEFINITION. Shared operations: bit fields and roundings, sparse memories, event fields, and the plain updates of the
device state that every command is written over. -/
namespace Sys2Proof.Machine

/-- The outcome of a command. -/
abbrev Result := Host.Outcome State Fault Refusal

/-! ### Bit fields and numbers -/

/-- Bits [hi:lo] of a register as a number. -/
def fld (w : Word) (hi lo : Nat) : Nat := (w.toNat >>> lo) % 2 ^ (hi + 1 - lo)

/-- Bit i of a register. -/
def bitOf (w : Word) (i : Nat) : Bool := w.getLsbD i

/-- A register built of fields: (lowest bit, width, value). -/
def pack (fs : List (Nat × Nat × Nat)) : Word :=
  fs.foldl (fun w f => w ||| (BitVec.ofNat 32 (f.2.2 % 2 ^ f.2.1) <<< f.1)) 0

/-- A number as one bit. -/
def b2n (b : Bool) : Nat := if b then 1 else 0

/-- The bits of `new` under `mask`, those of `old` elsewhere. -/
def merge (old new mask : Word) : Word := (old &&& ~~~mask) ||| (new &&& mask)

/-- The low `w` bits of a signed value. -/
def signedBits (w : Nat) (x : Int) : Nat := (BitVec.ofInt w x).toNat

/-- A field of width `w` read as two's complement. -/
def toSigned (w : Nat) (x : Nat) : Int := (BitVec.ofNat w x).toInt

/-- A counter that stops at `top`. -/
def satInc (top x : Nat) : Nat := min (x + 1) top

/-- R773 `0 acts as 1`. -/
def atLeast1 (x : Nat) : Nat := max x 1

/-- A value held between two limits. -/
def clampNat (lo hi x : Nat) : Nat := min (max x lo) hi

/-- A signed value held between two limits. -/
def clampInt (lo hi x : Int) : Int := min (max x lo) hi

/-- R413 sat16. -/
def sat16 (x : Int) : Int := clampInt (-32768) 32767 x

/-- R255 rnd: the quotient `a / b` rounded half away from zero, for b > 0. -/
def rndDiv (a : Int) (b : Nat) : Int :=
  if 0 ≤ a then (2 * a + b) / (2 * b) else -((2 * (-a) + b) / (2 * b))

/-- R413 shr_t: an arithmetic right shift. -/
def shrT (x : Int) (k : Nat) : Int := x / (2 ^ k : Int)

/-- R413 shr_r: a right shift rounded half away from zero. -/
def shrR (x : Int) (k : Nat) : Int := rndDiv x (2 ^ k)

/-- An integer square root, bit by bit: the greatest r with r * r ≤ n, for n < 4 ^ bits. -/
def isqrtAux : Nat → Nat → Nat → Nat
  | 0, _, r => r
  | b + 1, n, r => if (r + 2 ^ b) * (r + 2 ^ b) ≤ n then isqrtAux b n (r + 2 ^ b) else isqrtAux b n r

/-- The integer square root of a number below 2^128. -/
def isqrt (n : Nat) : Nat := isqrtAux 64 n 0

/-! ### Sparse memories -/

/-- The value at an address, `d` where none is listed. -/
def Cells.get {w : Nat} (d : BitVec w) : Cells w → Nat → BitVec w
  | [], _ => d
  | (a, v) :: rest, k => if a = k then v else if k < a then d else Cells.get d rest k

/-- A write that keeps the canonical form: the value `d` takes the entry out. -/
def Cells.set {w : Nat} (d : BitVec w) : Cells w → Nat → BitVec w → Cells w
  | [], k, v => if v = d then [] else [(k, v)]
  | (a, x) :: rest, k, v =>
    if a = k then (if v = d then rest else (k, v) :: rest)
    else if k < a then (if v = d then (a, x) :: rest else (k, v) :: (a, x) :: rest)
    else (a, x) :: Cells.set d rest k v

/-- Writes at consecutive addresses. -/
def Cells.setAll {w : Nat} (d : BitVec w) (m : Cells w) (k : Nat) : List (BitVec w) → Cells w
  | [] => m
  | v :: vs => Cells.setAll d (Cells.set d m k v) (k + 1) vs

/-- The canonical memory that holds `vs` from address `k` on. -/
def Cells.ofList {w : Nat} (d : BitVec w) (k : Nat) : List (BitVec w) → Cells w
  | [] => []
  | v :: vs => if v = d then Cells.ofList d (k + 1) vs else (k, v) :: Cells.ofList d (k + 1) vs

/-- Every address lies above `lo`, they rise, and no entry holds `d`. -/
def Cells.above {w : Nat} (d : BitVec w) (lo : Nat) : Cells w → Bool
  | [] => true
  | (a, v) :: rest => decide (lo ≤ a) && decide (v ≠ d) && Cells.above d (a + 1) rest

/-- The canonical form of a sparse memory whose unlisted cells read `d`. -/
def Cells.wf {w : Nat} (d : BitVec w) (m : Cells w) : Bool := Cells.above d 0 m

/-- Entries of lists kept sorted by number: the entry at `k`. -/
def slotGet {α : Type} (m : List (Nat × α)) (k : Nat) : Option α := (m.find? (fun p => p.1 == k)).map (·.2)

/-- Entries of lists kept sorted by number: the entry at `k` replaced or taken out. -/
def slotSet {α : Type} (k : Nat) (v : Option α) : List (Nat × α) → List (Nat × α)
  | [] => match v with
    | some x => [(k, x)]
    | none => []
  | (a, x) :: rest =>
    if a = k then (match v with
      | some y => (k, y) :: rest
      | none => rest)
    else if k < a then (match v with
      | some y => (k, y) :: (a, x) :: rest
      | none => (a, x) :: rest)
    else (a, x) :: slotSet k v rest

/-! ### Bytes -/

/-- The `n` low bytes of a number, least significant first. -/
def leBytes : Nat → Nat → List Byte
  | 0, _ => []
  | n + 1, x => BitVec.ofNat 8 x :: leBytes n (x / 256)

/-- A little-endian number. -/
def ofBytes : List Byte → Nat
  | [] => 0
  | b :: bs => b.toNat + 256 * ofBytes bs

/-- 16-bit words of a byte list, little-endian. -/
def halves : List Byte → List Half
  | a :: b :: rest => BitVec.ofNat 16 (a.toNat + 256 * b.toNat) :: halves rest
  | _ => []

/-- 32-bit words of a byte list, little-endian. -/
def words : List Byte → List Word
  | a :: b :: c :: d :: rest => BitVec.ofNat 32 (ofBytes [a, b, c, d]) :: words rest
  | _ => []

/-- One step of CRC-32C for one bit (R658, reflected). -/
def crcBit (c : Nat) : Nat := if c % 2 = 1 then (c / 2) ^^^ 0x82F63B78 else c / 2

/-- CRC-32C over one more byte. -/
def crcByte (c : Nat) (b : Byte) : Nat :=
  crcBit (crcBit (crcBit (crcBit (crcBit (crcBit (crcBit (crcBit (c ^^^ b.toNat))))))))

/-- R658 CRC-32C: reflected, initial value and final XOR 0xFFFF_FFFF. -/
def crc32c (bs : List Byte) : Nat := (bs.foldl crcByte 0xFFFFFFFF) ^^^ 0xFFFFFFFF

end Sys2Proof.Machine

namespace Sys2Proof

/-! ### Descriptors (R105) -/

/-- Byte `i` of PARAM, numbered as R105 numbers it (24 to 63). -/
def Desc.byte (d : Desc) (i : Nat) : Nat := (d.param.getD (i - 24) 0).toNat

/-- The little-endian number of `n` bytes at byte `i` of PARAM. -/
def Desc.num (d : Desc) (i n : Nat) : Nat := Machine.ofBytes ((d.param.drop (i - 24)).take n)

/-- The little-endian number of `n` bytes at byte `i` of a ring entry. -/
def RingEntry.num (e : RingEntry) (i n : Nat) : Nat := Machine.ofBytes ((e.toList.drop i).take n)

/-- R105, R106 the descriptor that the 64 bytes of an entry hold; bytes 10 and 11 are reserved and ignored. -/
def Desc.ofEntry (e : RingEntry) : Desc :=
  { opcode := e.num 0 1, flags := e.num 1 1, unit := e.num 2 2, epoch := e.num 4 2, length := e.num 6 2, cid := e.num 8 2,
    waitLimit := e.num 12 4, bufAddr := e.num 16 8, param := e.toList.drop 24 }

/-- R105 the bytes of a descriptor as its host writes them, the reserved ones 0. -/
def Desc.bytes (d : Desc) : List Byte :=
  Machine.leBytes 1 d.opcode ++ Machine.leBytes 1 d.flags ++ Machine.leBytes 2 d.unit ++ Machine.leBytes 2 d.epoch ++
  Machine.leBytes 2 d.length ++ Machine.leBytes 2 d.cid ++ [0, 0] ++ Machine.leBytes 4 d.waitLimit ++
  Machine.leBytes 8 d.bufAddr ++ d.param

/-- R105 FLAGS [0]. -/
def Desc.irqNow (d : Desc) : Bool := d.flags % 2 == 1

end Sys2Proof

namespace Sys2Proof.Machine

/-! ### Events (R108) -/

/-- One byte of an event's DATA. -/
def u8 (off val : Nat) : EvField := { off := off, len := 1, val := val % 256 }
/-- Two bytes of an event's DATA. -/
def u16 (off val : Nat) : EvField := { off := off, len := 2, val := val % 65536 }
/-- Four bytes of an event's DATA. -/
def u32 (off val : Nat) : EvField := { off := off, len := 4, val := val % 4294967296 }
/-- Eight bytes of an event's DATA. -/
def u64 (off val : Nat) : EvField := { off := off, len := 8, val := val % 2 ^ 64 }
/-- Two bytes of a signed value. -/
def i16 (off : Nat) (val : Int) : EvField := u16 off (signedBits 16 val)
/-- Four bytes of a signed value. -/
def i32 (off : Nat) (val : Int) : EvField := u32 off (signedBits 32 val)

/-- DATA from byte `lo` up to byte `hi`, each byte no field names being 0. -/
def dataBytes (fs : List EvField) (lo hi : Nat) : List Byte :=
  (List.range (hi + 1 - lo)).map fun k =>
    match fs.find? (fun f => decide (f.off ≤ lo + k) && decide (lo + k < f.off + f.len)) with
    | some f => BitVec.ofNat 8 (f.val / 256 ^ (lo + k - f.off))
    | none => 0

/-- The 32 bytes of an event entry (R108). -/
def Ev.bytes (e : Ev) (phase recorded : Bool) : List Byte :=
  leBytes 2 e.code ++ leBytes 2 e.unit ++ leBytes 2 e.epoch ++ [BitVec.ofNat 8 (b2n recorded + 128 * b2n phase), 0]
    ++ leBytes 8 e.stamp ++ dataBytes e.data 16 31

/-- The 16 bytes of a completion entry (R107). -/
def Completion.bytes (c : Completion) (phase : Bool) : List Byte :=
  leBytes 2 c.cid ++ leBytes 2 c.sqHead ++ [BitVec.ofNat 8 (c.sqId % 32 + 128 * b2n phase), BitVec.ofNat 8 c.status]
    ++ leBytes 2 c.detail ++ leBytes 4 c.result ++ leBytes 4 c.stamp

/-! ### Time -/

/-- R46, R25: the command happens at DTIME `t`; DTIME never goes back. The counter of free values moves on, so that each
command draws its own. -/
def State.at (s : State) (t : Nat) : State := { s with dtime := max s.dtime t, freeCtr := s.freeCtr + 1 }

/-- R61, R62: a timeout may be declared at DTIME `t` for the deadline stamp `d`. -/
def timedOut (d t : Nat) : Bool := decide (d + 250 ≤ t)

/-- R48: calendar time at DTIME `x`, a 64-bit value. -/
def State.calendar (s : State) (x : Nat) : Nat := (Int.emod ((x : Int) + s.time.calOffset) (2 ^ 64)).toNat

/-! ### Updates by number -/

/-- The port with one port changed. -/
def State.onPort (s : State) (p : PortId) (f : PortS → PortS) : State :=
  { s with ports := s.ports.set p (f s.ports[p]) }

/-- Whether the host ports answer (R127): the device is READY, or begins a shut-down or runs the power-fail path. -/
def State.hostUp (s : State) : Bool :=
  match s.dev.phase with
  | .ready => true
  | .powerFail => true
  | _ => false

/-- The main supply is up. -/
def State.supplied (s : State) : Bool := s.dev.phase != .off

/-- Whether channels, the safety executive and the other units run: the main supply is up, and a power-fail warning is less
than 18 ms old (R719 step 2). -/
def State.powered (s : State) : Bool :=
  s.supplied && !(s.dev.phase == .powerFail && decide (s.dev.warnAt + 18000000 ≤ s.dtime))

/-- Whether a BAR access or a ring of the port can act: the device is up and the port is (R124, R127). -/
def State.portUp (s : State) (p : PortId) : Bool :=
  s.hostUp && (s.ports[p].link == .l0) && !(s.dev.portFail.getLsbD p)

/-- The administrator port (R74). -/
def State.admin (s : State) : PortId := s.dev.admin

/-! ### Units (R75, R77, R128) -/

/-- Index in the unit table of a bindable unit identifier. -/
def unitIndex (u : Nat) : Option (Fin 145) :=
  if h : u < 128 then some ⟨u, by omega⟩
  else if h : 0x100 ≤ u ∧ u < 0x110 then some ⟨u - 0x100 + 128, by omega⟩
  else if u = 0x200 then some ⟨144, by omega⟩
  else none

/-- The unit identifier of a channel. -/
def chUnit (n : ChanId) : Nat := n.val
/-- The unit identifier of a CAN controller. -/
def canUnit (k : CanId) : Nat := 0x100 + k.val
/-- The unit identifier of the FPE. -/
def fpeUnit : Nat := 0x200
/-- The unit identifier of the SE. -/
def seUnit : Nat := 0x300
/-- The unit identifier of the recorder. -/
def recUnit : Nat := 0x400
/-- The unit identifier of housekeeping. -/
def hkUnit : Nat := 0x500
/-- The unit identifier of the device. -/
def devUnit : Nat := 0x700

/-- The unit-table entry of a bindable unit, an unbound one for any other identifier. -/
def State.unitOf (s : State) (u : Nat) : UnitS :=
  match unitIndex u with
  | some i => s.units[i]
  | none => { epoch := 0 }

/-- The owner of a bindable unit. -/
def State.ownerOf (s : State) (u : Nat) : Option PortId := (s.unitOf u).owner

/-- R91: where a bindable unit's events go. -/
def State.eventPort (s : State) (u : Nat) : PortId := (s.ownerOf u).getD s.admin

end Sys2Proof.Machine
end

