-- ==== Sys2Proof/Machine/Events.lean ====
section
/-! DEFINITION. Reporting: admission to the recorder, events, completions and interrupts (chapters 02, 17). -/
namespace Sys2Proof.Machine

/-! ### The recorder's admission (R659 to R662) -/

/-- R659: whether an event's record is privileged. -/
def privileged (code unit : Nat) : Bool :=
  unit == seUnit || (decide (0x7000 ≤ code) && decide (code ≤ 0x7FFF)) ||
  [0x5002, 0x5003, 0x5010, 0x5011, 0x5013].contains code

/-- One token, in the unit the bucket levels are kept in. -/
def oneToken : Nat := 1000000000

/-- R660, R677: depth of a code bucket. -/
def RecS.burst (r : RecS) : Nat := atLeast1 (fld r.limit 25 16)
/-- R660, R677: refill of a code bucket, tokens per second. -/
def RecS.rate (r : RecS) : Nat := atLeast1 (fld r.limit 7 0)

/-- A code bucket's level at DTIME `t`, from its level at `t0`. -/
def RecS.refill (r : RecS) (level t0 t : Nat) : Nat := min (r.burst * oneToken) (level + r.rate * (t - t0))

/-- The level of the bucket of `code` at DTIME `t`. -/
def RecS.level (r : RecS) (code t : Nat) : Nat :=
  match r.buckets.find? (fun b => b.code == code) with
  | some b => r.refill b.level b.stamp t
  | none => r.refill r.spare r.spareAt t

/-- The level of the global bucket at DTIME `t` (R660). -/
def RecS.globalLevel (r : RecS) (t : Nat) : Nat := min (400 * oneToken) (r.global + 200 * (t - r.globalAt))

/-- The bucket of `code` left at a level. -/
def RecS.setLevel (r : RecS) (code t level : Nat) : RecS :=
  { r with buckets := { code := code, level := level, stamp := t } :: r.buckets.filter (fun b => b.code != code) }

/-- One global token taken. -/
def RecS.takeGlobal (r : RecS) (t : Nat) : RecS :=
  { r with global := r.globalLevel t - oneToken, globalAt := t }

/-- R661: one more suppressed record of a code. -/
def RecS.suppress (r : RecS) (code unit t : Nat) : RecS :=
  let others := r.supprs.filter (fun x => x.code != code)
  let mine : Suppr := match r.supprs.find? (fun x => x.code == code) with
    | some x => { x with unit := unit, count := x.count + 1 }
    | none => { code := code, unit := unit, count := 1, first := t }
  let (lo, hi) := others.span (fun x => decide (x.code < code))
  { r with suppr := (r.suppr + 1) % 2 ^ 32, supprs := lo ++ mine :: hi }

/-- R662: one more lost record. -/
def RecS.lose (r : RecS) : RecS := { r with lost := satInc 65535 r.lost, lostSince := r.lostSince + 1 }

/-- A record put at the end of the queue, after GAP when records were lost; lost when the queue is full (R662). -/
def RecS.enqueue (r : RecS) (gap x : Rec) : RecS × Bool :=
  let r := if r.lostSince = 0 ∨ 256 ≤ r.queue.length then r
    else { r with queue := r.queue ++ [gap], lostSince := 0 }
  if 256 ≤ r.queue.length then (r.lose, false) else ({ r with queue := r.queue ++ [x] }, true)

/-- R659: the stamp of a record, and its KIND and CAL_VALID. -/
def State.recOf (s : State) (priv : Bool) (code unit epoch stamp port : Nat) (data : List EvField) : Rec :=
  { code := code, unit := unit, epoch := epoch, kind := priv, calValid := !priv && s.aon.calValid, port := port,
    stamp := if priv then s.aon.optime + 2 ^ 32 * s.aon.pcycle else s.calendar stamp,
    data := data.filter (fun f => decide (f.off < 28)), owes := false, mark := none }

/-- R662: the GAP record that stands for the records lost so far, stamped now. -/
def State.gapNow (s : State) : Rec :=
  { s.recOf false 0x0042 recUnit 0 s.dtime 0 [] with
    data := [u32 20 s.recorder.lostSince], owes := true }

/-- R660, second part of the table: SUPPRESSED, GAP, MARK and STARTED need no code token and take a global one when
present. Answers whether the record entered the queue. -/
def State.queueOwn (s : State) (x : Rec) : State × Bool :=
  if s.recorder.closed then (s, false)
  else if s.recorder.mediaErr == 4 then ({ s with recorder := s.recorder.lose }, false)
  else
    let r := s.recorder
    let present := decide (oneToken ≤ r.globalLevel s.dtime)
    let (r, ok) := r.enqueue s.gapNow { x with owes := !present }
    ({ s with recorder := if ok && present then r.takeGlobal s.dtime else r }, ok)

/-- R660: an event offered to the recorder; answers the device and whether the event was admitted (FLAGS [0]). -/
def State.queueRec (s : State) (x : Rec) : State × Bool :=
  let r := s.recorder
  let t := s.dtime
  let priv := x.kind
  if r.closed || (r.draining && !priv) then (s, false)
  else if r.mediaErr == 4 then ({ s with recorder := r.lose }, false)
  else
    let lvl := r.level x.code t
    let present := decide (oneToken ≤ r.globalLevel t)
    if lvl < oneToken ∨ (!priv && !present) = true then
      ({ s with recorder := r.suppress x.code x.unit t }, false)
    else
      let (r, ok) := (r.setLevel x.code t (lvl - oneToken)).enqueue s.gapNow { x with owes := !present }
      ({ s with recorder := if present then r.takeGlobal t else r }, ok)

/-! ### Rings that the device writes (R99 to R102, R119) -/

/-- R92 SIZE_K as a number of entries. -/
def ringSize (cfg : Word) : Nat := 2 ^ fld cfg 4 0

/-- R69, R96: a host address given by its two halves. -/
def hostAddr (lo hi : Word) : Nat := hi.toNat * 2 ^ 32 + lo.toNat

/-- The host address of the ring's base. -/
def OutRing.base (r : OutRing) : Nat := hostAddr r.baseLo r.baseHi

/-- R96: the host address of the entry written next, for entries of `size` bytes. -/
def OutRing.slotAddr (r : OutRing) (size : Nat) : Nat := r.base + size * r.tail

/-- R100: the ring has a free entry. -/
def OutRing.hasSpace (r : OutRing) : Bool := decide ((r.tail + 1) % ringSize r.cfg ≠ r.head)

/-- Whether the device may write to the ring (R102, R122). -/
def OutRing.usable (r : OutRing) : Bool := r.enabled && !r.faulted

/-- One entry written: the tail moves on and the phase turns at the wrap (R99). -/
def OutRing.push (r : OutRing) (t : Nat) (irqNow : Bool) : OutRing :=
  { r with
    tail := (r.tail + 1) % ringSize r.cfg
    phase := if r.tail + 1 = ringSize r.cfg then !r.phase else r.phase
    marks := r.marks ++ [{ stamp := t, irqNow := irqNow, signalled := false }] }

/-- Entries written and not yet signalled (R119). -/
def OutRing.unsignalled (r : OutRing) : List Mark := r.marks.filter (fun m => !m.signalled)

/-- R119: the condition for sending the ring's vector at DTIME `t`. -/
def OutRing.wantsIrq (r : OutRing) (t : Nat) : Bool :=
  let us := r.unsignalled
  r.enabled && bitOf r.cfg 15 && r.irqReady && !us.isEmpty &&
  (decide (atLeast1 (fld r.coal 7 0) ≤ us.length) || us.any (·.irqNow) ||
   us.head?.any (fun m => decide (m.stamp + fld r.coal 31 16 * 1000 ≤ t)))

/-- The ring after its interrupt. -/
def OutRing.signal (r : OutRing) : OutRing :=
  { r with irqReady := false, marks := r.marks.map (fun m => { m with signalled := true }) }

/-- R741: a counter of a port moved on by `k`. -/
def wrap48 (x k : Nat) : Nat := (x + k) % 2 ^ 48

/-- A write of the device to a host, with its payload bytes counted (R739). -/
def State.emit (s : State) (p : PortId) (bytes : Nat) (o : Out) : State :=
  { s.onPort p (fun x => { x with live := { x.live with wrBytes := wrap48 x.live.wrBytes bytes } }) with
    outbox := s.outbox ++ [o] }

/-- R121: a vector is masked, by its table entry or by the function mask. -/
def PortS.masked (x : PortS) (v : Fin 64) : Bool := x.msixMask || bitOf (x.msix[v]).ctrl 0

/-- The vector of a VECTOR field. -/
def vectorNo (v : Nat) : Fin 64 := ⟨v % 64, Nat.mod_lt _ (by decide)⟩

/-- R119, R121: a vector sent, or left pending while it is masked; nothing while MSI-X is not enabled. -/
def State.sendMsix (s : State) (p : PortId) (v : Nat) : State :=
  let vec := vectorNo v
  if !s.ports[p].msixOn then s
  else if s.ports[p].masked vec then s.onPort p (fun x => { x with pba := x.pba ||| (1#64 <<< vec.val) })
  else s.emit p 4 (.msix p vec)

/-- R121: the ring's interrupt has been asked for and not yet served by its head doorbell. -/
def OutRing.asks (r : OutRing) (v : Fin 64) : Bool :=
  r.enabled && bitOf r.cfg 15 && !r.irqReady && vectorNo (fld r.cfg 21 16) == v

/-- R121: the reason of a pending interrupt is gone when no ring of the port that names the vector still asks for it. -/
def State.settlePba (s : State) (p : PortId) (v : Fin 64) : State :=
  let x := s.ports[p]
  if x.cqs.toList.any (·.asks v) || x.eq.asks v || s.can.toList.any (fun c => c.ring.asks v) then s
  else s.onPort p (fun x => { x with pba := x.pba &&& ~~~(1#64 <<< v.val) })

/-- R119: the completion ring's interrupt, sent if its condition holds. -/
def State.irqCq (s : State) (p : PortId) (c : Fin 32) : State :=
  let r := s.ports[p].cqs[c]
  if r.wantsIrq s.dtime then
    (s.onPort p (fun x => { x with cqs := x.cqs.set c r.signal })).sendMsix p (fld r.cfg 21 16)
  else s

/-- R120: the event ring's interrupt, with COAL_N 1 and COAL_T 0. -/
def State.irqEq (s : State) (p : PortId) : State :=
  let r := s.ports[p].eq
  if r.wantsIrq s.dtime then
    (s.onPort p (fun x => { x with eq := r.signal })).sendMsix p (fld r.cfg 21 16)
  else s

/-! ### Events -/

/-- An event written to the event ring of a port that has space. -/
def State.writeEvent (s : State) (p : PortId) (recorded : Bool) (e : Ev) : State :=
  let r := s.ports[p].eq
  ((s.onPort p (fun x => { x with eq := r.push s.dtime false })).emit p 32
    (.event p r.tail (r.slotAddr 32) r.phase recorded e)).irqEq p

/-- R102: an event lost to a port. -/
def State.loseEvent (s : State) (p : PortId) : State :=
  s.onPort p (fun x => { x with evtLost := satInc 65535 x.evtLost, lostSince := satInc 65535 x.lostSince })

/-- R102: the count of lost events is written first once the ring has space. -/
def State.flushLost (s : State) (p : PortId) : State :=
  let x := s.ports[p]
  if x.lostSince ≠ 0 ∧ x.eq.usable ∧ x.eq.hasSpace then
    let e : Ev := { code := 0x6003, unit := devUnit, epoch := 0, stamp := s.dtime, data := [u16 16 x.lostSince] }
    let (s, ok) := s.queueRec (s.recOf false e.code e.unit e.epoch e.stamp 0 e.data)
    (s.onPort p (fun x => { x with lostSince := 0 })).writeEvent p ok e
  else s

/-- R102: an event delivered to one port, or lost to it. -/
def State.deliver (s : State) (recorded : Bool) (e : Ev) (p : PortId) : State :=
  let s := s.flushLost p
  let x := s.ports[p]
  if x.eq.usable ∧ x.eq.hasSpace then s.writeEvent p recorded e else s.loseEvent p

/-- An event offered to the recorder and then delivered to ports. -/
def State.raiseTo (s : State) (ps : List PortId) (e : Ev) : State :=
  let (s, ok) := s.queueRec (s.recOf (privileged e.code e.unit) e.code e.unit e.epoch e.stamp 0 e.data)
  ps.foldl (fun s p => s.deliver ok e p) s

/-- The ports whose event ring is enabled (R58, R697, R726). -/
def State.listening (s : State) : List PortId :=
  (List.finRange 4).filter (fun p => s.ports[p].eq.enabled)

/-- An event of a device-level unit, without epoch, to every port whose event ring is enabled. -/
def State.raiseAll (s : State) (code unit stamp : Nat) (data : List EvField) : State :=
  s.raiseTo s.listening { code := code, unit := unit, epoch := 0, stamp := stamp, data := data }

/-- An event of a device-level unit to one port. -/
def State.raisePort (s : State) (p : PortId) (code unit stamp : Nat) (data : List EvField) : State :=
  s.raiseTo [p] { code := code, unit := unit, epoch := 0, stamp := stamp, data := data }

/-- R91: an event of a bindable unit. -/
def State.raiseUnit (s : State) (code unit stamp : Nat) (data : List EvField) : State :=
  s.raiseTo [s.eventPort unit] { code := code, unit := unit, epoch := (s.unitOf unit).epoch, stamp := stamp, data := data }

/-- The second of DTIME in which an instant lies (R80, R777). -/
def second (t : Nat) : Nat := t / 1000000000

/-- R777: one more occurrence of an event raised once a second. Answers the count to carry when it is to be raised. -/
def limitHit (ls : List Limiter) (unit code t : Nat) : List Limiter × Option Nat :=
  let others := ls.filter (fun l => !(l.unit == unit && l.code == code))
  match ls.find? (fun l => l.unit == unit && l.code == code) with
  | some l =>
    if l.second = second t then
      ({ l with count := satInc 65535 l.count } :: others, none)
    else ({ l with second := second t, count := 0 } :: others, some (satInc 65535 l.count))
  | none => ({ unit := unit, code := code, second := second t, count := 0 } :: others, some 1)

/-- R777: the occurrences of a unit's event counted together, whatever sub-condition `key` limits it. -/
def countOf (ls : List Limiter) (unit code : Nat) : Nat :=
  ((ls.find? (fun l => l.unit == unit && l.code == code)).map (·.count)).getD 0

/-- R777: the count of a unit's event set. -/
def setCount (ls : List Limiter) (unit code k : Nat) : List Limiter :=
  { unit := unit, code := code, second := 0, count := k } :: ls.filter (fun l => !(l.unit == unit && l.code == code))

/-- R777: as `limitHit`, for an event that each sub-condition `key` > 0 may raise once a second: the count is the unit's. -/
def limitHitKey (ls : List Limiter) (unit code key t : Nat) : List Limiter × Option Nat :=
  if key = 0 then limitHit ls unit code t
  else
    let (ls, first) := limitHit ls unit (code + 65536 * key) t
    let n := satInc 65535 (countOf ls unit code)
    if first.isSome then (setCount ls unit code 0, some n) else (setCount ls unit code n, none)

/-- R777: an event raised for the first occurrence of each second, with its count at byte `off` of DATA. -/
def State.raiseLimited (s : State) (code unit off : Nat) (data : List EvField) : State :=
  let (ls, count) := limitHit s.limits unit code s.dtime
  let s := { s with limits := ls }
  match count with
  | some k => s.raiseUnit code unit s.dtime (data ++ [u16 off k])
  | none => s

/-- R66, R96: a read request of the device. -/
def State.request (s : State) (p : PortId) (what : ReadOf) (addr len : Nat) : State :=
  { s with outbox := s.outbox ++ [.read p what addr len] }

/-- The two attributes of a PCIe request that R66 rules. -/
structure Attrs where
  noSnoop : Bool
  relaxed : Bool
  deriving DecidableEq, Repr

/-- R66: the attributes of each request: No Snoop on none, Relaxed Ordering on reads of descriptor buffers only. -/
def Out.attrs (o : Out) : Attrs :=
  match o with
  | .read _ .buffer _ _ => { noSnoop := false, relaxed := true }
  | _ => { noSnoop := false, relaxed := false }

/-- R739: payload bytes that a read of the device brings. -/
def State.countRd (s : State) (p : PortId) (bytes : Nat) : State :=
  s.onPort p fun x => { x with live := { x.live with rdBytes := wrap48 x.live.rdBytes bytes } }

/-! ### Completions (R101, R107) -/

/-- R92 the CQ_ID that a submission ring was created with. -/
def Sq.cqId (q : Sq) : Fin 32 := q.cq

/-- One submission ring changed. -/
def State.onSq (s : State) (q : SqRef) (f : Sq → Sq) : State :=
  s.onPort q.port (fun x => { x with sqs := x.sqs.set q.sq (f x.sqs[q.sq]) })

/-- The submission ring that a reference names. -/
def State.sqAt (s : State) (q : SqRef) : Sq := s.ports[q.port].sqs[q.sq]

/-- R109: a completion written into the completion ring. -/
def State.writeCompletion (s : State) (p : PortId) (c : Fin 32) (x : Completion) : State :=
  let r := s.ports[p].cqs[c]
  ((s.onPort p (fun y => { y with cqs := y.cqs.set c (r.push s.dtime x.irqNow) })).emit p 16
    (.completion p c r.tail (r.slotAddr 16) r.phase x)).irqCq p c

/-- R101, R122: a completion that falls due: written, held behind those already held or while the ring is full, lost
where the ring is faulted or disabled. -/
def State.complete (s : State) (q : SqRef) (x : Completion) : State :=
  let c := (s.sqAt q).cqId
  let r := s.ports[q.port].cqs[c]
  if r.usable = false then s
  else if r.hasSpace && (s.sqAt q).stalled.isEmpty then s.writeCompletion q.port c x
  else (s.onSq q (fun y => { y with stalled := y.stalled ++ [x] })).onPort q.port
    (fun y => { y with holdFrom := some (y.holdFrom.getD s.dtime) })

/-- R739 CQ_HOLD: the counter brought up to now, and whether a completion of the port is still held. -/
def State.settleHold (s : State) (p : PortId) : State :=
  match s.ports[p].holdFrom with
  | none => s
  | some f => s.onPort p fun y =>
    { y with
      live := { y.live with cqHold := wrap48 y.live.cqHold (s.dtime - f) }
      holdFrom := if y.sqs.toList.any (fun q => !q.stalled.isEmpty) then some s.dtime else none }

end Sys2Proof.Machine
end

