-- ==== Sys2Proof/Machine/Descriptors.lean ====
section
/-! DEFINITION. Executing a descriptor: the order of checks, held completions, and how an operation that ends completes
the descriptors that wait for it (R89, R90, R110 to R117). -/
namespace Sys2Proof.Machine

/-- The kind of unit an opcode addresses (R110). -/
inductive UnitKind where
  | any
  | bindable
  | channel
  | fpe
  | can
  | se
  | recorder
  | device
  deriving DecidableEq, Repr

/-- The ports that may issue an opcode (R110). -/
inductive Issuer where
  | anyPort
  | admin
  | owner
  deriving DecidableEq, Repr

/-- A row of the opcode table (R110): unit kind, issuer, least and greatest LENGTH and its step. -/
structure OpRow where
  kind   : UnitKind
  issuer : Issuer
  least  : Nat
  most   : Nat
  step   : Nat
  deriving DecidableEq, Repr

/-- R110. -/
def opRow (op : Nat) : Option OpRow :=
  match op with
  | 0x01 => some ⟨.any, .anyPort, 0, 0, 1⟩
  | 0x02 => some ⟨.bindable, .admin, 0, 0, 1⟩
  | 0x03 => some ⟨.bindable, .admin, 0, 0, 1⟩
  | 0x10 => some ⟨.channel, .owner, 0, 0, 1⟩
  | 0x11 => some ⟨.channel, .owner, 0, 0, 1⟩
  | 0x12 => some ⟨.channel, .owner, 0, 0, 1⟩
  | 0x13 => some ⟨.channel, .owner, 0, 0, 1⟩
  | 0x14 => some ⟨.channel, .owner, 0, 0, 1⟩
  | 0x15 => some ⟨.channel, .owner, 0, 0, 1⟩
  | 0x16 => some ⟨.channel, .owner, 0, 0, 1⟩
  | 0x17 => some ⟨.channel, .owner, 0, 0, 1⟩
  | 0x18 => some ⟨.channel, .owner, 0, 0, 1⟩
  | 0x19 => some ⟨.channel, .owner, 0, 0, 1⟩
  | 0x20 => some ⟨.channel, .owner, 4, 4096, 4⟩
  | 0x21 => some ⟨.channel, .owner, 2, 1024, 2⟩
  | 0x22 => some ⟨.channel, .owner, 2, 1024, 2⟩
  | 0x23 => some ⟨.channel, .owner, 0, 32, 2⟩
  | 0x30 => some ⟨.fpe, .owner, 0, 64, 1⟩
  | 0x31 => some ⟨.fpe, .owner, 32, 4096, 32⟩
  | 0x32 => some ⟨.fpe, .owner, 0, 0, 1⟩
  | 0x33 => some ⟨.fpe, .owner, 0, 0, 1⟩
  | 0x34 => some ⟨.fpe, .owner, 0, 0, 1⟩
  | 0x35 => some ⟨.fpe, .owner, 0, 0, 1⟩
  | 0x40 => some ⟨.can, .owner, 0, 72, 1⟩
  | 0x41 => some ⟨.can, .owner, 0, 0, 1⟩
  | 0x42 => some ⟨.can, .owner, 0, 0, 1⟩
  | 0x50 => some ⟨.se, .anyPort, 12, 64, 1⟩
  | 0x60 => some ⟨.recorder, .anyPort, 32, 65504, 32⟩
  | 0x61 => some ⟨.recorder, .anyPort, 0, 16, 1⟩
  | 0x7E => some ⟨.device, .admin, 0, 0, 1⟩
  | 0x7F => some ⟨.device, .admin, 0, 0, 1⟩
  | _ => none

/-- The kind of an assigned unit identifier; housekeeping and storage are assigned and no opcode addresses them (R112). -/
inductive UnitIs where
  | channel (n : ChanId)
  | can (k : CanId)
  | fpe
  | se
  | recorder
  | other
  | device
  deriving DecidableEq, Repr

/-- The unit an identifier names (R75, R110). -/
def unitIs (u : Nat) : Option UnitIs :=
  if h : u < 128 then some (.channel ⟨u, h⟩)
  else if h : 0x100 ≤ u ∧ u < 0x110 then some (.can ⟨u - 0x100, by omega⟩)
  else if u = 0x200 then some .fpe
  else if u = 0x300 then some .se
  else if u = 0x400 then some .recorder
  else if u = 0x500 ∨ u = 0x600 then some .other
  else if u = 0x700 then some .device
  else none

/-- Whether a unit is of the kind an opcode addresses. -/
def UnitKind.fits (k : UnitKind) (u : UnitIs) : Bool :=
  match k, u with
  | .any, _ => true
  | .bindable, .channel _ => true
  | .bindable, .can _ => true
  | .bindable, .fpe => true
  | .channel, .channel _ => true
  | .fpe, .fpe => true
  | .can, .can _ => true
  | .se, .se => true
  | .recorder, .recorder => true
  | .device, .device => true
  | _, _ => false

/-- The completion statuses of R113 and R114. -/
def stOk : Nat := 0x00
/-- STALE. -/
def stStale : Nat := 0x01
/-- NOT_OWNER. -/
def stNotOwner : Nat := 0x02
/-- BAD_OPCODE. -/
def stBadOpcode : Nat := 0x03
/-- LEN_RANGE. -/
def stLenRange : Nat := 0x04
/-- BAD_STATE. -/
def stBadState : Nat := 0x05
/-- BUSY. -/
def stBusy : Nat := 0x06
/-- ABORTED. -/
def stAborted : Nat := 0x07
/-- DMA_ERROR. -/
def stDma : Nat := 0x08
/-- REJECTED_SAFETY. -/
def stRejected : Nat := 0x09
/-- TIMEOUT. -/
def stTimeout : Nat := 0x0A

/-- A failed check: status and DETAIL. -/
abbrev Fail := Nat × Nat

/-- The first of several checks that fails. -/
def firstFail : List (Option Fail) → Option Fail
  | [] => none
  | some f :: _ => some f
  | none :: fs => firstFail fs

/-- A check that fails with a status and DETAIL when `bad` holds. -/
def failIf (bad : Bool) (status detail : Nat) : Option Fail := if bad then some (status, detail) else none

/-- Checks 1 to 4 of R113. -/
def State.checks1to4 (s : State) (port : PortId) (d : Desc) : Option Fail :=
  match opRow d.opcode with
  | none => some (stBadOpcode, 0)
  | some r =>
    if r.kind = .any then failIf (d.length ≠ 0) stLenRange 0
    else match unitIs d.unit with
      | none => some (stBadOpcode, 1)
      | some u =>
        if !r.kind.fits u then some (stBadOpcode, 2)
        else
          let bindable := (unitIndex d.unit).isSome
          let ownerDetail := if bindable then
              (match s.ownerOf d.unit with
                | some p => p.val
                | none => 0xFFFF)
            else s.admin.val
          firstFail [
            (match r.issuer with
              | .anyPort => none
              | .admin => failIf (s.admin ≠ port) stNotOwner ownerDetail
              | .owner => failIf (s.ownerOf d.unit ≠ some port) stNotOwner ownerDetail),
            failIf (bindable && (s.unitOf d.unit).epoch ≠ d.epoch) stStale (s.unitOf d.unit).epoch,
            failIf (d.length < r.least || r.most < d.length || d.length % r.step ≠ 0) stLenRange r.most]

/-! ### Held completions (R90, R116) -/

/-- The completion of a held descriptor. -/
def Held.completion (h : Held) (q : SqRef) (t status detail result : Nat) : Completion :=
  { cid := h.cid, sqHead := h.sqHead, sqId := q.sq.val, status := status, detail := detail % 65536,
    result := result % 2 ^ 32, stamp := t % 2 ^ 32, irqNow := h.irqNow }

/-- The held descriptor of a ring completes with STAMP `t`, and after it those that ring disable has aborted (R103, R117). -/
def State.finishHeld (s : State) (q : SqRef) (h : Held) (t status detail result : Nat) : State :=
  let cs := h.completion q t status detail result :: (s.sqAt q).behind
  cs.foldl (fun s c => s.complete q c) (s.onSq q (fun y => { y with held := none, behind := [] }))

/-- R60, R64: what a held descriptor waits for, reported now, is in time. -/
def Held.inTime (h : Held) (t : Nat) : Bool := !h.late && h.deadline.all (fun d => decide (t ≤ d))

/-- The held descriptor of one ring completed, if it is one of `ops` addressed to `unit`; after its deadline the wait is
lost and only its TIMEOUT is due (R60, R63). -/
def State.finishAt (s : State) (unit : Nat) (ops : List Nat) (status detail result : Nat) (q : SqRef) : State :=
  match (s.sqAt q).held with
  | some h =>
    if h.unit = unit ∧ ops.contains h.opcode = true then
      if h.inTime s.dtime then s.finishHeld q h s.dtime status detail result
      else s.onSq q (fun y => { y with held := some { h with late := true } })
    else s
  | none => s

/-- Every submission ring of the device, port by port. -/
def allRings : List SqRef :=
  (List.finRange 4).flatMap fun p => (List.finRange 32).map fun q => { port := p, sq := q }

/-- R90, R139: every held descriptor of `ops` for `unit` completes. -/
def State.finish (s : State) (unit : Nat) (ops : List Nat) (status detail result : Nat) : State :=
  allRings.foldl (fun s q => s.finishAt unit ops status detail result q) s

/-- The opcodes whose held completion leaves the unit free for further descriptors (R90). -/
def heldFree : List Nat := [0x10, 0x11, 0x18, 0x40]

/-- R89: a descriptor of `unit` still executes. -/
def State.unitBusy (s : State) (u : Nat) : Bool :=
  allRings.any (fun q => (s.sqAt q).held.any (fun h => h.unit == u && !heldFree.contains h.opcode)) ||
  (match unitIs u with
    | some (.channel n) => s.chans[n].core.lb.isSome || s.chans[n].adc.cmpTest.isSome
    | _ => false)

/-- R101: a completion of some ring that names completion ring `c` is held. -/
def PortS.cqHeld (p : PortS) (c : Fin 32) : Bool := p.sqs.toList.any (fun q => q.cqId == c && !q.stalled.isEmpty)

/-- Whether a ring may execute its next descriptor (R101, R103, R117, R122). -/
def State.runnable (s : State) (q : SqRef) : Bool :=
  let r := s.sqAt q
  s.portUp q.port && s.powered && r.enabled && r.held.isNone &&
  !(s.ports[q.port].cqHeld r.cqId) && (s.ports[q.port].cqs[r.cqId]).usable

/-- R89: a ring that may execute holds a descriptor of the same unit whose fetch completed earlier. A ring that waits for a
completion (R101, R117) holds back no other ring (R90, log 115). -/
def State.earlier (s : State) (u seq : Nat) : Bool :=
  allRings.any fun q => s.runnable q && (s.sqAt q).fetched.any fun f =>
    f.desc.unit == u && decide (f.seq < seq) && f.desc.opcode != 0x01 && (opRow f.desc.opcode).isSome

/-- The descriptor that the next execution on a ring takes, if the ring may execute one (R89, R117). -/
def State.nextDesc (s : State) (q : SqRef) : Option Fetched :=
  match (s.sqAt q).fetched with
  | f :: _ =>
    if s.runnable q && (f.desc.opcode == 0x01 || (opRow f.desc.opcode).isNone ||
        (!s.unitBusy f.desc.unit && !s.earlier f.desc.unit f.seq))
    then some f else none
  | [] => none

/-- How an execution ends: a completion now, or one held until the operation ends, with the opcode's default wait in ns
where it has one. -/
inductive Ending where
  | now (status detail result : Nat)
  | hold (wait : Option Nat)
  deriving DecidableEq, Repr

/-- R107 SQ_HEAD: the index after the descriptor's own entry. -/
def Fetched.sqHead (f : Fetched) (cfg : Word) : Nat := (f.index + 1) % ringSize cfg

/-- R116: the deadline of a wait. -/
def Fetched.deadline (f : Fetched) (dflt : Option Nat) : Option Nat :=
  if f.desc.waitLimit ≠ 0 then some (f.stamp + f.desc.waitLimit * 1000) else dflt.map (f.stamp + ·)

/-- The completion of a descriptor decided at DTIME `t`. -/
def Fetched.completion (f : Fetched) (q : SqRef) (cfg : Word) (t status detail result : Nat) : Completion :=
  { cid := f.desc.cid, sqHead := f.sqHead cfg, sqId := q.sq.val, status := status, detail := detail % 65536,
    result := result % 2 ^ 32, stamp := t % 2 ^ 32, irqNow := f.desc.irqNow }

/-- The descriptor taken off its ring. -/
def State.take (s : State) (q : SqRef) : State := s.onSq q (fun y => { y with fetched := y.fetched.drop 1 })

/-- R739: a descriptor executed, and the payload its buffer read brought. -/
def State.countDesc (s : State) (p : PortId) (bytes : Nat) : State :=
  s.onPort p fun x => { x with live := { x.live with
    desc := wrap48 x.live.desc 1, rdBytes := wrap48 x.live.rdBytes bytes } }

/-- What executing a descriptor does: its further checks (5 to 7 of R113 and the opcode's own, in order), and its effect. -/
structure Exec where
  check : State → PortId → Desc → Option Fail
  run   : State → PortId → Desc → State × Ending

/-- R110: the opcodes whose descriptor has a buffer that the device reads. -/
def readsBuffer (op : Nat) : Bool := [0x20, 0x21, 0x23, 0x30, 0x31, 0x40, 0x50, 0x61].contains op

/-- R66, R115: the read of a descriptor's buffer. -/
def State.readBuf (s : State) (p : PortId) (d : Desc) : State :=
  if readsBuffer d.opcode && decide (0 < d.length) then s.request p .buffer d.bufAddr d.length else s

/-- R113, R90: the ring's next descriptor checked and executed, when it carries opcode `op` or one that is not assigned,
which no command of its own executes (log 118). Nothing but time passes when the ring may not execute, or its next descriptor
carries another opcode. -/
def State.runDesc (s : State) (t : Nat) (q : SqRef) (op : Nat) (bytes : Nat) (x : Exec) : State :=
  let s := s.at t
  match s.nextDesc q with
  | none => s
  | some f =>
    if f.desc.opcode ≠ op ∧ (opRow f.desc.opcode).isSome = true then s
    else
      let cfg := (s.sqAt q).cfg
      let s := s.take q
      match firstFail [s.checks1to4 q.port f.desc, x.check s q.port f.desc] with
      | some (status, detail) => s.complete q (f.completion q cfg s.dtime status detail 0)
      | none =>
        let (s, e) := x.run ((s.countDesc q.port (min bytes f.desc.length)).readBuf q.port f.desc) q.port f.desc
        match e with
        | .now status detail result => s.complete q (f.completion q cfg s.dtime status detail result)
        | .hold wait => s.onSq q fun y => { y with held := some {
            opcode := f.desc.opcode, unit := f.desc.unit, cid := f.desc.cid, sqHead := f.sqHead cfg,
            irqNow := f.desc.irqNow, deadline := f.deadline wait } }

/-- R115: the effect of a descriptor with a buffer to read: nothing is applied when the fetch fails. -/
def withBuf (buf : Buf) (run : List Byte → State → PortId → Desc → State × Ending) :
    State → PortId → Desc → State × Ending :=
  fun s p d => match buf with
    | .arrived bs => run (bs.take d.length) s p d
    | .failed => if d.length = 0 then run [] s p d else (s, .now stDma 1 0)

/-- Payload bytes that a buffer read brings. -/
def bufSize : Buf → Nat
  | .arrived bs => bs.length
  | .failed => 0

/-- R79, R113: a descriptor without further checks. -/
def noCheck : State → PortId → Desc → Option Fail := fun _ _ _ => none

end Sys2Proof.Machine
end

