-- ==== Sys2Proof/Machine/Rings.lean ====
section
/-! DEFINITION. Ring creation and release (R92 to R100, R119), shared by completion rings, event rings and the CAN receive
rings. -/
namespace Sys2Proof.Machine

/-- R93 causes 1 and 2 of a creation error: SIZE and ALIGN. -/
def ringErr (cfg baseLo : Word) : Nat :=
  let k := fld cfg 4 0
  if k < 4 ∨ 16 < k then 1 else if baseLo.toNat % 256 ≠ 0 then 2 else 0

/-- R92 the writable fields of CQ[c].CFG, EQ.CFG and CAN.RXR_CFG besides ENABLE. -/
def outCfgMask : Word := 0x003F801F#32

/-- R92, R94, R95 a write of the ring's CFG; while the ring is enabled only ENABLE takes effect. -/
def OutRing.writeCfg (r : OutRing) (v : Word) : OutRing :=
  if bitOf v 31 then
    if r.enabled then r
    else
      let r := { r with cfg := v &&& outCfgMask }
      let e := ringErr r.cfg r.baseLo
      if e = 0 then { r with
        enabled := true, err := 0, faulted := false, head := 0, tail := 0, phase := true, marks := [], irqReady := true }
      else { r with err := e }
  else if r.enabled then { r with enabled := false, marks := [] }
  else { r with cfg := v &&& outCfgMask }

/-- R92 a read of the ring's CFG. -/
def OutRing.readCfg (r : OutRing) : Word := r.cfg ||| pack [(31, 1, b2n r.enabled), (28, 3, r.err)]

/-- R95 a write of BASE_LO or BASE_HI. -/
def OutRing.writeBase (r : OutRing) (hi : Bool) (v : Word) : OutRing :=
  if r.enabled then r else if hi then { r with baseHi := v } else { r with baseLo := v }

/-- R100, R119 the host releases entries up to `h`; those that remain count as unsignalled again. -/
def OutRing.release (r : OutRing) (h : Nat) : OutRing :=
  let size := ringSize r.cfg
  let gone := (h + size - r.head) % size
  { r with
    head := h
    irqReady := true
    marks := (r.marks.drop gone).map (fun m => { m with signalled := false }) }

/-- R122 a DMA failure on the ring. -/
def OutRing.fault (r : OutRing) : OutRing := { r with err := 5, faulted := true }

end Sys2Proof.Machine
end

