-- ==== Sys2Proof/Machine/Can.lean ====
section
/-! DEFINITION. The CAN FD controllers (chapter 14), at the level of whole frames and errors: modes and states, message
objects, the receive ring, transmission, error confinement, bit-rate detection, registers. -/
namespace Sys2Proof.Machine

/-! ### Updates and fields -/

/-- One controller changed. -/
def State.onCan (s : State) (k : CanId) (f : CanS → CanS) : State := { s with can := s.can.set k (f s.can[k]) }

/-- An event of a controller stamped now. -/
def State.canEvent (s : State) (k : CanId) (code : Nat) (data : List EvField) : State :=
  s.raiseUnit code (canUnit k) s.dtime data

/-- R555 the code of a STATE. -/
def CanCode.num : CanCode → Nat
  | .off => 0
  | .integrating => 1
  | .errorActive => 2
  | .errorPassive => 3
  | .busOff => 4
  | .recovering => 5
  | .abdSearch => 6
  | .listening => 7

/-- R580 MODE of a CTRL value; 4 to 7 act as 0. -/
def modeOf (ctrl : Word) : Nat := if fld ctrl 2 0 < 4 then fld ctrl 2 0 else 0
/-- R580 FD_EN. -/
def CanS.fdEn (c : CanS) : Bool := bitOf c.ctrl 3
/-- R580 LB. -/
def CanS.lb (c : CanS) : Nat := fld c.ctrl 5 4
/-- R581 a field of NBT or DBT as it acts. -/
def timing (w : Word) (hi lo least : Nat) : Nat := max least (fld w hi lo)
/-- R552 a nominal bit in 80 MHz cycles. -/
def CanS.nominalBit (c : CanS) : Nat := timing c.nbt 31 23 1 * (1 + timing c.nbt 22 14 2 + timing c.nbt 13 7 2)
/-- R552 a data-phase bit in 80 MHz cycles. -/
def CanS.dataBit (c : CanS) : Nat := timing c.dbt 28 24 1 * (1 + timing c.dbt 21 16 1 + timing c.dbt 12 8 1)
/-- R552 the sample point of a nominal bit, in cycles from its start. -/
def CanS.nominalSample (c : CanS) : Nat := timing c.nbt 31 23 1 * (1 + timing c.nbt 22 14 2)
/-- R552 the sample point of a data-phase bit. -/
def CanS.dataSample (c : CanS) : Nat := timing c.dbt 28 24 1 * (1 + timing c.dbt 21 16 1)
/-- R581 NBT.SJW as it acts. -/
def CanS.nominalSjw (c : CanS) : Nat := min (timing c.nbt 6 0 1) (timing c.nbt 13 7 2)
/-- R581 DBT.DSJW as it acts. -/
def CanS.dataSjw (c : CanS) : Nat := min (timing c.dbt 4 0 1) (timing c.dbt 12 8 1)
/-- R554 the secondary sample point of a transmitter whose measured delay is `delay`, in cycles. -/
def CanS.secondarySample (c : CanS) (delay : Nat) : Nat :=
  min 127 delay + (if fld c.ctrl 14 8 = 0 then c.dataSample else fld c.ctrl 14 8)
/-- R554 the measured delay of a frame is beyond what can be compensated: the frame ends in a bit error. -/
def CanS.delayBad (c : CanS) (f : CanFrame) (tdc : Option Nat) : Bool :=
  bitOf c.ctrl 6 && f.brs && tdc.any (fun d => decide (127 < d))
/-- R551, R573, R576 Ck_TXD is kept recessive: MODE OFF, LISTEN or ABD, bus-off, or LB1. -/
def CanS.txdQuiet (c : CanS) : Bool := c.mode != 1 || c.state == .busOff || c.state == .recovering || c.lb == 1
/-- R576 the controller hears Ck_RXD: not at LB1 and LB2. -/
def CanS.hears (c : CanS) : Bool := c.lb != 1 && c.lb != 2
/-- R553 a MODE other than OFF is refused. -/
def CanS.refused (c : CanS) : Bool :=
  decide (c.nominalBit < 80) || (c.fdEn && (decide (c.dataBit < 10) || decide (c.nominalBit < c.dataBit)))

/-- R709 the CAN part is out of service. -/
def State.canFailed (s : State) : Bool := s.dev.sharedFail.getLsbD 2

/-- R551, R707, R709 Ck_TXD is kept recessive now. -/
def State.txdQuiet (s : State) (k : CanId) : Bool :=
  !s.powered || s.dev.phase == .starting || s.canFailed || s.can[k].txdQuiet

/-- R556 a STATE change raises CAN_STATE. -/
def State.canGoto (s : State) (k : CanId) (c : CanCode) : State :=
  let o := s.can[k]
  if o.state = c then s
  else (s.onCan k (fun x => { x with state := c })).canEvent k 0x3001
    [u8 16 c.num, u8 17 o.state.num, u8 18 (min 255 o.tec), u8 19 (min 255 o.rxErr)]

/-- R555 error-active or error-passive, as the counters say. -/
def CanS.active (c : CanS) : CanCode := if 128 ≤ c.tec ∨ 128 ≤ c.rxErr then .errorPassive else .errorActive

/-- A controller that takes part in the bus as error-active or error-passive. -/
def CanS.onLine (c : CanS) : Bool := c.state == .errorActive || c.state == .errorPassive

/-- What happens at a controller: nothing but time passes while the main supply is off or the CAN part is out of service
(R709). -/
def State.canCmd (s : State) (t : Nat) (f : State → State) : Result :=
  let s := s.at t
  .next (if s.powered && !s.canFailed then f s else s)

/-! ### Message objects (R557 to R560) -/

/-- R584 DIR; 3 acts as 0. -/
def CanObj.dir (o : CanObj) : Nat := if fld o.cfg 1 0 = 3 then 0 else fld o.cfg 1 0
/-- R584 USE. -/
def CanObj.pst (o : CanObj) : Bool := bitOf o.cfg 2
/-- R584 PST_SLOT. -/
def CanObj.slot (o : CanObj) : Nat := fld o.cfg 7 4

/-- R560 the object claims a slot in its direction. -/
def CanObj.claims (o : CanObj) (slot dir : Nat) : Bool := o.pst && o.dir == dir && o.slot == slot && bitOf o.id 31

/-- R560 the first object, by controller and number, that serves a slot in a direction. -/
def State.pstServer (s : State) (slot dir : Nat) : Option (CanId × Fin 128) :=
  (List.finRange 16).findSome? fun k =>
    ((List.finRange 128).find? (fun i => s.can[k].objs[i].claims slot dir)).map (fun i => (k, i))

/-- R560 CFG_BAD. -/
def State.cfgBad (s : State) (k : CanId) (i : Fin 128) : Bool :=
  let o := s.can[k].objs[i]
  o.pst && o.dir ≠ 0 && (!bitOf o.id 31 || s.pstServer o.slot o.dir != some (k, i))

/-- R584 DIR as it acts: disabled for a PST object that is CFG_BAD. -/
def State.objDir (s : State) (k : CanId) (i : Fin 128) : Nat := if s.cfgBad k i then 0 else s.can[k].objs[i].dir

/-- R558 an object's identifier and format accept a frame. -/
def CanObj.accepts (o : CanObj) (f : CanFrame) : Bool :=
  let bit (i : Nat) (v : Bool) : Bool := !bitOf o.mask i || (bitOf o.id i == v)
  decide ((fld o.id 28 0 ^^^ f.id.toNat) &&& fld o.mask 28 0 = 0) && bit 29 f.ide && bit 30 f.rtr && bit 31 f.fdf

/-- R558 the object that accepts a received frame: the first that matches. -/
def State.acceptor (s : State) (k : CanId) (f : CanFrame) : Option (Fin 128) :=
  (List.finRange 128).find? fun i => s.objDir k i == 1 && s.can[k].objs[i].accepts f

/-- One object changed. -/
def CanS.onObj (c : CanS) (i : Fin 128) (f : CanObj → CanObj) : CanS := { c with objs := c.objs.set i (f c.objs[i]) }

/-- R564 bytes of data that a DLC stands for. -/
def dlcLen (fdf : Bool) (dlc : Nat) : Nat :=
  if dlc ≤ 8 then dlc
  else if !fdf then 8
  else match dlc with
    | 9 => 12
    | 10 => 16
    | 11 => 20
    | 12 => 24
    | 13 => 32
    | 14 => 48
    | _ => 64

/-! ### The receive ring (R561 to R563) -/

/-- R562 a receive-ring entry; a remote frame carries no data. -/
def canEntry (f : CanFrame) (obj : Nat) (own lost phase : Bool) (state sof valid : Nat) : List Byte :=
  let n := if f.rtr then 0 else dlcLen f.fdf f.dlc.val
  leBytes 4 (f.id.toNat + 2 ^ 29 * b2n f.ide + 2 ^ 30 * b2n f.rtr) ++
  [BitVec.ofNat 8 (f.dlc.val + 16 * b2n f.fdf + 32 * b2n f.brs + 64 * b2n f.esi), BitVec.ofNat 8 (obj + 128 * b2n own),
   BitVec.ofNat 8 (b2n lost + 128 * b2n phase), BitVec.ofNat 8 state] ++
  leBytes 8 sof ++ leBytes 8 valid ++ (List.range 64).map (fun i => if i < n then f.data.getD i 0 else 0) ++
  List.replicate 8 0

/-- R563 a frame is lost to the ring. -/
def State.canLose (s : State) (k : CanId) (i : Fin 128) : State :=
  (s.onCan k (fun c => { c.onObj i (fun o => { o with lost := satInc 255 o.lost }) with
    rxLost := satInc 65535 c.rxLost, lostFlag := true })).raiseLimited 0x3004 (canUnit k) 18 [u8 16 i]

/-- R561, R120 the ring's interrupt. -/
def State.irqCan (s : State) (k : CanId) (p : PortId) : State :=
  let r := s.can[k].ring
  if r.wantsIrq s.dtime then (s.onCan k (fun c => { c with ring := r.signal })).sendMsix p (fld r.cfg 21 16) else s

/-- R561 to R563, R123 a frame written to the receive ring, or lost to it; `fail` is the AER bit of a DMA failure, which
loses the frame too. -/
def State.canDeliver (s : State) (k : CanId) (i : Fin 128) (f : CanFrame) (own : Bool) (sof : Nat) (fail : Option Nat) :
    State :=
  let c := s.can[k]
  let r := c.ring
  match s.ownerOf (canUnit k) with
  | none => s.canLose k i
  | some p =>
    if !r.usable || !r.hasSpace then s.canLose k i
    else match fail with
      | some kind =>
        ((((s.onCan k (fun c => { c with ring := c.ring.fault })).onPort p fun x =>
          { x with aer := x.aer ||| BitVec.ofNat 32 (2 ^ kind) }).canLose k i).canEvent k 0x3007 [u8 16 kind])
      | none =>
        let bytes := canEntry f i.val own c.lostFlag r.phase c.state.num sof s.dtime
        ((s.onCan k (fun c => { c with ring := r.push s.dtime false, lostFlag := false })).emit p 96
          (.canEntry p (r.base + 96 * r.tail) bytes)).irqCan k p

/-! ### Pending transmissions (R564 to R569) -/

/-- R567 the arbitration field of a frame as a number: the lower wins. Base identifier, then (base format) RTR and IDE = 0,
or SRR and IDE = 1, extension and RTR; an FD frame sends its RTR bit dominant (ISO 11898-1). -/
def frameRank (f : CanFrame) : Nat :=
  let rtr := b2n (f.rtr && !f.fdf)
  if f.ide then
    (f.id.toNat / 2 ^ 18) * 2 ^ 21 + 2 ^ 20 + 2 ^ 19 + (f.id.toNat % 2 ^ 18) * 2 + rtr
  else (f.id.toNat % 2 ^ 11) * 2 ^ 21 + rtr * 2 ^ 20

/-- The pending objects, lowest number first. -/
def CanS.pendings (c : CanS) : List (Fin 128) := (List.finRange 128).filter (fun i => c.objs[i].pend.isSome)

/-- The rank of a pending object's frame. -/
def CanS.rankOf (c : CanS) (i : Fin 128) : Nat := (c.objs[i].pend.map (fun x => frameRank x.frame)).getD 0

/-- R567 the pending object whose frame wins arbitration; identical frames go to the lowest number. -/
def CanS.winner (c : CanS) : Option (Fin 128) :=
  match c.pendings with
  | [] => none
  | i :: is => some (is.foldl (fun b x => if c.rankOf x < c.rankOf b then x else b) i)

/-- R569 a CAN_ABORT completes once no object it names is pending. -/
def State.abortCheck (s : State) (k : CanId) : State :=
  match s.can[k].aborting with
  | some n =>
    if s.can[k].objs.toList.any (fun o => o.pend.any (·.abort)) then s
    else (s.onCan k (fun c => { c with aborting := none })).finish (canUnit k) [0x41] stOk 0 n
  | none => s

/-- R566 the CAN_SEND that waits for a transmission completes. -/
def State.wakeSender (s : State) (k : CanId) (x : CanTx) (status result : Nat) : State :=
  match x.waiter with
  | some q => s.finishAt (canUnit k) [0x40] status 0 result q
  | none => s

/-- R566, R569, R572 an object leaves pending by abort. -/
def State.abortObj (s : State) (k : CanId) (i : Fin 128) : State :=
  let o := s.can[k].objs[i]
  match o.pend with
  | none => s
  | some x =>
    let s := s.onCan k (fun c => { c.onObj i (fun o => { o with pend := none, lonely := false }) with
      aborting := c.aborting.map (fun n => if x.abort then n + 1 else n) })
    let s := if bitOf o.cfg 8 then s.canEvent k 0x3003 [u8 16 i, u8 17 1, u32 20 x.sof, u32 24 x.attempts] else s
    s.wakeSender k x stAborted 0

/-- R86, R577 an object kept for its frame after a chameleon change is disabled once the frame has ended. -/
def State.canLeave (s : State) (k : CanId) (i : Fin 128) : State :=
  s.onCan k fun c => if c.leaving then { c.onObj i (fun _ => {}) with leaving := false } else c

/-- R567, R568 the attempt in progress ends without success: an object that a CAN_ABORT has named leaves pending. -/
def State.endAttempt (s : State) (k : CanId) : State :=
  match s.can[k].onBus with
  | none => s
  | some i =>
    let s := s.onCan k (fun c => { c with onBus := none })
    ((if s.can[k].objs[i].pend.any (fun x => x.abort) then s.abortObj k i else s).abortCheck k).canLeave k i

/-- R566 a ring no longer waits for a transmission. -/
def CanTx.forget (x : CanTx) (q : SqRef) : CanTx := if x.waiter == some q then { x with waiter := none } else x

/-- R566 a ring no longer waits for a transmission of a controller. -/
def CanS.forget (c : CanS) (q : SqRef) : CanS :=
  { c with objs := c.objs.map (fun o => { o with pend := o.pend.map (fun x => x.forget q) }) }

/-- R566 the held completion of ring `q` has ended otherwise. -/
def State.forgetWaiter (s : State) (q : SqRef) : State := { s with can := s.can.map (fun c => c.forget q) }

/-! ### Modes (R553, R555, R556, R574) -/

/-- R574 the candidates that CAND enables; 0 acts as 0xFF. -/
def CanS.cand (c : CanS) (i : Nat) : Bool := fld c.abdCfg 7 0 = 0 || (fld c.abdCfg 7 0).testBit i

/-- R574 the candidate after `i`, the fastest again after the last. -/
def CanS.nextCand (c : CanS) (i : Nat) : Nat :=
  ((List.range 8).map (fun j => (i + 1 + j) % 8)).find? (fun j => c.cand j) |>.getD 0

/-- R574 the search begins with candidate `i`. -/
def CanS.search (c : CanS) (i t : Nat) : CanS := { c with abdIdx := i, abdFrom := t, abdRun := 0 }

/-- R555, R556 a MODE takes effect. NORMAL out of LISTENING or ABD_SEARCH integrates as it does out of OFF (log 127). -/
def State.canEnter (s : State) (k : CanId) (mode : Nat) : State :=
  let c := s.can[k]
  let s := s.onCan k (fun c => { c with mode := mode })
  if c.state = .busOff ∨ c.state = .recovering then s
  else if mode = c.mode ∧ c.state ≠ .off then s
  else match mode with
    | 1 => s.canGoto k .integrating
    | 2 => s.canGoto k .listening
    | 3 => (s.onCan k (fun c => c.search (c.nextCand 7) s.dtime)).canGoto k .abdSearch
    | _ => s.canGoto k .off

/-- R556, CAN_MODE_APPLIED: the end of any frame in progress; while an own frame is on the bus it has not come. -/
def execCanModeApplied (t : Nat) (k : CanId) (s : State) : Result :=
  s.canCmd t fun s => if modeOf s.can[k].ctrl ≠ s.can[k].mode ∧ s.can[k].onBus = none then s.canEnter k (modeOf s.can[k].ctrl) else s

/-- R555, CAN_INTEGRATED: 11 recessive bits have been seen. -/
def execCanIntegrated (t : Nat) (k : CanId) (s : State) : Result :=
  s.canCmd t fun s => if s.can[k].state == .integrating then s.canGoto k s.can[k].active else s

/-- R573, CAN_RECOVERY_DONE: 128 occurrences of 11 recessive bits; they are counted in MODE NORMAL only (log 127). -/
def execCanRecoveryDone (t : Nat) (k : CanId) (s : State) : Result :=
  s.canCmd t fun s => if s.can[k].state == .recovering && s.can[k].mode == 1 then
    (s.onCan k (fun c => { c with tec := 0, rxErr := 0 })).canGoto k .errorActive else s

/-! ### Automatic bit-rate detection (R574, R575) -/

/-- R574 the row of a candidate: rate in bit/s, BRP, TSEG1, TSEG2 (and SJW). -/
def abdRow (i : Nat) : Nat × Nat × Nat × Nat :=
  match i with
  | 0 => (1000000, 1, 63, 16)
  | 1 => (800000, 1, 79, 20)
  | 2 => (500000, 2, 63, 16)
  | 3 => (250000, 4, 63, 16)
  | 4 => (125000, 8, 63, 16)
  | 5 => (100000, 10, 63, 16)
  | 6 => (50000, 20, 63, 16)
  | _ => (20000, 50, 63, 16)

/-- R583 ABD_NEXT as it acts. -/
def CanS.abdNext (c : CanS) : Nat := if fld c.abdCfg 17 16 = 1 then 1 else 2

/-- R575 the candidate is confirmed; a MODE that the host has written meanwhile stands (log 127). -/
def State.abdConfirm (s : State) (k : CanId) : State :=
  let c := s.can[k]
  let (rate, brp, t1, t2) := abdRow c.abdIdx
  let s := s.onCan k (fun c => { c with
    nbt := pack [(23, 9, brp), (14, 9, t1), (7, 7, t2), (0, 7, t2)]
    abdDone := true
    abdRate := c.abdIdx
    ctrl := if modeOf c.ctrl = 3 then merge c.ctrl (BitVec.ofNat 32 c.abdNext) 0x7#32 else c.ctrl })
  (s.canEvent k 0x3006 [u8 16 c.abdIdx, u32 20 rate]).canEnter k (modeOf s.can[k].ctrl)

/-- R575 the search moves on. -/
def State.abdMove (s : State) (k : CanId) : State :=
  s.onCan k (fun c => c.search (c.nextCand c.abdIdx) s.dtime)

/-- R583 DWELL as it acts, ns. -/
def CanS.dwell (c : CanS) : Nat := atLeast1 (fld c.abdCfg 15 8) * 10000000

/-- R60, R63, R575 what a candidate sees at DTIME `t` comes within its dwell time. -/
def CanS.dwells (c : CanS) (t : Nat) : Bool := decide (t ≤ c.abdFrom + c.dwell)

/-- R575, ABD_DWELL_TIMEOUT. -/
def execAbdDwellTimeout (t : Nat) (k : CanId) (s : State) : Result :=
  s.canCmd t fun s =>
    if s.can[k].state == .abdSearch && timedOut (s.can[k].abdFrom + s.can[k].dwell) s.dtime then s.abdMove k else s

/-! ### Reception (R558 to R563, R576) -/

/-- R559 a written object as it was before the first write that did not come before SOF. -/
def CanS.undo (c : CanS) (sof : Nat) (w : Nat × Fin 128 × Word × Word × Word) : CanS :=
  if sof ≤ w.1 then c.onObj w.2.1 (fun o => { o with cfg := w.2.2.1, id := w.2.2.2.1, mask := w.2.2.2.2 }) else c

/-- R559 the controller with its objects as they stood at a SOF. -/
def CanS.atSof (c : CanS) (sof : Nat) : CanS := c.past.foldr (fun w c => c.undo sof w) c

/-- R559 the frame in progress has ended: the writes made so far apply to every later frame. -/
def State.frameEnd (s : State) (k : CanId) : State := s.onCan k (fun c => { c with past := [] })

/-- R558, R560 a frame offered to the receive objects; `pst` takes a frame of a PST object's slot. -/
def State.canOffer (s : State) (k : CanId) (f : CanFrame) (own : Bool) (sof : Nat) (fail : Option Nat)
    (pst : State → Nat → List Byte → State) : State :=
  let was := s.onCan k (fun c => c.atSof sof)
  match was.acceptor k f with
  | none => s.onCan k (fun c => { c with noMatch := satInc 65535 c.noMatch })
  | some i =>
    let o := was.can[k].objs[i]
    let s := s.onCan k (fun c => c.onObj i (fun o => { o with count := (o.count + 1) % 256 }))
    if o.pst then pst s o.slot (f.data.take (dlcLen f.fdf f.dlc.val)) else s.canDeliver k i f own sof fail

/-- ISO 11898-1: the receive error counter after a frame received without error. Above 127 it takes a value from 119 to
127, which the standard leaves to the implementation. -/
def rxGood (free rec' : Nat) : Nat :=
  if rec' = 0 then 0
  else if rec' ≤ 127 then rec' - 1
  else (clampInt 119 127 (Config.freeInt free 60)).toNat

/-- R555 the counters have changed: error-passive or error-active. -/
def State.canCounters (s : State) (k : CanId) : State :=
  if s.can[k].onLine then s.canGoto k s.can[k].active else s

/-- R558, a valid frame received from another node. -/
def State.canReceive (s : State) (k : CanId) (sof : Nat) (f : CanFrame) (fail : Option Nat)
    (pst : State → Nat → List Byte → State) : State :=
  let c := s.can[k]
  let s := match c.state with
    | .abdSearch => if c.dwells s.dtime then s.abdConfirm k else s
    | .listening => s.canOffer k f false sof fail pst
    | _ =>
      if c.onLine then
        let s := ((s.endAttempt k).onCan k (fun c => { c with rxErr := rxGood s.freeCtr c.rxErr })).canCounters k
        s.canOffer k f false sof fail pst
      else s
  s.frameEnd k

/-! ### Transmission (R566 to R572) -/

/-- R567, CAN_TX_ATTEMPT: the winning object's frame goes on the bus. -/
def State.canAttempt (s : State) (k : CanId) (sof : Nat) : State :=
  let c := s.can[k]
  if c.onLine && c.mode == 1 && c.onBus.isNone then
    match c.winner with
    | some i => s.onCan k (fun c => { c.onObj i (fun o => { o with
        pend := o.pend.map (fun x => { x with attempts := x.attempts + 1, sof := sof }) }) with onBus := some i })
    | none => s
  else s

/-- R567, CAN_TX_ATTEMPT. -/
def execCanTxAttempt (t : Nat) (k : CanId) (sof : Nat) (s : State) : Result := s.canCmd t (fun s => s.canAttempt k sof)

/-- R554 the measured transmitter delay shown. -/
def CanS.noteTdc (c : CanS) (tdc : Option Nat) : CanS :=
  match tdc with
  | some d => if bitOf c.ctrl 6 then { c with tdc := min 127 d } else c
  | none => c

/-- R572 an acknowledged frame clears LONELY. -/
def State.notLonely (s : State) (k : CanId) (i : Fin 128) : State :=
  let c := s.can[k]
  let s := s.onCan k (fun c => { c.onObj i (fun o => { o with lonely := false }) with ackRun := 0, lonely := false })
  if c.lonely then s.canEvent k 0x3002 [u8 16 1, u8 17 i, u8 18 0] else s

/-- R567, R572 the frame on the bus is sent successfully. -/
def State.canSent (s : State) (k : CanId) (tdc fail : Option Nat) (pst : State → Nat → List Byte → State) : State :=
  let c := s.can[k]
  match c.onBus with
  | none => s
  | some i =>
    match c.objs[i].pend with
    | none => (s.onCan k (fun c => { c with onBus := none })).canLeave k i
    | some x =>
      let o := c.objs[i]
      let f := { x.frame with esi := x.frame.fdf && c.state == .errorPassive }
      let s := s.onCan k (fun c => { (c.noteTdc tdc).onObj i (fun o => { o with
          pend := none, count := if o.dir = 2 then (o.count + 1) % 256 else o.count }) with onBus := none, tec := c.tec - 1 })
      let s := (s.canCounters k).notLonely k i
      let s := if bitOf o.cfg 8 then s.canEvent k 0x3003 [u8 16 i, u8 17 0, u32 20 x.sof, u32 24 x.attempts] else s
      let s := if bitOf o.cfg 9 then s.canDeliver k i f true x.sof fail else s
      let s := if c.lb ≠ 0 then s.canOffer k f true x.sof fail pst else s
      (((s.wakeSender k x stOk (x.sof % 2 ^ 32)).abortCheck k).frameEnd k).canLeave k i

/-! ### Errors (R568, R571) -/

/-- R571 an attempt has ended in an ACK error. -/
def State.ackError (s : State) (k : CanId) (i : Fin 128) : State :=
  let s := s.onCan k (fun c => { c with ackRun := satInc 255 c.ackRun })
  if s.can[k].ackRun = 16 then
    (s.onCan k (fun c => { c.onObj i (fun o => { o with lonely := true }) with lonely := true })).canEvent k 0x3002
      [u8 16 0, u8 17 i, u8 18 16]
  else s

/-- R571 the end of an own attempt in an error. -/
def State.countAck (s : State) (k : CanId) (e : CanErr) : State :=
  match s.can[k].onBus with
  | some i =>
    if e.sender then (if e.kind = 3 then s.ackError k i else s.onCan k (fun c => { c with ackRun := 0 })) else s
  | none => s

/-- ISO 11898-1 whether the first count of an error is left out: for a transmitter an ACK error while error-passive, or a
stuff error in arbitration; for a receiver a bit error in its own flag. -/
def errSpared (e : CanErr) (passive : Bool) : Bool :=
  e.exempt && (!e.sender || (e.kind == 3 && passive) || e.kind == 1)

/-- R550 the counts of ISO 11898-1 for an error. -/
def CanS.countError (c : CanS) (e : CanErr) : CanS :=
  let first := if errSpared e (c.state == .errorPassive) then 0 else 1
  if e.sender then { c with tec := c.tec + 8 * first + 8 * e.extra }
  else { c with rxErr := min 255 (c.rxErr + first + 8 * e.extra) }

/-- R555, R573 the state after an error: bus-off above 255. -/
def State.afterError (s : State) (k : CanId) : State :=
  if 255 < s.can[k].tec ∧ s.can[k].onLine = true then
    (s.onCan k (fun c => { c with busOffs := satInc 65535 c.busOffs })).canGoto k .busOff
  else s.canCounters k

/-- R568, R575, R585 a protocol error; under a loop-back own frames are acknowledged, so no ACK error of them exists (R576).
In ABD_SEARCH `data` says that the BRS bit of the frame has passed. -/
def State.canErr (s : State) (k : CanId) (e : CanErr) : State :=
  let c := s.can[k]
  if c.lb ≠ 0 ∧ e.sender = true ∧ e.kind = 3 then s
  else match c.state with
  | .off => s
  | .integrating => s
  | .busOff => s
  | .recovering => s
  | _ =>
    let s := s.onCan k (fun c => { c.noteTdc e.tdc with lastErr := e.kind % 8, errors := satInc 65535 c.errors })
    let s := if c.onLine then (((s.onCan k (fun c => c.countError e)).afterError k).countAck k e).endAttempt k else s
    let s := s.raiseLimited 0x3005 (canUnit k) 18
      [u8 16 e.kind, u8 17 (b2n e.data), u8 20 (min 255 s.can[k].tec), u8 21 (min 255 s.can[k].rxErr)]
    if c.state = .abdSearch ∧ c.dwells s.dtime = true then
      if e.data then
        if 2 ≤ c.abdRun then s.abdConfirm k else s.onCan k (fun c => { c with abdRun := c.abdRun + 1 })
      else s.abdMove k
    else s

/-- R568, R559 a protocol error and the end of its frame. -/
def State.canErrEnd (s : State) (k : CanId) (e : CanErr) : State := (s.canErr k e).frameEnd k

/-- R568, CAN_ERROR. -/
def execCanError (t : Nat) (k : CanId) (err : CanErr) (s : State) : Result := s.canCmd t (fun s => s.canErrEnd k err)

/-- R550, R558, CAN_FRAME_RECEIVED: with FD_EN = 0 an FD frame is an error, whose kind the spec does not state. -/
def State.canHeard (s : State) (k : CanId) (sof : Nat) (f : CanFrame) (fail : Option Nat)
    (pst : State → Nat → List Byte → State) : State :=
  let c := s.can[k]
  if !c.hears then s
  else if f.fdf && !c.fdEn then
    s.canErrEnd k { kind := 1 + (Config.freeInt s.freeCtr 61 % 6).toNat, data := false, sender := false, exempt := false, extra := 0, tdc := none }
  else s.canReceive k sof f fail pst

/-- R554, R567, CAN_TX_DONE: a frame whose transmitter delay is beyond 127 cycles ends in a bit error, bit 1 or bit 0. -/
def State.canEnded (s : State) (k : CanId) (tdc fail : Option Nat) (pst : State → Nat → List Byte → State) : State :=
  let c := s.can[k]
  let frame := c.onBus.bind (fun i => c.objs[i].pend.map (·.frame))
  if frame.any (fun f => c.delayBad f tdc) then
    s.canErrEnd k { kind := 4 + (Config.freeInt s.freeCtr 62 % 2).toNat, data := true, sender := true, exempt := false, extra := 0, tdc := tdc }
  else s.canSent k tdc fail pst

/-- R551, DOMINANT_LIMIT: the pin is released and a bit error counted: bit 0, for the demand was dominant (log 127). -/
def execDominantLimit (t : Nat) (k : CanId) (s : State) : Result :=
  s.canCmd t fun s => if s.can[k].onLine && !s.can[k].txdQuiet then
    s.canErrEnd k { kind := 5, data := false, sender := s.can[k].onBus.isSome, exempt := false, extra := 0, tdc := none } else s

/-! ### The descriptors (R564 to R569, R573) -/

/-- The controller a descriptor addresses. -/
def canOf (d : Desc) : CanId := ⟨d.unit % 16, Nat.mod_lt _ (by decide)⟩

/-- R564 the header and data of a CAN_SEND. -/
def sendParts (d : Desc) (bs : List Byte) : List Byte × List Byte :=
  if d.length = 0 then ((d.param.drop 4).take 8, d.param.drop 16) else (bs.take 8, bs.drop 8)

/-- R564 the frame that a header gives. -/
def frameOf (h data : List Byte) : CanFrame :=
  let id := bodyInt' h
  let fmt := (h.getD 4 0).toNat
  { id := BitVec.ofNat 29 id
    ide := id.testBit 29
    rtr := id.testBit 30
    fdf := fmt.testBit 4
    brs := fmt.testBit 5
    esi := false
    dlc := ⟨fmt % 16, Nat.mod_lt _ (by decide)⟩
    data := data.take (dlcLen (fmt.testBit 4) (fmt % 16)) }
where
  /-- The ID word of a header. -/
  bodyInt' (h : List Byte) : Nat := ofBytes (h.take 4)

/-- R565 row 3: a frame format that cannot be sent. -/
def frameBad (f : CanFrame) (fdEn : Bool) : Bool :=
  (f.fdf && !fdEn) || (f.rtr && f.fdf) || (f.brs && !f.fdf) || (!f.ide && decide (0x7FF < f.id.toNat))

/-- R709 the last check of every CAN opcode. -/
def canInService (s : State) : Option Fail := failIf s.canFailed stBusy 0x0701

/-- R564 the object that CAN_SEND names. -/
def objOf (d : Desc) : Fin 128 := ⟨d.num 24 2 % 128, Nat.mod_lt _ (by decide)⟩

/-- R565 the checks of CAN_SEND on what it carries. -/
def sendCheck (s : State) (d : Desc) (bs : List Byte) : Option Fail :=
  let c := s.can[canOf d]
  let f := frameOf (sendParts d bs).1 (sendParts d bs).2
  let n := dlcLen f.fdf f.dlc.val
  let i := objOf d
  firstFail [
    failIf ((0 < d.length && d.length < 8) || (8 ≤ d.length && d.length ≠ 8 + n) || (d.length = 0 && 24 < n)) stLenRange 72,
    failIf (c.mode ≠ 1) stBadState 0x0301,
    failIf (s.objDir (canOf d) i ≠ 2 || c.objs[i].pst) stBadState 0x0302,
    failIf (frameBad f c.fdEn) stBadState 0x0303,
    failIf c.objs[i].pend.isSome stBusy 1,
    canInService s]

/-- R565, R113 the checks of a CAN_SEND whose buffer has failed: all those that need no byte of it. -/
def sendCheckBlind (s : State) (d : Desc) : Option Fail :=
  let c := s.can[canOf d]
  let i := objOf d
  firstFail [
    failIf (d.length < 8) stLenRange 72,
    failIf (c.mode ≠ 1) stBadState 0x0301,
    failIf (s.objDir (canOf d) i ≠ 2 || c.objs[i].pst) stBadState 0x0302,
    failIf c.objs[i].pend.isSome stBusy 1,
    canInService s,
    some (stDma, 1)]

/-- R564 to R566 CAN_SEND on ring `q`. -/
def canSendExec (q : SqRef) (buf : Buf) : Exec where
  check s _ d := match buf with
    | .arrived bs => sendCheck s d (bs.take d.length)
    | .failed => if d.length = 0 then sendCheck s d [] else sendCheckBlind s d
  run s _ d :=
    let (h, data) := sendParts d (match buf with
      | .arrived bs => bs.take d.length
      | .failed => [])
    let wait := (d.byte 26).testBit 0
    let x : CanTx := { frame := frameOf h data, waiter := if wait then some q else none, abort := false, attempts := 0, sof := 0 }
    (s.onCan (canOf d) (fun c => c.onObj (objOf d) (fun o => { o with pend := some x })),
      if wait then .hold (some 1000000000) else .now stOk 0 0)

/-- R564, CAN_SEND. -/
def execCanSend (t : Nat) (q : SqRef) (buf : Buf) (s : State) : Result :=
  .next (s.runDesc t q 0x40 (bufSize buf) (canSendExec q buf))

/-- R569 the objects that CAN_ABORT names. -/
def abortNames (d : Desc) (i : Fin 128) : Bool := d.num 24 2 == 0xFFFF || d.num 24 2 == i.val

/-- R569 named objects aborted: those not on the bus at once, the one on the bus when its frame has failed. -/
def State.abortNamed (s : State) (k : CanId) (named : Fin 128 → Bool) : State :=
  let s := s.onCan k fun c => { c with
    aborting := some 0
    objs := Vector.ofFn (fun (i : Fin 128) => if named i then
      { c.objs[i] with pend := c.objs[i].pend.map (fun x => { x with abort := true }) } else c.objs[i]) }
  (s.can[k].pendings.filter (fun i => named i && s.can[k].onBus != some i)).foldl (fun s i => s.abortObj k i) s

/-- R569 CAN_ABORT. -/
def canAbortExec : Exec where
  check s _ d := firstFail [failIf (127 < d.num 24 2 && d.num 24 2 ≠ 0xFFFF) stBadState 0x0302, canInService s]
  run s _ d :=
    let k := canOf d
    let s := s.abortNamed k (abortNames d)
    if s.can[k].pendings.any (abortNames d) then (s, .hold none)
    else (s.onCan k (fun c => { c with aborting := none }), .now stOk 0 ((s.can[k].aborting).getD 0))

/-- R569, CAN_ABORT. -/
def execCanAbort (t : Nat) (q : SqRef) (s : State) : Result := .next (s.runDesc t q 0x41 0 canAbortExec)

/-- R573 CAN_RESTART. -/
def canRestartExec : Exec where
  check s _ d :=
    let c := s.can[canOf d]
    firstFail [failIf (c.state ≠ .busOff) stBadState c.state.num, failIf (c.mode ≠ 1) stBadState 0x0301,
      canInService s]
  run s _ d := (s.canGoto (canOf d) .recovering, .now stOk 0 0)

/-- R573, CAN_RESTART. -/
def execCanRestart (t : Nat) (q : SqRef) (s : State) : Result := .next (s.runDesc t q 0x42 0 canRestartExec)

/-! ### Chameleon change, port down (R561, R577) -/

/-- R577, R557, R86 a BIND or UNBIND of a controller: pending transmissions end as under CAN_ABORT, a frame on the bus when
it has finished, its object with it; every other object and the ring are disabled. -/
def State.canRebind (s : State) (k : CanId) : State :=
  let s := ((s.can[k].pendings.filter (fun i => s.can[k].onBus != some i)).foldl (fun s i => s.abortObj k i) s).abortCheck k
  s.onCan k (fun c => { c with
    past := []
    leaving := c.onBus.isSome
    objs := Vector.ofFn (fun (i : Fin 128) => if c.onBus = some i then
      { c.objs[i] with pend := c.objs[i].pend.map (fun x => { x with abort := true }) } else {})
    ring := { c.ring with enabled := false, marks := [] } })

/-- R563 the owner's port goes down: the receive rings in its memory are disabled. -/
def State.canPortDown (s : State) (p : PortId) : State :=
  { s with can := Vector.ofFn (fun (k : Fin 16) =>
      if s.ownerOf (canUnit k) = some p then { s.can[k] with ring := { s.can[k].ring with enabled := false, marks := [] } }
      else s.can[k]) }

/-! ### Registers (R579 to R584) -/

/-- R553, R556 MODE is OFF: the field says so and it is in effect (log 127). -/
def CanS.isOff (c : CanS) : Bool := modeOf c.ctrl == 0 && c.mode == 0

/-- R553, R580 a write of CTRL. A write that leaves FD_EN and LB as they are is no write to them (log 127). -/
def CanS.writeCtrl (c : CanS) (v : Word) : CanS :=
  let off := c.isOff
  let locked : Word := 0x38#32
  let drop : Bool := !off && (v &&& locked) ≠ (c.ctrl &&& locked)
  let c' := { c with ctrl := merge c.ctrl v (if off then 0x7F78#32 else 0x7F40#32), cfgErr := c.cfgErr || drop }
  if modeOf v ≠ 0 ∧ c'.refused = true then { c' with cfgErr := true }
  else { c' with ctrl := merge c'.ctrl v 0x7#32 }

/-- R559 a write at DTIME `t` to the selected object; dropped while it is pending. -/
def CanS.writeObj (c : CanS) (t : Nat) (f : CanObj → CanObj) : CanS :=
  let o := c.objs[c.sel]
  if o.pend.isSome then { c with objBusy := true }
  else { c.onObj c.sel f with past := c.past ++ [(t, c.sel, o.cfg, o.id, o.mask)] }

/-- R553, R559, R561, R579 a write of a register of a controller at DTIME `t`. -/
def CanS.write (c : CanS) (t off : Nat) (v : Word) : CanS :=
  let timed (f : CanS → CanS) : CanS := if c.isOff then f c else { c with cfgErr := true }
  match off with
  | 0x000 => c.writeCtrl v
  | 0x004 => timed (fun c => { c with nbt := v })
  | 0x008 => timed (fun c => { c with dbt := v &&& 0x1F3F1F1F#32 })
  | 0x00C => { c with
      objBusy := c.objBusy && !bitOf v 21
      cfgErr := c.cfgErr && !bitOf v 20
      abdDone := c.abdDone && !bitOf v 19 }
  | 0x014 => { c with abdCfg := v &&& 0x3FFFF#32 }
  | 0x020 => { c with ring := c.ring.writeBase false v }
  | 0x024 => { c with ring := c.ring.writeBase true v }
  | 0x028 => { c with ring := c.ring.writeCfg v }
  | 0x040 => { c with sel := ⟨fld v 6 0 % 128, Nat.mod_lt _ (by decide)⟩ }
  | 0x044 => c.writeObj t (fun o => { o with cfg := v &&& 0x7F7#32 })
  | 0x048 => c.writeObj t (fun o => { o with id := v })
  | 0x04C => c.writeObj t (fun o => { o with mask := v })
  | _ => c

/-- R100, R561 the head of the receive ring is written. -/
def State.writeRxrHead (s : State) (k : CanId) (v : Word) : State :=
  let r := s.can[k].ring
  let h := fld v 15 0
  if !r.enabled || decide (ringSize r.cfg ≤ h) then s
  else
    let s := s.onCan k (fun c => { c with ring := c.ring.release h })
    match s.ownerOf (canUnit k) with
    | some p => (s.settlePba p (vectorNo (fld r.cfg 21 16))).irqCan k p
    | none => s

/-- R556 a MODE written while OFF is in effect, where no frame can be in progress, takes effect at once (not while the CAN
part is out of service, R709). -/
def State.modeWritten (s : State) (k : CanId) : State :=
  if s.can[k].mode = 0 ∧ modeOf s.can[k].ctrl ≠ 0 ∧ s.canFailed = false then s.canEnter k (modeOf s.can[k].ctrl) else s

/-- R579 a write of a register of a controller's block by its owner. -/
def State.writeCan (s : State) (k : CanId) (off : Nat) (v : Word) : State :=
  if off = 0x030 then s.writeRxrHead k v
  else
    let s := s.onCan k (fun c => c.write s.dtime off v)
    if off = 0 then s.modeWritten k else s

/-- R579, R582, R584 a read of a register of a controller's block. -/
def State.readCan (s : State) (k : CanId) (off : Nat) : Word :=
  let c := s.can[k]
  let o := c.objs[c.sel]
  match off with
  | 0x000 => c.ctrl
  | 0x004 => c.nbt
  | 0x008 => c.dbt
  | 0x00C => pack [(24, 7, c.tdc), (21, 1, b2n c.objBusy), (20, 1, b2n c.cfgErr), (19, 1, b2n c.abdDone),
      (16, 3, c.abdRate), (8, 8, c.ackRun), (5, 3, c.lastErr), (4, 1, b2n c.lonely), (0, 4, c.state.num)]
  | 0x010 => pack [(8, 8, min 255 c.rxErr), (0, 8, min 255 c.tec)]
  | 0x014 => c.abdCfg
  | 0x020 => c.ring.baseLo
  | 0x024 => c.ring.baseHi
  | 0x028 => c.ring.readCfg
  | 0x02C => pack [(0, 16, c.ring.tail)]
  | 0x030 => pack [(0, 16, c.ring.head)]
  | 0x040 => pack [(0, 7, c.sel.val)]
  | 0x044 => o.cfg
  | 0x048 => o.id
  | 0x04C => o.mask
  | 0x050 => pack [(31, 1, b2n o.pend.isSome), (30, 1, b2n (c.onBus == some c.sel)), (29, 1, b2n o.lonely),
      (28, 1, b2n (s.cfgBad k c.sel)), (8, 8, o.lost), (0, 8, o.count)]
  | 0x060 => pack [(16, 16, c.noMatch), (0, 16, c.rxLost)]
  | 0x064 => pack [(16, 16, c.busOffs), (0, 16, c.errors)]
  | _ => 0

end Sys2Proof.Machine
end

