-- ==== Sys2Proof/Machine/Clock.lean ====
section
/-! DEFINITION. The clocks of a channel: REFA periods since the anchor epoch, TBCLK of a frequency word, spread spectrum,
the tick counter, and the lock record (R158 to R187). Instants within a period of REFA or a tick are exact: REFA periods
are counted in 10^-6 × 2^-20, ticks in 10^-6 × 2^-40, frequencies in kHz × 2^20. -/
namespace Sys2Proof.Machine

/-- One REFA period. -/
def refU : Nat := 1000000 * 2 ^ 20
/-- One tick. -/
def tickU : Nat := 1000000 * 2 ^ 40
/-- One sixteenth of a tick, the unit of a 20.4 count. -/
def sixteenth : Nat := 62500 * 2 ^ 40

/-! ### REFA (R171) -/

/-- R171 the REFA periods that have passed since the anchor epoch at DTIME `t`, an instant not before the last change of
REFA or of the trim. DTIME runs faster than REFA time by the trim (R45); no edge is counted while REFA is absent or out of
range (log 103). -/
def TimeS.phase (x : TimeS) (t : Nat) : Nat :=
  if x.refaOk then
    x.refPhase + (t - x.refAt) * x.refaKHz * 2 ^ 20 * 1000000000 / (1000000000 + x.rateAdj).toNat
  else x.refPhase

/-- A change of REFA or of the trim at DTIME `t`: the periods counted so far stand. -/
def TimeS.change (x : TimeS) (t : Nat) (f : TimeS → TimeS) : TimeS := { f x with refAt := t, refPhase := x.phase t }

/-! ### Frequencies (R158 to R163, R180, R780) -/

/-- R190 the word of an entry as its NINT limits act, N × 2^20. -/
def actWord (w : BitVec 26) : Nat := clampNat 6 48 (w.toNat / 2 ^ 20) * 2 ^ 20 + w.toNat % 2 ^ 20

/-- R161 TBCLK of a word, in kHz × 2^20, before the limits of R163. -/
def rawClk (refaKHz : Nat) (w : BitVec 26) : Nat := refaKHz * actWord w

/-- The least TBCLK, 320 MHz (R163). -/
def clkMin : Nat := 320000 * 2 ^ 20
/-- The greatest TBCLK, 480 MHz (R163). -/
def clkMax : Nat := 480000 * 2 ^ 20

/-- R163 TBCLK of a word within 320 to 480 MHz, in kHz × 2^20. -/
def tbClk (refaKHz : Nat) (w : BitVec 26) : Nat := clampNat clkMin clkMax (rawClk refaKHz w)

/-- R163 whether the entry is clamped. -/
def tbClamped (refaKHz : Nat) (w : BitVec 26) : Bool := tbClk refaKHz w ≠ rawClk refaKHz w

/-- R158 the idle oscillator of a draw, 360 to 440 MHz, in kHz × 2^20: a free value (log 10). -/
def idleClk (k : Nat) : Nat := (360000 + Config.idleOsc k % 80001) * 2 ^ 20

/-! ### Step 2 of a lock sequence (R166) -/

/-- R166 step 3 begins 4 µs per entry that was VALID at step 1, after step 1. -/
def TbS.lockingFrom (b : TbS) (f : Nat) : Nat := f + 4000 * b.calCount

/-- R166 step 2 has ended at DTIME `t`. -/
def TbS.step2Done (b : TbS) (t : Nat) : Bool := b.seqFrom.any (fun f => decide (b.lockingFrom f ≤ t))

/-- R166, R190 CAL of an entry at DTIME `t`. -/
def TbS.calAt (b : TbS) (t : Nat) (i : Fin 8) : Bool := b.bands[i].cal || (b.calDue.getLsbD i && b.step2Done t)

/-- R166 the CAL bits as they stand at DTIME `t`. -/
def TbS.keepCal (b : TbS) (t : Nat) : TbS :=
  { b with bands := Vector.ofFn (fun i => { b.bands[i] with cal := b.calAt t i }),
           calDue := if b.step2Done t then 0 else b.calDue }

/-! ### Spread spectrum (R181, R182, R191) -/

/-- R191 SS_DEPTH as it acts, in 0.05 %; 0 while SS_EN = 0. -/
def TbS.ssDepth (b : TbS) : Nat := if bitOf b.profile 31 then min (fld b.profile 30 24) 100 else 0

/-- R181 whether the spread depth does not fit within 320 to 480 MHz and is reduced. -/
def ssReduced (refaKHz : Nat) (w : BitVec 26) (depth : Nat) : Bool :=
  let f := tbClk refaKHz w
  f * (2000 + depth) > clkMax * 2000 || f * (2000 - depth) < clkMin * 2000

/-- R181 the swing D × f, reduced to fit within 320 to 480 MHz, in 1/2000 of kHz × 2^20. -/
def ssSwing (f depth : Nat) : Nat := min (depth * f) (min (2000 * (clkMax - f)) (2000 * (f - clkMin)))

/-- R191 SS_PERIOD in REFA periods, 10^-6 × 2^-20. -/
def TbS.ssPeriod (b : TbS) (refaKHz : Nat) : Nat := atLeast1 (fld b.profile 23 16) * 10000 * refaKHz * 2 ^ 20

/-- R182 the first phase 0 of the triangle at or after the modulation may restart. -/
def TbS.ssStart (b : TbS) (refaKHz : Nat) : Nat :=
  let p := b.ssPeriod refaKHz
  (b.ssFrom + p - 1) / p * p

/-- R181 the triangle at phase `z` of its period `p`, in 1/p. -/
def tri (p z : Nat) : Int :=
  if 4 * z ≤ p then 4 * z else if 4 * z ≤ 3 * p then 2 * (p : Int) - 4 * z else 4 * (z : Int) - 4 * p

/-- R182 the integral of the triangle from its phase 0 to `z`; it is 0 at the end of the period. -/
def triInt (p z : Nat) : Nat :=
  if 4 * z ≤ p then 2 * z * z / p
  else if 4 * z ≤ 3 * p then p / 8 + (z - p / 4) - 2 * (z - p / 4) * (z - p / 4) / p
  else 2 * (p - z) * (p - z) / p

/-- R182 the modulation runs at a REFA phase: LOCKED, SS_EN = 1, and a phase 0 has passed. -/
def TbS.modulates (b : TbS) (refaKHz phase : Nat) : Bool :=
  bitOf b.profile 31 && b.state == .locked && decide (b.ssStart refaKHz ≤ phase)

/-- R181, R182 what the modulation has added to the tick count since its last phase 0. -/
def TbS.ssTicks (b : TbS) (refaKHz phase : Nat) : Nat :=
  if b.modulates refaKHz phase then
    ssSwing (tbClk refaKHz b.word) b.ssDepth * triInt (b.ssPeriod refaKHz) (phase % b.ssPeriod refaKHz) / (2000 * refaKHz)
  else 0

/-! ### Glide (R178, R191) -/

/-- R191 GLIDE_RATE as it acts, in 10 ppm per µs of the starting frequency. -/
def TbS.glideRate (b : TbS) : Nat := atLeast1 (fld b.profile 15 8)

/-- R178 the REFA time, in ns × 2^20, that a glide still needs from a frequency `f` to the word in use. -/
def TbS.glideNeeds (b : TbS) (refaKHz from' f : Nat) : Nat :=
  let g := tbClk refaKHz b.word
  ((g - f) + (f - g)) * 100000000 * 2 ^ 20 / (atLeast1 from' * b.glideRate)

/-- R178 the frequency after `y` ns × 2^20 of a glide from `f`. -/
def TbS.glideClk (b : TbS) (refaKHz from' f y : Nat) : Nat :=
  let g := tbClk refaKHz b.word
  let step := from' * b.glideRate * y / (100000000 * 2 ^ 20)
  if b.glideNeeds refaKHz from' f ≤ y then g else if f ≤ g then min g (f + step) else max g (f - step)

/-- R178 the ticks of `y` ns × 2^20 of a glide from `f`. -/
def TbS.glideTicks (b : TbS) (refaKHz from' f y : Nat) : Nat :=
  let g := tbClk refaKHz b.word
  let m := min y (b.glideNeeds refaKHz from' f)
  let bend := from' * b.glideRate * m * m / (200000000 * 2 ^ 20)
  (if f ≤ g then f * m + bend else f * m - bend) + g * (y - m)

/-! ### The tick counter of the island (R159, R178 to R187) -/

/-- The REFA time since the counter was last set, in ns × 2^20. -/
def TbS.elapsed (b : TbS) (x : TimeS) (t : Nat) : Nat := (x.phase t - b.tickRef) / atLeast1 x.refaKHz

/-- The frequency of the source that clocks the island at DTIME `t`. -/
def Chan.clkAt (c : Chan) (x : TimeS) (t : Nat) : Nat :=
  let b := c.tb
  if !c.core.onPll then idleClk b.idleNo
  else
    let f := tbClk x.refaKHz b.word
    match b.state with
    | .coast => b.tickClk
    | .relocking => b.tickClk
    | .gliding => b.glideClk x.refaKHz (b.change.elim f (·.clk)) b.tickClk (b.elapsed x t)
    | .locked =>
      if b.modulates x.refaKHz (x.phase t) then
        let p := b.ssPeriod x.refaKHz
        ((f : Int) + ssSwing f b.ssDepth * tri p (x.phase t % p) / (2000 * p)).toNat
      else f
    | _ => f

/-- R187 the ticks counted at DTIME `t`. A HOP counts as its target, and a relock as the frequency held (log 104). -/
def Chan.ticksAt (c : Chan) (x : TimeS) (t : Nat) : Nat :=
  let b := c.tb
  if !c.core.onPll then b.ticks + (t - b.tickAt) * idleClk b.idleNo * 2 ^ 20
  else
    let f := tbClk x.refaKHz b.word
    let d := x.phase t - b.tickRef
    match b.state with
    | .coast => b.ticks + (t - b.tickAt) * b.tickClk * 2 ^ 20
    | .relocking => b.ticks + (t - b.tickAt) * b.tickClk * 2 ^ 20
    | .gliding => b.ticks + b.glideTicks x.refaKHz (b.change.elim f (·.clk)) b.tickClk (b.elapsed x t)
    | .locked => b.ticks + f * d / atLeast1 x.refaKHz + b.ssTicks x.refaKHz (x.phase t) - b.ssTicks x.refaKHz b.tickRef
    | _ => b.ticks + f * d / atLeast1 x.refaKHz

/-- R184 the greatest frequency of a coast, with the change of the die temperature since it began, 0.1 °C. -/
def TbS.coastMost (b : TbS) (temp : Int) : Nat := b.tickClk * (1000100 + 4 * (temp - b.coastTemp).natAbs) / 1000000

/-- R179, R184 the most ticks that can have been counted at DTIME `t`: more than `ticksAt` while TBCLK is only bounded, in
the first 5 µs of a HOP, in the rest of it, in coast and in a relock. -/
def Chan.ticksMost (c : Chan) (x : TimeS) (temp : Int) (t : Nat) : Nat :=
  let b := c.tb
  let f := tbClk x.refaKHz b.word
  if !c.core.onPll then c.ticksAt x t
  else match b.state with
    | .hopping =>
      let fast := min t (b.change.elim 0 (·.start) + 5000) - b.tickAt
      b.ticks + fast * (500000 * 2 ^ 40) + ((t - b.tickAt) - fast) * f * 2 ^ 20 * 1000100 / 1000000
    | .coast => b.ticks + (t - b.tickAt) * b.coastMost temp * 2 ^ 20
    | .relocking => b.ticks + (t - b.tickAt) * max f (b.coastMost temp) * 2 ^ 20
    | _ => c.ticksAt x t

/-- R158, R184 the most ticks that can have passed between two DTIMEs, at the frequency of now or, on the idle oscillator, at
440 MHz. -/
def Chan.ticksWithin (c : Chan) (x : TimeS) (from' t : Nat) : Nat :=
  (t - from') * (if c.core.onPll then c.clkAt x t else 440000 * 2 ^ 20) * 2 ^ 20

/-! ### Grid (R171, R172) -/

/-- R171, R172 the grid phase of a channel at DTIME `t`: k × N, with the modulation of R181 while it runs (log 105). -/
def Chan.gridAt (c : Chan) (x : TimeS) (t : Nat) : Nat :=
  tbClk x.refaKHz c.tb.word * x.phase t / atLeast1 x.refaKHz + c.tb.ssTicks x.refaKHz (x.phase t)

/-- R189 PHASE_OFS in 20.4 ticks. -/
def TbS.phaseOfs (b : TbS) : Nat := fld b.ctrl 23 0

/-- R172 what is missing at grid phase `phi` to the next grid instant of a period of `p` (10^-6 × 2^-40 tick). -/
def toGrid (ofs p phi : Nat) : Nat := (ofs * sixteenth % p + p - phi % p) % p

/-! ### Lock record (R187) -/

/-- R187 the 64-bit tick counter at DTIME `t`, in whole ticks. -/
def Chan.tickCounter (c : Chan) (x : TimeS) (t : Nat) : Nat :=
  (Int.emod (((c.ticksAt x t : Int) + c.tb.tickBase) / (tickU : Int)) (2 ^ 64)).toNat

/-- R187 the pair stored at DTIME `q`, a multiple of 10 µs: from the stretch in progress, or as it was stored before it. -/
def Chan.pairAt (c : Chan) (x : TimeS) (q : Nat) (old : TickAt) : TickAt :=
  if c.tb.tickAt ≤ q then { ticks := ((c.ticksAt x q : Int) + c.tb.tickBase).toNat, dtime := q } else old

/-- R187 the two latest pairs at DTIME `t`, the later first. -/
def Chan.recordAt (c : Chan) (x : TimeS) (t : Nat) : TickAt × TickAt :=
  let q := t / 10000 * 10000
  let old := if c.tb.record.1.dtime = q then c.tb.record.2 else c.tb.record.1
  (c.pairAt x q c.tb.record.1, c.pairAt x (q - 10000) old)

/-- R187 a tick stamp as DTIME: interpolation from the two latest pairs. -/
def tickStamp (r : TickAt × TickAt) (ticks : Nat) : Nat :=
  ((r.2.dtime : Int) + rndDiv (((ticks : Int) - r.2.ticks) * (r.1.dtime - r.2.dtime : Nat)) (atLeast1 (r.1.ticks - r.2.ticks))).toNat

end Sys2Proof.Machine
end

