-- ==== Sys2Proof/Machine/Channel.lean ====
section
/-! DEFINITION. A channel seen by itself: what its commands may read of the device (`ChEnv`), what they may hand to it
(`ChOut`), and the configuration fields of its registers. A channel operation maps a `ChR` to a `ChR`; nothing else of the
device is in its reach (R8, R9). -/
namespace Sys2Proof.Machine

/-- What a channel sees of the device: time, the reference, and the device-level demands of R8's paths. -/
structure ChEnv where
  /-- DTIME. -/
  t : Nat
  /-- The command's count of free values. -/
  free : Nat
  /-- R169 REFA is present and in range. -/
  refaOk : Bool
  /-- R780 the last valid REFA measurement in kHz. -/
  refaKHz : Nat
  /-- R171 the time unit, from which REFA edges are counted. -/
  time : TimeS
  /-- R184 the temperature of the cluster's die sensor, 0.1 °C. -/
  dieTemp : Int
  /-- R224 stage 2 demand in force. -/
  shut : Bool
  /-- R686 the device is basking. -/
  basking : Bool
  /-- R709 the channel's cluster is out of service. -/
  failed : Bool
  /-- R611 STO_ASC_SPEED in 0.1 Hz. -/
  stoSpeed : Nat
  /-- R613 RUN_PERMIT acts as 1. -/
  permit : Bool
  deriving DecidableEq, Repr

/-- What a channel command hands to the device. -/
inductive ChOut where
  /-- An event of the channel (R91). -/
  | event (code stamp : Nat) (data : List EvField)
  /-- An event raised for the first occurrence of each second, with the count at byte `off` (R777; none for
  byte 0); `key` tells apart the conditions that are counted separately. -/
  | limited (code key stamp off : Nat) (data : List EvField)
  /-- Held descriptors of the channel that complete (R90, R139). -/
  | finish (ops : List Nat) (status detail result : Nat)
  /-- R30 the slack of a run, its interval, and whether the channel is measured. -/
  | slack (slack : Int) (interval : Nat) (measured : Bool)
  deriving DecidableEq, Repr

/-- A channel within a command: what it sees, its state, and what it has handed out so far. -/
structure ChR where
  env : ChEnv
  c   : Chan
  out : List ChOut
  deriving DecidableEq, Repr

/-- An operation of one channel. -/
abbrev ChOp := ChR → ChR

/-! ### Updates of the parts of a channel -/

/-- The channel replaced. -/
def ChR.on (r : ChR) (f : Chan → Chan) : ChR := { r with c := f r.c }
/-- State, plug, identification changed. -/
def ChR.core (r : ChR) (f : CoreS → CoreS) : ChR := { r with c := { r.c with core := f r.c.core } }
/-- The time base changed. -/
def ChR.tb (r : ChR) (f : TbS → TbS) : ChR := { r with c := { r.c with tb := f r.c.tb } }
/-- The PWM island changed. -/
def ChR.pwm (r : ChR) (f : PwmS → PwmS) : ChR := { r with c := { r.c with pwm := f r.c.pwm } }
/-- The sensing unit changed. -/
def ChR.adc (r : ChR) (f : AdcS → AdcS) : ChR := { r with c := { r.c with adc := f r.c.adc } }
/-- The position unit changed. -/
def ChR.pos (r : ChR) (f : PosS → PosS) : ChR := { r with c := { r.c with pos := f r.c.pos } }
/-- The field control unit changed. -/
def ChR.fcu (r : ChR) (f : FcuS → FcuS) : ChR := { r with c := { r.c with fcu := f r.c.fcu } }
/-- The loop engine changed. -/
def ChR.nle (r : ChR) (f : NleS → NleS) : ChR := { r with c := { r.c with nle := f r.c.nle } }
/-- Protection changed. -/
def ChR.prot (r : ChR) (f : ProtS → ProtS) : ChR := { r with c := { r.c with prot := f r.c.prot } }
/-- The thermal model changed. -/
def ChR.therm (r : ChR) (f : ThermS → ThermS) : ChR := { r with c := { r.c with therm := f r.c.therm } }
/-- Performance sampling changed. -/
def ChR.tag (r : ChR) (f : TagS → TagS) : ChR := { r with c := { r.c with tag := f r.c.tag } }

/-- An operation done only under a condition. -/
def ChR.when (r : ChR) (b : Bool) (f : ChOp) : ChR := if b then f r else r

/-- Something handed to the device. -/
def ChR.emit (r : ChR) (o : ChOut) : ChR := { r with out := r.out ++ [o] }
/-- An event stamped now. -/
def ChR.event (r : ChR) (code : Nat) (data : List EvField) : ChR := r.emit (.event code r.env.t data)
/-- An event with a stamp of its own (R25, R62). -/
def ChR.eventAt (r : ChR) (code stamp : Nat) (data : List EvField) : ChR := r.emit (.event code stamp data)
/-- An event of R777, with its count at byte `off`. -/
def ChR.limited (r : ChR) (code off : Nat) (data : List EvField) : ChR := r.emit (.limited code 0 r.env.t off data)
/-- Held descriptors complete. -/
def ChR.finish (r : ChR) (ops : List Nat) (status detail result : Nat) : ChR :=
  r.emit (.finish ops status detail result)

/-! ### Codes -/

/-- R131. -/
def ChCode.num : ChCode → Nat
  | .off => 0
  | .ready => 1
  | .armed => 2
  | .run => 3
  | .stopping => 4
  | .brake => 5
  | .discharge => 6
  | .safe => 7
  | .tripped => 8
  | .locked => 9
  | .unplugged => 10
  | .ident => 11
  | .wrongMotor => 12

/-- R192. -/
def TbState.num : TbState → Nat
  | .idle => 0
  | .cal => 1
  | .locking => 2
  | .aligning => 3
  | .locked => 4
  | .hopping => 5
  | .gliding => 6
  | .coast => 7
  | .relocking => 8

/-- R370. -/
def FcuPhase.num : FcuPhase → Nat
  | .idle => 0
  | .probe => 1
  | .hfiConverge => 2
  | .polarity => 3
  | .align => 4
  | .waitRef => 5
  | .catchAsc => 6
  | .sync => 7
  | .done => 8
  | .brakeAsc => 9
  | .brakePulsed => 10
  | .discharge => 11
  | .wrongMotorAsc => 12

/-- R386. -/
def Entry.num : Entry → Nat
  | .update => 0
  | .capture => 1
  | .slow => 2
  | .host => 3

/-- The index of an entry among the four. -/
def Entry.idx : Entry → Fin 4
  | .update => 0
  | .capture => 1
  | .slow => 2
  | .host => 3

/-! ### Fields of the configuration in force -/

/-- R153 STAGE, as taken at CH_ARM. -/
def Chan.stage (c : Chan) : Nat := fld c.core.configIn 1 0
/-- R153, R783 SET_GROUP. That byte 24 of STATE_CHANGED shows it as the last CH_ARM took it, and not as written since, is the
model's choice (log 123). -/
def Chan.setGroup (c : Chan) : Nat := fld c.core.configIn 20 16
/-- R153 STOP_LIMIT in ns. -/
def Chan.stopLimit (c : Chan) : Nat := atLeast1 (fld c.core.configIn 15 8) * 100000000
/-- R153 AUTO_RUN. -/
def Chan.autoRun (c : Chan) : Bool := bitOf c.core.configIn 4
/-- R144 the motor profile is set. -/
def Chan.profileSet (c : Chan) : Bool := fld c.core.motorRs 31 24 ≠ 0 || fld c.core.motorLs 31 24 ≠ 0
/-- R153 AUTO_IDENT, which acts at once. -/
def Chan.autoIdent (c : Chan) : Bool := bitOf c.core.config 3
/-- R153 REQ_VERIFY as written, which the permission check of CH_ARM uses. -/
def Chan.reqVerify (c : Chan) : Bool := bitOf c.core.config 2
/-- R236 ASC_SIDE. -/
def Chan.ascHigh (c : Chan) : Bool := bitOf c.pwm.cfg 29
/-- R236 AUX_MODE. -/
def Chan.auxMode (c : Chan) : Nat := fld c.pwm.cfg 28 27
/-- R196 a PERIOD value as it acts, 20.4 ticks. -/
def actPeriod (p : Nat) : Nat := clampNat 0x6400 0x753000 p
/-- R236 UPD in force. -/
def Chan.upd (c : Chan) : Nat := c.pwm.updIn
/-- R367 ANGLE_SRC in force. -/
def Chan.angleSrc (c : Chan) : Nat := fld c.fcu.cfgIn 31 30
/-- R367 HFI_EN in force. -/
def Chan.hfiEn (c : Chan) : Bool := bitOf c.fcu.cfgIn 25
/-- R367 POLE_PAIRS in force. -/
def Chan.polePairs (c : Chan) : Nat := atLeast1 (fld c.fcu.cfgIn 23 16)

/-- R369 the range of each FCU parameter; an angle is taken modulo. -/
def fcuRange (i : Nat) : Nat × Nat :=
  match i with
  | 0 => (0, 65535)
  | 1 => (0, 65535)
  | 2 => (0, 65535)
  | 3 => (0, 16777215)
  | 4 => (1, 16777215)
  | 5 => (1, 16777215)
  | 6 => (1, 16383)
  | 7 => (10, 500)
  | 8 => (10, 2000)
  | 9 => (1, 65535)
  | 10 => (1, 65535)
  | 11 => (1, 1000)
  | 12 => (1, 65535)
  | 13 => (1, 65535)
  | 14 => (20, 200)
  | 15 => (50, 2000)
  | 16 => (4, 32)
  | 17 => (0, 1000000)
  | 18 => (0, 1000000)
  | 19 => (10, 10000)
  | 20 => (1, 50)
  | 21 => (1, 8191)
  | 22 => (1, 5000)
  | 23 => (1, 1000000)
  | 24 => (1, 10000)
  | 25 => (1, 1023)
  | 26 => (1, 1023)
  | 27 => (1, 1023)
  | 28 => (2, 8191)
  | 29 => (0, 1000000)
  | 30 => (0, 16777215)
  | 31 => (1, 8191)
  | 32 => (10, 60000)
  | _ => (1, 8191)

/-- R369 a value of FCU parameter `i` as it acts. -/
def actFcu (i x : Nat) : Nat := if i < 3 then x % 65536 else clampNat (fcuRange i).1 (fcuRange i).2 x

/-- An FCU parameter in force. -/
def Chan.fcuPar (c : Chan) (i : Fin 34) : Nat := actFcu i c.fcu.parIn[i]

/-! ### Time base arithmetic (R161 to R163, R780) -/

/-- R191 SS_DEPTH as it acts. -/
def Chan.ssDepth (c : Chan) : Nat := c.tb.ssDepth

/-- R197 the carrier of a PERIOD at a word lies in the range its update points permit. -/
def carrierOk (refaKHz : Nat) (w : BitVec 26) (period upd : Nat) : Bool :=
  let f := tbClk refaKHz w
  let p := actPeriod period
  decide (2 ^ 20 * p ≤ f * 16) && decide (f * 16 ≤ (if upd = 2 then 50 else 200) * 2 ^ 20 * p)

/-- R248 the carrier is above 100 kHz. -/
def carrierFast (refaKHz : Nat) (w : BitVec 26) (period : Nat) : Bool :=
  decide (100 * 2 ^ 20 * actPeriod period < tbClk refaKHz w * 16)

/-- R234, R208 the least PERIOD that dead times, minimum pulse and refresh leave, in ticks. -/
def Chan.minPeriod (c : Chan) : Nat :=
  2 * (fld c.pwm.dt 27 16 + fld c.pwm.dt 11 0 + fld c.pwm.minpw 11 0 +
    (if fld c.pwm.bsr 7 0 = 0 then 0 else atLeast1 (fld c.pwm.bsr 19 8)))

/-- R234, last row. -/
def Chan.periodFits (c : Chan) (period : Nat) : Bool := decide (c.minPeriod * 16 ≤ actPeriod period)

/-- R396 the budgets fit the update interval at a PERIOD and a word. -/
def Chan.budgetFits (c : Chan) (refaKHz : Nat) (w : BitVec 26) (period upd : Nat) (sofs : Int) : Bool :=
  let b (i : Fin 4) : Nat := if c.nle.entries[i].isSome then c.nle.budgets[i] else 0
  let total := b 0 + max (b 1) (max (b 2) (b 3))
  let i32 : Nat := if upd = 2 then actPeriod period else 2 * actPeriod period
  let room : Int := (i32 : Int) - 32 * (sofs + 8)
  decide (((total + 240) * tbClk refaKHz w * (2000 + c.ssDepth) * 32 : Nat) ≤ room * (2 ^ 20 * 1000000 * 2000))

/-- R286 SOFS of an ADC_CFG value, signed ticks. -/
def sofsOf (cfg : Word) : Int := toSigned 12 (fld cfg 11 0)

/-- R195 the carrier count at DTIME `t`, 20.4 ticks from the last count 0. -/
def Chan.countAt (c : Chan) (x : TimeS) (t : Nat) : Nat :=
  match c.pwm.count0 with
  | none => 0
  | some _ => (c.ticksAt x t - c.pwm.tick0) / sixteenth

/-- R195 the tick count of the next count 0: PERIOD after the last one, and later by what a realign adds (R175). -/
def Chan.nextTick (c : Chan) : Nat := c.pwm.tick0 + actPeriod c.pwm.period * sixteenth + c.pwm.extra

/-- R199 the MID update point, 20.4 ticks. -/
def Chan.midCount (c : Chan) : Nat := actPeriod c.pwm.period / 2

/-- R199 the tick count of the MID update point of the present period. -/
def Chan.midTick (c : Chan) : Nat := c.pwm.tick0 + c.midCount * sixteenth

/-- R201, R391 the update point after one at BOUNDARY (0) or MID (1) with its tick count, of those that UPD uses. -/
def Chan.updateAfter (c : Chan) (u : Nat × Nat) : Nat × Nat :=
  let p := actPeriod c.pwm.period * sixteenth
  let m := c.midCount * sixteenth
  let next (v : Nat) : Nat := if v = c.pwm.prev0.1 then c.pwm.tick0 else if v = c.pwm.tick0 then c.nextTick else v + p
  match c.upd, u.1 with
  | 2, 0 => (1, if u.2 = c.pwm.prev0.1 then c.pwm.prev0.2 else u.2 + m)
  | 2, _ => (0, if u.2 = c.pwm.prev0.2 then c.pwm.tick0 else if u.2 = c.midTick then c.nextTick else u.2 - m + p)
  | 1, _ => (1, if u.2 = c.pwm.prev0.2 then c.midTick else if u.2 = c.midTick then c.nextTick + m else u.2 + p)
  | _, _ => (0, next u.2)

/-- R202 the next update point that UPD uses: BOUNDARY (0) or MID (1), and its tick count. -/
def Chan.nextUpdate (c : Chan) : Nat × Nat :=
  if (c.upd == 1 || c.upd == 2) && !c.pwm.midDone then (1, c.midTick)
  else if c.upd = 1 then (1, c.nextTick + c.midCount * sixteenth)
  else (0, c.nextTick)

/-- The least DTIME length of a number of ticks at DTIME `t`: at the frequency of the island, or at 440 MHz on the idle
oscillator (R158). -/
def Chan.ticksNs (c : Chan) (x : TimeS) (t ticks : Nat) : Nat :=
  ticks * tickU / atLeast1 ((if c.core.onPll then c.clkAt x t else 440000 * 2 ^ 20) * 2 ^ 20)

/-! ### The tick counter moved on (R160, R187) -/

/-- The counter set anew at this instant, before the word, STATE or the modulation changes. -/
def ChR.retick (r : ChR) : ChR :=
  let x := r.env.time
  let t := r.env.t
  r.tb (fun b => { b with ticks := r.c.ticksAt x t, tickAt := t, tickRef := x.phase t, tickClk := r.c.clkAt x t,
                          record := r.c.recordAt x t })

/-- A tick count moved by the step from `a` to `b`. -/
def shiftTick (a b x : Nat) : Nat := ((x : Int) - a + b).toNat

/-- R215, R225 the instants of a leg's lanes as the new source counts them. -/
def LegOut.shift (o : LegOut) (a b : Nat) : LegOut :=
  { o with
    highOn := o.highOn.map (shiftTick a b)
    lowOn := o.lowOn.map (shiftTick a b)
    highOff := shiftTick a b o.highOff
    lowOff := shiftTick a b o.lowOff
    edge := o.edge.map (fun e => (shiftTick a b e.1, e.2)) }

/-- R187 the counter goes on at `v`, and the 64-bit tick counter without a step. -/
def ChR.setTicks (r : ChR) (v : Nat) : ChR :=
  let r := r.retick
  let old := r.c.tb.ticks
  (r.tb (fun b => { b with ticks := v, tickBase := b.tickBase + old - v })).pwm
    (fun p => { p with outs := p.outs.map (fun o => o.shift old v) })

/-- R159, R160 the island switches its clock source. On the PLL the counter begins at the grid phase (R171). -/
def ChR.switchClock (r : ChR) (toPll : Bool) : ChR :=
  let r := r.setTicks (if toPll then
    tbClk r.env.time.refaKHz r.c.tb.word * r.env.time.phase r.env.t / atLeast1 r.env.time.refaKHz else 0)
  (r.core (fun c => { c with onPll := toPll })).tb (fun b => if toPll then b else { b with idleNo := r.env.free })

/-- The DTIME at which the tick counter has reached or will reach `v`, at the frequency of now. -/
def ChR.timeOf (r : ChR) (v : Nat) : Nat :=
  let now := r.c.ticksAt r.env.time r.env.t
  let rate := atLeast1 (r.c.clkAt r.env.time r.env.t * 2 ^ 20)
  if v ≤ now then r.env.t - (now - v) / rate else r.env.t + (v - now + rate - 1) / rate

/-- The channel at the instant at which its tick counter reaches `v`: none while it cannot have reached it. While TBCLK is
only bounded (R179, R184), the instant is the command's. -/
def ChR.reach (r : ChR) (v : Nat) : Option ChR :=
  if v ≤ r.c.ticksAt r.env.time r.env.t then some { r with env := { r.env with t := r.timeOf v } }
  else if v ≤ r.c.ticksMost r.env.time r.env.dieTemp r.env.t then some (r.retick.tb (fun b => { b with ticks := v }))
  else none

/-! ### Position speed and ASC speed (R311 to R314, R344) -/

/-- R323 MODE. -/
def Chan.posMode (c : Chan) : Nat := fld c.pos.cfg 31 30
/-- R324 COUNTS_PER_REV as it acts. -/
def Chan.cpr (c : Chan) : Nat := clampNat 4 0x80000000 c.pos.cpr.toNat

/-- R311 the magnitude of an interval in 1/16 ns, saturated. -/
def speedMag (dt16 : Nat) : Nat :=
  if dt16 = 0 then 2147483647 else min 2147483647 (rndDiv (256000000000 : Nat) dt16).toNat

/-- R313 the speed reported at DTIME `t`. -/
def Chan.posSpeed (c : Chan) (t : Nat) : Int :=
  if c.pos.n < 2 then 0
  else
    let m := min c.pos.speed.natAbs (if 16 * t ≤ c.pos.edge then 2147483647 else speedMag (16 * t - c.pos.edge))
    if c.pos.speed < 0 then -(m : Int) else m

/-- R344 the ASC speed as an exact fraction of 0.1 Hz, `none` where it is unknown. -/
def Chan.ascSpeed (c : Chan) (t : Nat) : Option (Nat × Nat) :=
  if c.posMode ≠ 0 ∧ c.pos.uncertain = false then
    let v := (c.posSpeed t).natAbs
    if c.posMode = 3 then some (v * 10, 16 * 6) else some (v * 10 * c.polePairs, 16 * c.cpr)
  else if c.fcu.obs.lock then some (c.fcu.obs.omega.natAbs * 10, 65536)
  else if c.fcu.hfi.lock then some (c.fcu.hfi.omega.natAbs * 10, 65536)
  else if c.fcu.probeUse then some (c.fcu.probeSpeed.1.natAbs * 10, 65536 * c.fcu.probeSpeed.2)
  else match c.fcu.ascOmega with
    | some w => some (w.natAbs * 10, 65536)
    | none => none

/-- R344 an unknown ASC speed counts as above every threshold. -/
def ascAbove (spd : Option (Nat × Nat)) (thr : Nat) : Bool :=
  match spd with
  | none => true
  | some (n, d) => decide (thr * d < n)

/-- R344 the ASC speed as events report it: 0.1 Hz, rounded half away from zero, 0 where unknown. -/
def ascReport (spd : Option (Nat × Nat)) : Nat :=
  match spd with
  | none => 0
  | some (n, d) => (rndDiv n d).toNat

end Sys2Proof.Machine
end

