-- ==== Sys2Proof/Machine/Trig.lean ====
section
/-! DEFINITION. The sine of R331 and the angle arithmetic of chapter 08. -/
namespace Sys2Proof.Machine

/-- π × 2^64, rounded down. -/
def piFix : Nat := 57952155664616982739

/-- Terms of the sine series in 2^-64: `term` is x^(2k-1)/(2k-1)!, alternately added and subtracted. -/
def sinTerms : Nat → Nat → Nat → Nat → Bool → Int → Int
  | 0, _, _, _, _, acc => acc
  | fuel + 1, x2, term, k, plus, acc =>
    sinTerms fuel x2 (term * x2 / 2 ^ 64 / (2 * k * (2 * k + 1))) (k + 1) (!plus)
      (if plus then acc + (term : Int) else acc - (term : Int))

/-- rnd(32,768 × sin(π/2 × r / 16,384)) for r from 0 to 16,384. -/
def sinQuarter (r : Nat) : Int :=
  let x := r * piFix / 32768
  (sinTerms 16 (x * x / 2 ^ 64) x 1 true 0 + 2 ^ 48) / 2 ^ 49

/-- R331 sin16. -/
def sin16 (a : Nat) : Int :=
  let r := a % 16384
  min 32767 (match a / 16384 % 4 with
    | 0 => sinQuarter r
    | 1 => sinQuarter (16384 - r)
    | 2 => -(sinQuarter r)
    | _ => -(sinQuarter (16384 - r)))

/-- R331 cos16. -/
def cos16 (a : Nat) : Int := sin16 (a + 16384)

/-- An angle of 2^-16 revolution, reduced to one revolution. -/
def angle (x : Int) : Nat := (Int.emod x 65536).toNat

/-- R337 wrap: an angle difference folded into -32,768 to 32,767. -/
def wrapAngle (x : Int) : Int := toSigned 16 (angle x)

/-- A quotient rounded half away from zero, for a divisor of either sign (R333). -/
def rndQuot (a b : Int) : Int := if 0 < b then rndDiv a b.toNat else rndDiv (-a) (-b).toNat

/-- Held within a signed 32-bit value. -/
def sat32 (x : Int) : Int := clampInt (-2147483648) 2147483647 x

end Sys2Proof.Machine
end

