-- ==== Sys2Proof/Machine/Operands.lean ====
section
/-! DEFINITION. Operand forms of the engines' instructions (R415 to R419): fields of a word, register numbers as instance B
mirrors them, effective addresses. -/
namespace Sys2Proof.Machine

/-- An engine as an instruction sees it: address width, PC width, whether it is the safety executive, whether it is instance
B (R596, R597), how it reads a data word, and which data addresses are exceptions to read or to write (R589, R604). -/
structure EngCfg where
  w    : Nat
  pcw  : Nat
  se   : Bool
  mir  : Bool
  rd   : Nat → Half
  badR : Nat → Bool
  badW : Nat → Bool

/-- R416 OP. -/
def opOf (x : Word) : Nat := fld x 31 26
/-- R416 bits [25:21]. -/
def fA (x : Word) : Nat := fld x 25 21
/-- R416 bits [20:16]. -/
def fB (x : Word) : Nat := fld x 20 16
/-- R416 RT of format R. -/
def fC (x : Word) : Nat := fld x 15 11
/-- R416 AC. -/
def fAc (x : Word) : Nat := fld x 10 9
/-- R416 RND. -/
def fRnd (x : Word) : Bool := bitOf x 8
/-- R416 SH. -/
def fSh (x : Word) : Nat := fld x 7 4
/-- R416 FN. -/
def fFn (x : Word) : Nat := fld x 3 0
/-- R416 IMM. -/
def fImm (x : Word) : Half := BitVec.ofNat 16 (fld x 15 0)
/-- R416 T of format B, with its two upper bits, which must be 0. -/
def fT (x : Word) : Nat := fld x 15 0
/-- R416 IX of format M. -/
def fIx (x : Word) : Nat := fld x 20 19
/-- R416 AM of format M. -/
def fAm (x : Word) : Nat := fld x 18 17
/-- R416 K of format M. -/
def fK (x : Word) : Nat := fld x 16 13
/-- R416 A of format M. -/
def fAddr (x : Word) : Nat := fld x 12 0

/-- R596 a D register number, as this instance holds it. -/
def EngCfg.dNo (g : EngCfg) (r : Nat) : Fin 32 :=
  ⟨(if g.mir then 31 - r % 32 else r % 32) % 32, Nat.mod_lt _ (by decide)⟩
/-- R596 an accumulator number. -/
def EngCfg.aNo (g : EngCfg) (a : Nat) : Fin 4 := ⟨(if g.mir then 3 - a % 4 else a % 4) % 4, Nat.mod_lt _ (by decide)⟩
/-- R596 an index register number. -/
def EngCfg.xNo (g : EngCfg) (n : Nat) : Fin 4 := ⟨(if g.mir then 3 - n % 4 else n % 4) % 4, Nat.mod_lt _ (by decide)⟩

/-- A D register as a signed number. -/
def EngCfg.d (g : EngCfg) (r : RegsS) (i : Nat) : Int := r.d[g.dNo i].toInt
/-- A D register written with the low 16 bits of a value. -/
def EngCfg.setD (g : EngCfg) (r : RegsS) (i : Nat) (v : Int) : RegsS := { r with d := r.d.set (g.dNo i) (BitVec.ofInt 16 v) }
/-- R597 the value that a D register stands for as a bit pattern: negated back in instance B. -/
def EngCfg.bits (g : EngCfg) (r : RegsS) (i : Nat) : Half := if g.mir then -r.d[g.dNo i] else r.d[g.dNo i]
/-- R597 a bit pattern written, negated in instance B. -/
def EngCfg.setBits (g : EngCfg) (r : RegsS) (i : Nat) (v : Half) : RegsS :=
  { r with d := r.d.set (g.dNo i) (if g.mir then -v else v) }
/-- An accumulator as a signed number. -/
def EngCfg.acc (g : EngCfg) (r : RegsS) (a : Nat) : Int := r.acc[g.aNo a].toInt
/-- An accumulator written. -/
def EngCfg.setAcc (g : EngCfg) (r : RegsS) (a : Nat) (v : Int) : RegsS :=
  { r with acc := r.acc.set (g.aNo a) (BitVec.ofInt 40 v) }
/-- An index register. -/
def EngCfg.ix (g : EngCfg) (r : RegsS) (n : Nat) : Nat := r.ix[g.xNo n]
/-- An index register written modulo 2^w. -/
def EngCfg.setIx (g : EngCfg) (r : RegsS) (n : Nat) (v : Int) : RegsS :=
  { r with ix := r.ix.set (g.xNo n) (Int.emod v (2 ^ g.w : Nat)).toNat }

/-- R419 the effective address of a format M word. -/
def EngCfg.ea (g : EngCfg) (r : RegsS) (x : Word) : Nat :=
  if fAm x = 0 then fAddr x else (g.ix r (fIx x) + fAddr x) % 2 ^ g.w

/-- R419 the address after one. -/
def EngCfg.succ (g : EngCfg) (a : Nat) : Nat := (a + 1) % 2 ^ g.w

/-- R419 post-increment and post-decrement. -/
def EngCfg.afterM (g : EngCfg) (r : RegsS) (x : Word) (step : Nat) : RegsS :=
  match fAm x with
  | 2 => g.setIx r (fIx x) ((g.ix r (fIx x) : Int) + step)
  | 3 => g.setIx r (fIx x) ((g.ix r (fIx x) : Int) - step)
  | _ => r

/-- R417, R418 the address field fits the width. -/
def EngCfg.addrOk (g : EngCfg) (x : Word) : Bool := decide (fAddr x < 2 ^ g.w)

/-- R417, R433 a target lies in the control store. -/
def EngCfg.targetOk (g : EngCfg) (x : Word) : Bool := decide (fT x < 2 ^ g.pcw)

end Sys2Proof.Machine
end

