-- ==== Sys2Proof/Machine/Flags.lean ====
section
/-! DEFINITION. Conditions, shifts, saturations and the flags word of the engines' instructions (R413, R425 to R427). -/
namespace Sys2Proof.Machine

/-- R413 sat32. -/
def satAcc32 (x : Int) : Int := clampInt (-2147483648) 2147483647 x
/-- R413 sat40. -/
def sat40 (x : Int) : Int := clampInt (-549755813888) 549755813887 x

/-- R413 shr, and R597 shr′ in instance B. -/
def EngCfg.shr (g : EngCfg) (rnd : Bool) (x : Int) (k : Nat) : Int :=
  if rnd then shrR x k else if g.mir then -(shrT (-x) k) else shrT x k

/-- R425, R597 condition c of BCZ; none where it is not assigned. -/
def EngCfg.cond (g : EngCfg) (c : Nat) (v : Int) : Option Bool :=
  let v := if g.mir then -v else v
  match c with
  | 0 => some (decide (v = 0))
  | 1 => some (decide (v ≠ 0))
  | 2 => some (decide (v < 0))
  | 3 => some (decide (0 ≤ v))
  | 4 => some (decide (0 < v))
  | 5 => some (decide (v ≤ 0))
  | _ => none

/-- What one PI step gives (R426): output, integrator, flags word. -/
structure PiOut where
  out   : Int
  acc   : Int
  flags : Nat
  deriving DecidableEq, Repr

/-- R426, R427 one PI step on mirrored values when `g` is instance B (R597): there p and step change sign, every comparison
turns round, and the flags stand for the mirrored limits. -/
def EngCfg.pi (g : EngCfg) (kp ki lo hi e acc : Int) (ksh : Nat) (aw rnd : Bool) : PiOut :=
  let neg (x : Int) : Int := if g.mir then -x else x
  let le (x y : Int) : Bool := if g.mir then decide (y ≤ x) else decide (x ≤ y)
  let lt (x y : Int) : Bool := if g.mir then decide (y < x) else decide (x < y)
  let least (x y : Int) : Int := if le x y then x else y
  let most (x y : Int) : Int := if le x y then y else x
  let lo := if lt hi lo then hi else lo
  let p := neg (2 * kp * e * 2 ^ ksh)
  let step := neg (2 * ki * e)
  let lo31 := lo * 65536
  let hi31 := hi * 65536
  let u0 := p + acc
  let hold := aw && ((le hi31 u0 && lt 0 step) || (le u0 lo31 && lt step 0))
  let i := sat40 (acc + (if hold then 0 else step))
  let i' := least (most i lo31) hi31
  let v := sat16 (g.shr rnd (p + i') 16)
  { out := least (most v lo) hi, acc := i',
    flags := b2n (lt hi v) + 2 * b2n (lt v lo) + 4 * b2n (lt hi31 i) + 8 * b2n (lt i lo31) + 16 * b2n hold }

end Sys2Proof.Machine
end

