-- ==== Sys2Proof/Machine/Isa.lean ====
section
/-! DEFINITION. What each instruction of the engines does to registers and data words (chapter 10, R597). An instruction
reads all operands before it writes; an exception writes nothing (R434). -/
namespace Sys2Proof.Machine

/-- What an instruction asks of its engine beside registers and data words. -/
inductive EngAct where
  | none
  /-- END. -/
  | finish
  /-- DSET. -/
  | dset
  /-- CHKPT with its number and values. -/
  | chkpt (id : Nat) (vals : List Half)
  /-- SIOR: D[d] takes the state word of pair p. -/
  | sior (d p : Nat)
  /-- SIOW: the demand of pair q, as the instance holds it. -/
  | siow (q : Nat) (v : Half)
  /-- PSTS: the payload of slot k. -/
  | psts (k : Nat) (vals : List Half)
  /-- PSTR: status and payload of slot k to ea. -/
  | pstr (k ea len : Nat)
  deriving DecidableEq, Repr

/-- The effect of an instruction: registers, data words in order of writing, and what it asks of its engine. -/
structure Plan where
  regs   : RegsS
  writes : List (Nat × Half)
  act    : EngAct
  deriving DecidableEq, Repr

/-- R420 the OP values that name an instruction. -/
def listedOp (op : Nat) : Bool :=
  [0x01, 0x02, 0x03, 0x04, 0x05, 0x06, 0x07, 0x08, 0x09, 0x0A, 0x0B, 0x0C, 0x0D, 0x10, 0x11, 0x12, 0x13, 0x14, 0x15, 0x16,
   0x17, 0x18, 0x19, 0x1A, 0x20, 0x21, 0x22, 0x23, 0x24, 0x25, 0x26, 0x27, 0x30, 0x31, 0x32, 0x33, 0x38, 0x39, 0x3A, 0x3B,
   0x3C].contains op

/-- R433 the next instruction; none at the last address of the control store. -/
def EngCfg.next (g : EngCfg) (r : RegsS) : Option RegsS :=
  if r.pc + 1 < 2 ^ g.pcw then some { r with pc := r.pc + 1 } else none

/-- An instruction that goes on to the next one. -/
def EngCfg.goOn (g : EngCfg) (r : RegsS) (writes : List (Nat × Half)) (act : EngAct) : Option Plan :=
  (g.next r).map fun r => { regs := r, writes := writes, act := act }

/-- An instruction that writes registers only. -/
def EngCfg.regOp (g : EngCfg) (r : RegsS) : Option Plan := g.goOn r [] .none

/-- A branch (R420). -/
def EngCfg.branch (g : EngCfg) (r : RegsS) (x : Word) (taken : Bool) : Option Plan :=
  if !g.targetOk x then none
  else if taken then some { regs := { r with pc := fT x }, writes := [], act := .none }
  else g.regOp r

/-- Format N: every field is 0 (R416). -/
def bareN (x : Word) : Bool := fld x 25 0 = 0

/-- 0x01 NOP. -/
def EngCfg.opNop (g : EngCfg) (r : RegsS) (x : Word) : Option Plan := if bareN x then g.regOp r else none
/-- 0x02 END: legal at the last address too (R433). -/
def EngCfg.opEnd (_ : EngCfg) (r : RegsS) (x : Word) : Option Plan :=
  if bareN x then some { regs := r, writes := [], act := .finish } else none
/-- 0x03 JMP. -/
def EngCfg.opJmp (g : EngCfg) (r : RegsS) (x : Word) : Option Plan := if fld x 25 16 = 0 then g.branch r x true else none
/-- 0x04 JAL. -/
def EngCfg.opJal (g : EngCfg) (r : RegsS) (x : Word) : Option Plan :=
  if fB x = 0 then g.branch (g.setBits r (fA x) (BitVec.ofNat 16 (r.pc + 1))) x true else none
/-- 0x05 JR. -/
def EngCfg.opJr (g : EngCfg) (r : RegsS) (x : Word) : Option Plan :=
  let t := (g.bits r (fB x)).toNat
  if fA x = 0 ∧ fld x 15 0 = 0 ∧ t < 2 ^ g.pcw then some { regs := { r with pc := t }, writes := [], act := .none } else none
/-- 0x06 BEQ. -/
def EngCfg.opBeq (g : EngCfg) (r : RegsS) (x : Word) : Option Plan :=
  g.branch r x (decide (g.d r (fA x) = g.d r (fB x)))
/-- 0x07 BNE. -/
def EngCfg.opBne (g : EngCfg) (r : RegsS) (x : Word) : Option Plan :=
  g.branch r x (decide (g.d r (fA x) ≠ g.d r (fB x)))
/-- 0x08 BLT. -/
def EngCfg.opBlt (g : EngCfg) (r : RegsS) (x : Word) : Option Plan :=
  g.branch r x (if g.mir then decide (g.d r (fB x) < g.d r (fA x)) else decide (g.d r (fA x) < g.d r (fB x)))
/-- 0x09 BGE. -/
def EngCfg.opBge (g : EngCfg) (r : RegsS) (x : Word) : Option Plan :=
  g.branch r x (if g.mir then decide (g.d r (fA x) ≤ g.d r (fB x)) else decide (g.d r (fB x) ≤ g.d r (fA x)))
/-- 0x0A BCZ. -/
def EngCfg.opBcz (g : EngCfg) (r : RegsS) (x : Word) : Option Plan :=
  match g.cond (fB x) (g.d r (fA x)) with
  | some b => g.branch r x b
  | none => none
/-- 0x0B LOOP. -/
def EngCfg.opLoop (g : EngCfg) (r : RegsS) (x : Word) : Option Plan :=
  if fA x < 4 ∧ fB x = 0 then
    let r' := g.setIx r (fA x) ((g.ix r (fA x) : Int) - 1)
    g.branch r' x (decide (g.ix r' (fA x) ≠ 0))
  else none
/-- 0x0C BBS and 0x0D BBC. -/
def EngCfg.opBit (g : EngCfg) (r : RegsS) (x : Word) (want : Bool) : Option Plan :=
  if fB x < 16 then g.branch r x ((g.bits r (fA x)).getLsbD (fB x) == want) else none

/-- 0x10 LD. -/
def EngCfg.opLd (g : EngCfg) (r : RegsS) (x : Word) : Option Plan :=
  let a := g.ea r x
  if fK x ≠ 0 ∨ g.addrOk x = false ∨ g.badR a then none
  else g.regOp (let r' := g.afterM r x 1; { r' with d := r'.d.set (g.dNo (fA x)) (g.rd a) })
/-- 0x11 ST. -/
def EngCfg.opSt (g : EngCfg) (r : RegsS) (x : Word) : Option Plan :=
  let a := g.ea r x
  if fK x ≠ 0 ∨ g.addrOk x = false ∨ g.badW a then none
  else g.goOn (g.afterM r x 1) [(a, r.d[g.dNo (fA x)])] .none
/-- 0x12 LDI. -/
def EngCfg.opLdi (g : EngCfg) (r : RegsS) (x : Word) : Option Plan :=
  if fB x = 0 then g.regOp (g.setBits r (fA x) (fImm x)) else none
/-- 0x13 MOV. -/
def EngCfg.opMov (g : EngCfg) (r : RegsS) (x : Word) : Option Plan :=
  if fld x 15 0 = 0 then g.regOp (g.setD r (fA x) (g.d r (fB x))) else none
/-- 0x14 LDA. -/
def EngCfg.opLda (g : EngCfg) (r : RegsS) (x : Word) : Option Plan :=
  let a := g.ea r x
  let b := g.succ a
  if fA x < 4 ∧ fK x = 0 ∧ g.addrOk x ∧ g.badR a = false ∧ g.badR b = false then
    g.regOp (g.setAcc (g.afterM r x 2) (fA x) (toSigned 32 ((g.rd a).toNat + 65536 * (g.rd b).toNat)))
  else none
/-- 0x15 STA. -/
def EngCfg.opSta (g : EngCfg) (r : RegsS) (x : Word) : Option Plan :=
  let a := g.ea r x
  let b := g.succ a
  if fA x < 4 ∧ fK x = 0 ∧ g.addrOk x ∧ g.badW a = false ∧ g.badW b = false then
    let v := signedBits 32 (satAcc32 (g.acc r (fA x)))
    g.goOn (g.afterM r x 2) [(a, BitVec.ofNat 16 v), (b, BitVec.ofNat 16 (v / 65536))] .none
  else none
/-- 0x16 LIX. -/
def EngCfg.opLix (g : EngCfg) (r : RegsS) (x : Word) : Option Plan :=
  if fA x < 4 ∧ fB x = 0 then g.regOp (g.setIx r (fA x) (fImm x).toNat) else none
/-- 0x17 AIX. -/
def EngCfg.opAix (g : EngCfg) (r : RegsS) (x : Word) : Option Plan :=
  if fA x < 4 ∧ fB x = 0 then g.regOp (g.setIx r (fA x) ((g.ix r (fA x) : Int) + (fImm x).toInt)) else none
/-- 0x18 MIX. -/
def EngCfg.opMix (g : EngCfg) (r : RegsS) (x : Word) : Option Plan :=
  if fld x 15 4 ≠ 0 then none
  else match fFn x with
    | 0 => if fA x < 4 then g.regOp (g.setIx r (fA x) (g.bits r (fB x)).toNat) else none
    | 1 => if fB x < 4 then g.regOp (g.setBits r (fA x) (BitVec.ofNat 16 (g.ix r (fB x)))) else none
    | _ => none
/-- 0x19 DSET, an exception in the safety executive (R429, R597). -/
def EngCfg.opDset (g : EngCfg) (r : RegsS) (x : Word) : Option Plan :=
  if bareN x && !g.se then g.goOn r [] .dset else none
/-- 0x1A SINCOS. -/
def EngCfg.opSincos (g : EngCfg) (r : RegsS) (x : Word) : Option Plan :=
  if fld x 15 0 ≠ 0 then none
  else
    let a := (g.bits r (fB x)).toNat
    g.regOp (g.setBits (g.setBits r (fA x) (BitVec.ofInt 16 (sin16 a))) (fA x + 1) (BitVec.ofInt 16 (cos16 a)))

/-- R421 the result of an ALU function; none where it is not assigned. -/
def EngCfg.aluFn (g : EngCfg) (r : RegsS) (x : Word) : Option RegsS :=
  let a := g.d r (fB x)
  let b := g.d r (fC x)
  let c := g.d r (fC x + 1)
  let num (v : Int) : Option RegsS := some (g.setD r (fA x) v)
  let pat (f : Half → Half → Half) : Option RegsS := some (g.setBits r (fA x) (f (g.bits r (fB x)) (g.bits r (fC x))))
  match fFn x with
  | 0 => num (sat16 (a + b))
  | 1 => num (sat16 (a - b))
  | 2 => num (if g.mir then max a b else min a b)
  | 3 => num (if g.mir then min a b else max a b)
  | 4 => pat (· &&& ·)
  | 5 => pat (· ||| ·)
  | 6 => pat (· ^^^ ·)
  | 7 => if fC x = 0 then num (sat16 (-a)) else none
  | 8 => if fC x = 0 then num (sat16 (if g.mir then -(a.natAbs : Int) else a.natAbs)) else none
  | 9 => num (if g.mir then (if b < c then c else max (min a b) c) else (if c < b then c else min (max a b) c))
  | _ => none
/-- 0x20 ALU. -/
def EngCfg.opAlu (g : EngCfg) (r : RegsS) (x : Word) : Option Plan :=
  if fld x 10 4 = 0 then (g.aluFn r x).bind g.regOp else none
/-- 0x21 ADDI. -/
def EngCfg.opAddi (g : EngCfg) (r : RegsS) (x : Word) : Option Plan :=
  let i := (fImm x).toInt
  g.regOp (g.setD r (fA x) (sat16 (g.d r (fB x) + (if g.mir then -i else i))))
/-- 0x22 to 0x24 ANDI, ORI, XORI. -/
def EngCfg.opLogic (g : EngCfg) (r : RegsS) (x : Word) (f : Half → Half → Half) : Option Plan :=
  g.regOp (g.setBits r (fA x) (f (g.bits r (fB x)) (fImm x)))
/-- 0x25 SHIFT (R422). -/
def EngCfg.opShift (g : EngCfg) (r : RegsS) (x : Word) : Option Plan :=
  let k := fSh x
  if fC x ≠ 0 ∨ fAc x ≠ 0 ∨ (fRnd x && fFn x != 1) then none
  else match fFn x with
    | 0 => g.regOp (g.setD r (fA x) (sat16 (g.d r (fB x) * 2 ^ k)))
    | 1 => g.regOp (g.setD r (fA x) (g.shr (fRnd x) (g.d r (fB x)) k))
    | 2 => g.regOp (g.setBits r (fA x) (g.bits r (fB x) <<< k))
    | 3 => g.regOp (g.setBits r (fA x) (g.bits r (fB x) >>> k))
    | _ => none
/-- A product as the instance forms it (R597). -/
def EngCfg.prod (g : EngCfg) (a b : Int) : Int := if g.mir then -(a * b) else a * b
/-- 0x26 MUL. -/
def EngCfg.opMul (g : EngCfg) (r : RegsS) (x : Word) : Option Plan :=
  if fAc x ≠ 0 ∨ fFn x ≠ 0 then none
  else g.regOp (g.setD r (fA x)
    (sat16 (g.shr (fRnd x) (g.prod (g.d r (fB x)) (g.d r (fC x)) * 2 ^ fSh x) 15)))
/-- 0x27 MULI. -/
def EngCfg.opMuli (g : EngCfg) (r : RegsS) (x : Word) : Option Plan :=
  g.regOp (g.setD r (fA x) (sat16 (shrR (g.d r (fB x) * (fImm x).toInt) 15)))
/-- 0x30 MAC (R423). -/
def EngCfg.opMac (g : EngCfg) (r : RegsS) (x : Word) : Option Plan :=
  let p := g.prod (g.d r (fB x)) (g.d r (fC x)) * 2 ^ (1 + fSh x)
  let a := g.acc r (fAc x)
  if fA x ≠ 0 ∨ fRnd x ∨ 8 ≤ fSh x then none
  else match fFn x with
    | 0 => g.regOp (g.setAcc r (fAc x) p)
    | 1 => g.regOp (g.setAcc r (fAc x) (sat40 (a + p)))
    | 2 => g.regOp (g.setAcc r (fAc x) (sat40 (a - p)))
    | _ => none
/-- R424 the result of an AOP function; none where fields that must be 0 are not, or the function is not assigned. -/
def EngCfg.aopFn (g : EngCfg) (r : RegsS) (x : Word) : Option Int :=
  let a := g.acc r (fAc x)
  let b := g.acc r (fB x)
  let d := g.d r (fB x) * 65536
  let sh := fSh x
  let noSh : Bool := sh == 0 && !fRnd x
  match fFn x with
  | 0 => if fB x = 0 ∧ noSh then some 0 else none
  | 1 => if fB x < 4 ∧ noSh then some (sat40 (a + b)) else none
  | 2 => if fB x < 4 ∧ noSh then some (sat40 (a - b)) else none
  | 3 => if fB x < 4 ∧ noSh then some b else none
  | 4 => if fB x = 0 ∧ noSh then some (sat40 (-a)) else none
  | 5 => if fB x = 0 ∧ noSh then some (satAcc32 a) else none
  | 6 => if fB x = 0 ∧ fRnd x = false then some (sat40 (a * 2 ^ sh)) else none
  | 7 => if fB x = 0 then some (g.shr (fRnd x) a sh) else none
  | 8 => if noSh then some d else none
  | 9 => if noSh then some (sat40 (a + d)) else none
  | _ => none
/-- 0x31 AOP. -/
def EngCfg.opAop (g : EngCfg) (r : RegsS) (x : Word) : Option Plan :=
  if fA x = 0 ∧ fC x = 0 then (g.aopFn r x).bind (fun v => g.regOp (g.setAcc r (fAc x) v)) else none
/-- 0x32 RACC. -/
def EngCfg.opRacc (g : EngCfg) (r : RegsS) (x : Word) : Option Plan :=
  if fB x = 0 ∧ fC x = 0 ∧ fFn x = 0 then
    g.regOp (g.setD r (fA x) (sat16 (g.shr (fRnd x) (g.acc r (fAc x) * 2 ^ fSh x) 16)))
  else none
/-- 0x33 PI (R426, R427). -/
def EngCfg.opPi (g : EngCfg) (r : RegsS) (x : Word) : Option Plan :=
  if 2 ≤ fFn x then none
  else
    let t := fC x
    let o := g.pi (g.d r t) (g.d r (t + 1)) (g.d r (t + 2)) (g.d r (t + 3)) (g.d r (fB x)) (g.acc r (fAc x))
      (fSh x % 8) (decide (8 ≤ fSh x)) (fRnd x)
    let r := g.setAcc (g.setD r (fA x) o.out) (fAc x) o.acc
    g.regOp (if fFn x = 1 then g.setBits r (fA x + 1) (BitVec.ofNat 16 o.flags) else r)

/-- 0x38 CHKPT. -/
def EngCfg.opChkpt (g : EngCfg) (r : RegsS) (x : Word) : Option Plan :=
  if g.se = false ∨ fld x 17 14 ≠ 0 then none
  else g.goOn r [] (.chkpt (fld x 13 0) ((List.range (fld x 20 18 + 1)).map (fun i => r.d[g.dNo (fA x + i)])))
/-- 0x39 SIOR. -/
def EngCfg.opSior (g : EngCfg) (r : RegsS) (x : Word) : Option Plan :=
  if g.se = false ∨ fB x ≠ 0 ∨ 24 ≤ fld x 15 0 then none else g.goOn r [] (.sior (fA x) (fld x 15 0))
/-- 0x3A SIOW. -/
def EngCfg.opSiow (g : EngCfg) (r : RegsS) (x : Word) : Option Plan :=
  if g.se = false ∨ fB x ≠ 0 ∨ 8 ≤ fld x 15 0 then none else g.goOn r [] (.siow (fld x 15 0) r.d[g.dNo (fA x)])
/-- The addresses of a block of words. -/
def EngCfg.block (g : EngCfg) (a n : Nat) : List Nat := (List.range n).map (fun i => (a + i) % 2 ^ g.w)
/-- 0x3B PSTS. -/
def EngCfg.opPsts (g : EngCfg) (r : RegsS) (x : Word) : Option Plan :=
  let len := fA x
  let as := g.block (g.ea r x) len
  if g.se = false ∨ len = 0 ∨ 24 < len ∨ g.addrOk x = false ∨ as.any g.badR then none
  else g.goOn (g.afterM r x len) [] (.psts (fK x) (as.map g.rd))
/-- 0x3C PSTR. -/
def EngCfg.opPstr (g : EngCfg) (r : RegsS) (x : Word) : Option Plan :=
  let len := fA x
  let as := g.block (g.ea r x) (len + 1)
  if g.se = false ∨ len = 0 ∨ 24 < len ∨ g.addrOk x = false ∨ as.any g.badW then none
  else g.goOn (g.afterM r x (len + 1)) [] (.pstr (fK x) (g.ea r x) len)

/-- R420, R433 the effect of the word `x` at the PC; none for an exception. -/
def EngCfg.plan (g : EngCfg) (r : RegsS) (x : Word) : Option Plan :=
  match opOf x with
  | 0x01 => g.opNop r x
  | 0x02 => g.opEnd r x
  | 0x03 => g.opJmp r x
  | 0x04 => g.opJal r x
  | 0x05 => g.opJr r x
  | 0x06 => g.opBeq r x
  | 0x07 => g.opBne r x
  | 0x08 => g.opBlt r x
  | 0x09 => g.opBge r x
  | 0x0A => g.opBcz r x
  | 0x0B => g.opLoop r x
  | 0x0C => g.opBit r x true
  | 0x0D => g.opBit r x false
  | 0x10 => g.opLd r x
  | 0x11 => g.opSt r x
  | 0x12 => g.opLdi r x
  | 0x13 => g.opMov r x
  | 0x14 => g.opLda r x
  | 0x15 => g.opSta r x
  | 0x16 => g.opLix r x
  | 0x17 => g.opAix r x
  | 0x18 => g.opMix r x
  | 0x19 => g.opDset r x
  | 0x1A => g.opSincos r x
  | 0x20 => g.opAlu r x
  | 0x21 => g.opAddi r x
  | 0x22 => g.opLogic r x (· &&& ·)
  | 0x23 => g.opLogic r x (· ||| ·)
  | 0x24 => g.opLogic r x (· ^^^ ·)
  | 0x25 => g.opShift r x
  | 0x26 => g.opMul r x
  | 0x27 => g.opMuli r x
  | 0x30 => g.opMac r x
  | 0x31 => g.opAop r x
  | 0x32 => g.opRacc r x
  | 0x33 => g.opPi r x
  | 0x38 => g.opChkpt r x
  | 0x39 => g.opSior r x
  | 0x3A => g.opSiow r x
  | 0x3B => g.opPsts r x
  | 0x3C => g.opPstr r x
  | _ => none

end Sys2Proof.Machine
end

