-- ==== Sys2Proof/Machine/Lanes.lean ====
section
/-! DEFINITION. The output chain of a channel (R129, R130, R134, R215 to R232, R444, R445, R778): what each stage demands of
the groups and of each leg, the interlock and the dead times below stage 6, and the gate, strength and AUX lanes. -/
namespace Sys2Proof.Machine

/-! ### Fault sources and the map (R439 to R446) -/

/-- A bit of an 11-bit source mask. -/
def srcBit (i : Nat) : BitVec 11 := BitVec.ofNat 11 (2 ^ i)

/-- NTC_EN (R469). -/
def Chan.ntcEn (c : Chan) : Bool := decide (1 ≤ c.therm.par[0])

/-- R440, R471 ACTIVE: the level sources that are active. -/
def Chan.active (c : Chan) : BitVec 11 :=
  let b (x : Bool) (i : Nat) : BitVec 11 := if x then srcBit i else 0
  b c.prot.trip[0].qual 0 ||| b c.prot.trip[1].qual 1 ||| b c.prot.trip[2].qual 2 ||| b c.prot.trip[3].qual 3 |||
  b c.core.isUnplugged 5 ||| b c.prot.sto 6 ||| b (c.prot.hot || c.therm.broken || c.therm.rise) 9

/-- ACTIVE without the PLG bit. -/
def Chan.activeNoPlg (c : Chan) : BitVec 11 := c.active &&& ~~~(srcBit 5)

/-- An action of an output group (R226). -/
inductive GroupAct where
  | hold
  | off
  | on
  deriving DecidableEq, Repr

/-- R444. -/
def groupAct (code : Nat) : GroupAct :=
  match code with
  | 0 => .hold
  | 2 => .on
  | _ => .off

/-- R227 ON prevails over OFF, and OFF over HOLD. -/
def GroupAct.join (a b : GroupAct) : GroupAct :=
  match a, b with
  | .on, _ => .on
  | _, .on => .on
  | .off, _ => .off
  | _, .off => .off
  | .hold, .hold => .hold

/-- The actions of a map entry on G_HS, G_LS and G_AUX, SPD and ASC_SIDE applied (R227, R445). -/
def entryActs (ascHigh slow : Bool) (w : Word) : GroupAct × GroupAct × GroupAct :=
  let spd (a : GroupAct) : GroupAct := if a = .on ∧ bitOf w 22 = true ∧ slow = true then .off else a
  let hs := spd (groupAct (fld w 17 16))
  let ls := spd (groupAct (fld w 19 18))
  let aux := spd (groupAct (fld w 21 20))
  if ascHigh then (ls, hs, aux) else (hs, ls, aux)

/-- R228 the sources whose actions apply. -/
def Chan.applying (c : Chan) : BitVec 11 := c.active ||| c.prot.held

/-- R226 to R228 the combined actions of the fault map at stage 4. -/
def Chan.stage4 (c : Chan) : GroupAct × GroupAct × GroupAct :=
  (List.finRange 11).foldl (fun a (i : Fin 11) =>
    if c.applying.getLsbD i then
      let e := entryActs c.ascHigh (c.prot.spdOff.getLsbD i) c.prot.map[i]
      (a.1.join e.1, a.2.1.join e.2.1, a.2.2.join e.2.2)
    else a) (.hold, .hold, .hold)

/-! ### The output chain (R224, R225, R778) -/

/-- R225 ASC on the side ASC_SIDE selects: actions of G_HS and G_LS. -/
def Chan.ascActs (c : Chan) : GroupAct × GroupAct := if c.ascHigh then (.on, .off) else (.off, .on)

/-- Stage 5 (R224): the lanes the state demands; HOLD where stage 6 or a built-in regulator drives them. -/
def Chan.stage5 (c : Chan) : GroupAct × GroupAct :=
  let allOff : GroupAct × GroupAct := (.off, .off)
  let driven : GroupAct × GroupAct := (.hold, .hold)
  let running : GroupAct × GroupAct :=
    match c.fcu.phase with
    | .wrongMotorAsc => c.ascActs
    | .catchAsc => c.ascActs
    | .probe => allOff
    | .waitRef => allOff
    | _ => if c.pwm.released then driven else allOff
  match c.core.code with
  | .run => running
  | .stopping => running
  | .brake => if c.fcu.pulseOff then allOff else c.ascActs
  | .discharge => (match c.fcu.dis with
    | some d => if d.mode = 0 then allOff else driven
    | none => allOff)
  | .ident => driven
  | _ => allOff

/-- R224 stages 1 to 5: the demand on G_HS and G_LS; HOLD where the modulation of stage 6 or a built-in regulator drives. -/
def Chan.lanes (c : Chan) (shut : Bool) : GroupAct × GroupAct :=
  if c.core.isUnplugged then (.off, .off)
  else if shut then (if c.core.s2Off then (.off, .off) else c.ascActs)
  else if c.core.stoActive then (if c.core.stoAsc then c.ascActs else (.off, .off))
  else
    let f := c.stage4
    let l := c.stage5
    (if f.1 = .hold then l.1 else f.1, if f.2.1 = .hold then l.2 else f.2.1)

/-- R225 ASC is what the lanes show. -/
def Chan.ascApplied (c : Chan) (shut : Bool) : Bool := c.lanes shut == c.ascActs

/-- R224 stage 6 drives the legs: RUN or STOPPING, released, start done, and nothing above it demands the lanes. -/
def Chan.modulating (c : Chan) (shut : Bool) : Bool :=
  (c.core.code == .run || c.core.code == .stopping) && c.pwm.released && c.fcu.startDone &&
  (c.lanes shut == (.hold, .hold))

/-- R230, R778 what CHn_AUX shows while the channel's pins do not keep their reset state. -/
def Chan.aux (c : Chan) : Bool :=
  if c.core.isUnplugged then false
  else match c.stage4.2.2 with
    | .on => true
    | .off => false
    | .hold => match c.auxMode with
      | 1 => c.prot.chopOn && !c.prot.chopFlt
      | 2 => (c.core.code == .discharge) && c.fcu.dis.any (fun d => d.mode ≠ 1)
      | 3 => (Cells.get 0 c.nle.out 0x28B).getLsbD 0
      | _ => false

/-! ### The demand on each leg (R130, R145, R224, R226) -/

/-- R145 the lanes of a leg at `d` ns of an identification. The instants at which a regulator or a pulse that may end early
switches are not fixed. -/
def Chan.identLeg (c : Chan) (leg : Fin 3) (d : Nat) : LegCmd :=
  let tp := atLeast1 (fld c.core.identCfg 31 24) * 250
  if d < 1000000 then .fixed false true
  else if d < 36000000 then (if leg = 0 then .pulses false none none else .fixed false true)
  else if d < 41000000 then .fixed false false
  else if d < 73000000 ∧ (d - 41000000) % 2000000 < tp then
    (if leg = 0 then .pulses false none (some false) else .pulses false (some false) none)
  else .fixed false false

/-- The lanes of every leg that one action of each group demands. -/
def groupLeg (a : GroupAct × GroupAct) : LegCmd := .fixed (a.1 == .on) (a.2 == .on)

/-- R352 the lanes of a leg during the probe: pulses PROBE_P apart, each T_PROBE long, on the side of ASC_SIDE. -/
def Chan.probeLeg (c : Chan) (t : Nat) : LegCmd :=
  let d := t - c.fcu.probeFrom
  let p := c.fcuPar 15 * 1000
  let on := decide (d / p < c.fcuPar 16) && decide (d % p < c.fcuPar 14 * 100)
  .fixed (on && c.ascHigh) (on && !c.ascHigh)

/-- R224 stage 5, and stage 6 below it, on a leg. -/
def Chan.leg5 (c : Chan) (t : Nat) (leg : Fin 3) : LegCmd :=
  let l := c.stage5
  if (c.core.code == .run || c.core.code == .stopping) && c.fcu.phase == .probe && c.pwm.released then c.probeLeg t
  else if l.1 ≠ .hold then groupLeg l
  else match c.core.code with
    | .ident => (match c.core.ident with
      | some i => c.identLeg leg (t - i.start)
      | none => .fixed false false)
    | .discharge => if leg = 0 then .pulses false none none else .fixed false true
    | _ => .pulses c.fcu.startDone none none

/-- R226 an action of a group over the command of one side of a leg. -/
def GroupAct.over (a : GroupAct) (below : Bool) : Bool :=
  match a with
  | .on => true
  | .off => false
  | .hold => below

/-- R226 an action of a group over the pulses of one side. -/
def GroupAct.hold? (a : GroupAct) (below : Option Bool) : Option Bool :=
  match a with
  | .on => some true
  | .off => some false
  | .hold => below

/-- A leg's pulses, or its standing command where both sides are held. -/
def legPulses (plan : Bool) (high low : Option Bool) : LegCmd :=
  match high, low with
  | some h, some l => .fixed h l
  | _, _ => .pulses plan high low

/-- R226 the group actions of stage 4 over a leg's demand below it. -/
def LegCmd.under (l : LegCmd) (f : GroupAct × GroupAct) : LegCmd :=
  match l with
  | .fixed h b => .fixed (f.1.over h) (f.2.over b)
  | .pulses p h b => legPulses p (f.1.hold? h) (f.2.hold? b)

/-- R224 the command of a leg: the first stage that makes a demand. Leg W of H_BRIDGE stays low under every one (R130). -/
def Chan.legCmd (c : Chan) (shut : Bool) (t : Nat) (leg : Fin 3) : LegCmd :=
  if c.core.isUnplugged || (c.stage = 1 && leg == 2) then .fixed false false
  else if shut || c.core.stoActive then groupLeg (c.lanes shut)
  else (c.leg5 t leg).under (c.stage4.1, c.stage4.2.1)

/-- R231 both commands of a leg are asserted: by a standing command, or by pulses of one side under an ON of the other. -/
def LegCmd.both : LegCmd → Bool
  | .fixed h l => h && l
  | .pulses _ h l => (h == some true) || (l == some true)

/-- R231 what the interlock leaves of a command. -/
def LegCmd.locked (c : LegCmd) : LegCmd :=
  match c with
  | .fixed h l => if h && l then .fixed false false else c
  | .pulses p h l =>
    if l == some true then .pulses p (some false) none
    else if h == some true then .pulses p none (some false)
    else c

/-! ### What a leg does in a carrier period (R198, R205, R215) -/

/-- Whether a count lies in an interval of a plan. -/
def inPulse (x : Nat × Option Nat) (k : Nat) : Bool := decide (x.1 ≤ k) && x.2.all (fun e => decide (k < e))

/-- The gate levels of a plan at a count, high side and low side. -/
def LegPlan.levels (p : LegPlan) (k : Nat) : Bool × Bool := (p.high.any (fun x => inPulse x k), p.low.any (fun x => inPulse x k))

/-- The edges of an interval: its turn-on, and its turn-off where it has one. -/
def pulseEdges (x : Nat × Option Nat) : List (Nat × Bool) := (x.1, true) :: (x.2.toList.map (fun e => (e, false)))

/-- The later of two edges; a turn-on where they coincide (R216). -/
def laterEdge (a : Option (Nat × Bool)) (e : Nat × Bool) : Option (Nat × Bool) :=
  match a with
  | none => some e
  | some x => if x.1 < e.1 ∨ (x.1 = e.1 ∧ e.2 = true) then some e else some x

/-- The last edge of a plan up to a count, where the switch was not already in that level before count 0. -/
def LegS.lastEdge (l : LegS) (k : Nat) : Option (Nat × Bool) :=
  let begun (on : Bool) (e : Nat × Bool) : Bool := !(e == (0, true) && on)
  let h := (l.plan.high.toList.flatMap pulseEdges).filter (begun l.highBefore)
  let b := (l.plan.low.flatMap pulseEdges).filter (begun l.lowBefore)
  let z : List (Nat × Bool) :=
    if (l.highBefore && !(l.plan.levels 0).1) || (l.lowBefore && !(l.plan.levels 0).2) then [(0, false)] else []
  ((z ++ h ++ b).filter (fun e => decide (e.1 ≤ k))).foldl laterEdge none

/-! ### The lanes of a leg (R215 to R217, R225, R231) -/

/-- The levels of a standing command at a tick count. -/
def LegOut.levels (o : LegOut) (x : Nat) : Bool × Bool :=
  (o.highOn.any (fun a => decide (a ≤ x)), o.lowOn.any (fun a => decide (a ≤ x)))

/-- The last edge of a leg under a standing command up to a tick count. -/
def LegOut.lastEdge (o : LegOut) (x : Nat) : Option (Nat × Bool) :=
  ((o.highOn.toList ++ o.lowOn.toList).filter (fun a => decide (a ≤ x))).foldl (fun e a => laterEdge e (a, true)) o.edge

/-- R215 the strength lane `d` after an edge: weak from PRE to PRE + SLOPE. -/
def strongAfter (profile : Word) (on : Bool) (d : Nat) : Bool :=
  let pre := (if on then fld profile 31 24 else fld profile 15 8) * tickU
  let slope := (if on then fld profile 23 16 else fld profile 7 0) * tickU
  !(decide (pre ≤ d) && decide (d < pre + slope))

/-- R215, R216 the strength lane of a leg whose last edge is known. -/
def strongAt (profile : Word) (edge : Option (Nat × Bool)) (x : Nat) : Bool :=
  match edge with
  | some e => strongAfter profile e.2 (x - e.1)
  | none => true

/-- R225, R231 a standing command takes over a leg whose levels are known: a switch that is commanded off falls at once, and
one that is commanded on rises once the dead time has passed since its partner fell, or since the interlock let it go. -/
def LegOut.command (o : LegOut) (x dtH dtL : Nat) (was : Bool × Bool) (freed : Bool) (cmd : LegCmd) (h l : Bool) : LegOut :=
  let hOff := if was.1 && !h then x else o.highOff
  let lOff := if was.2 && !l then x else o.lowOff
  { cmd := cmd
    highOn := if h then some (if was.1 then o.highOn.getD x else max x ((if freed then x else lOff) + dtH * tickU)) else none
    lowOn := if l then some (if was.2 then o.lowOn.getD x else max x ((if freed then x else hOff) + dtL * tickU)) else none
    highOff := hOff
    lowOff := lOff
    edge := if (was.1 && !h) || (was.2 && !l) then some (x, false) else o.edge }

/-- R224 the command of a leg changes at a tick count `x`. A leg under pulses hands over the levels and the last edge of its
plan; those of a regulator are not fixed, and count as off. The tail-drop pattern starts no profile (R217). -/
def LegOut.take (o : LegOut) (l : LegS) (tick0 x dtH dtL : Nat) (tail : Bool) (cmd : LegCmd) : LegOut :=
  if o.cmd = cmd then o
  else
    let k := (x - tick0) / sixteenth
    let was := match o.cmd with
      | .fixed _ _ => o.levels x
      | .pulses plan _ _ => if plan then l.plan.levels k else (false, false)
    let o := match o.cmd with
      | .fixed _ _ => { o with edge := o.lastEdge x }
      | .pulses plan _ _ =>
        if plan then { o with edge := (l.lastEdge k).elim o.edge (fun e => some (tick0 + e.1 * sixteenth, e.2)) }
        else { o with edge := none }
    let freed := o.cmd.both
    let o := match cmd.locked with
      | .fixed h b => o.command x dtH dtL was freed cmd h b
      | .pulses _ _ _ => { o with cmd := cmd, highOn := none, lowOn := none, highOff := x, lowOff := x }
    if tail then { o with edge := none } else o

/-- R224 every leg takes the command that now drives it. -/
def ChR.syncLegs (r : ChR) : ChR :=
  let c := r.c
  let x := c.ticksAt r.env.time r.env.t
  r.pwm (fun p => { p with outs := Vector.ofFn (fun i =>
    p.outs[i].take p.legs[i] p.tick0 x (fld p.dt 27 16) (fld p.dt 11 0) c.core.isUnplugged (c.legCmd r.env.shut r.env.t i)) })

/-- R160 before the island changes its source, a leg under pulses goes to the idle pattern; a standing command stays. -/
def ChR.legsIdle (r : ChR) : ChR :=
  let x := r.c.ticksAt r.env.time r.env.t
  r.pwm (fun p => { p with outs := Vector.ofFn (fun i =>
    match p.outs[i].cmd with
    | .fixed _ _ => p.outs[i]
    | .pulses _ _ _ =>
      p.outs[i].take p.legs[i] p.tick0 x (fld p.dt 27 16) (fld p.dt 11 0) r.c.core.isUnplugged (.fixed false false)) })

/-- The gate lanes of a leg at DTIME `t`, high side and low side: under a regulator's pulses they are free (log 10). -/
def Chan.gates (c : Chan) (x : TimeS) (free t : Nat) (leg : Fin 3) : Bool × Bool :=
  let n := c.ticksAt x t
  let o := c.pwm.outs[leg]
  match o.cmd.locked with
  | .fixed _ _ => o.levels n
  | .pulses plan h l =>
    let p := if plan then c.pwm.legs[leg].plan.levels ((n - c.pwm.tick0) / sixteenth)
      else (decide (Config.freeInt free (70 + leg.val) % 3 = 1), decide (Config.freeInt free (70 + leg.val) % 3 = 2))
    (h.getD p.1, l.getD p.2)

/-- R129, R215 to R217 the strength lane of a leg at DTIME `t`: high = strong. -/
def Chan.strength (c : Chan) (x : TimeS) (free t : Nat) (leg : Fin 3) : Bool :=
  let n := c.ticksAt x t
  let o := c.pwm.outs[leg]
  match o.cmd.locked with
  | .fixed _ _ => strongAt c.pwm.profile (o.lastEdge n) n
  | .pulses plan _ _ =>
    if plan then
      strongAt c.pwm.profile ((c.pwm.legs[leg].lastEdge ((n - c.pwm.tick0) / sixteenth)).elim o.edge
        (fun e => some (c.pwm.tick0 + e.1 * sixteenth, e.2))) n
    else decide (Config.freeInt free (73 + leg.val) % 2 = 1)

/-- R461 on_x and mod_x of the legs at DTIME `t`. -/
def Chan.lanesAt (c : Chan) (x : TimeS) (free t : Nat) : BitVec 3 × BitVec 3 :=
  (List.finRange 3).foldl (fun m (i : Fin 3) =>
    let g := c.gates x free t i
    let bit := 1#3 <<< i.val
    (if g.1 || g.2 then m.1 ||| bit else m.1, if c.pwm.outs[i].cmd == .pulses true none none then m.2 ||| bit else m.2)) (0, 0)

/-- R461 before anything changes, the lanes of a sample instant that has passed are taken. -/
def ChR.lanesFirst (r : ChR) : ChR :=
  match r.c.adc.slot with
  | some s =>
    if s.step = 0 ∧ s.lanes.isNone = true ∧ s.start + 60 < r.env.t then
      r.adc (fun a => { a with slot := some { s with lanes := some (r.c.lanesAt r.env.time r.env.free (s.start + 60)) } })
    else r
  | none => r

/-- R231 the legs on which both commands are asserted. -/
def Chan.bothAsserted (c : Chan) (shut : Bool) (t : Nat) : BitVec 3 :=
  (List.finRange 3).foldl (fun m (i : Fin 3) => if (c.legCmd shut t i).both then m ||| (1#3 <<< i.val) else m) 0

end Sys2Proof.Machine
end

