-- ==== Sys2Proof/Machine/Protect.lean ====
section
/-! DEFINITION. The transitions of the channel state (R132), and taking a fault, an unplug or a safe-torque-off (R439 to
R452): the operations every channel command is written over. -/
namespace Sys2Proof.Machine

/-! ### Event data -/

/-- R783. -/
def Chan.stateData (c : Chan) : List EvField :=
  [u8 16 c.core.code.num, u8 17 c.core.prev.num, u8 18 c.core.cause,
   u8 19 (b2n c.core.verified + 2 * b2n (!c.core.isUnplugged) + 4 * b2n c.core.stoActive),
   u16 20 c.active.toNat, u16 22 (c.prot.firstSrc + 16 * c.prot.firstCause), u8 24 c.setGroup]

/-- R371 every FCU event carries SET_GROUP in byte 31. -/
def ChR.fcuEvent (r : ChR) (code : Nat) (data : List EvField) : ChR := r.event code (data ++ [u8 31 r.c.setGroup])

/-- A corrected VBUS code in 10 mV (R329). -/
def Chan.vbus10mV (c : Chan) : Nat := (rndDiv (c.adc.vbus * c.fcuPar 5) 16384).toNat

/-- R358, R359 the discharge is over, with the outcome and the stamp of its event. -/
def ChR.reportDischarge (r : ChR) (outcome stamp : Nat) : ChR :=
  match r.c.fcu.dis with
  | some d => r.eventAt 0x1067 stamp [u8 16 outcome, u8 17 d.mode, u32 20 r.c.vbus10mV, u32 24 ((stamp - d.start) / 1000000),
      u8 31 r.c.setGroup]
  | none => r

/-! ### Stopping what runs in the channel -/

/-- R300 the sector of a Hall state S = 4 × H3 + 2 × H2 + H1, none for the invalid states 0 and 7. -/
def hallOf (state : Nat) : Option Nat :=
  match state with
  | 1 => some 0
  | 3 => some 1
  | 2 => some 2
  | 6 => some 3
  | 4 => some 4
  | 5 => some 5
  | _ => none

/-- R295 the position state reset; configuration and pins stand. -/
def PosS.resetState (p : PosS) : PosS :=
  { p with
    count := 0
    rev := 0
    n := 0
    speed := 0
    uncertain := false
    still := true
    down := false
    dirKnown := false
    acquire := true
    referenced := false
    slip := 0
    errRun := 0
    invRun := 0
    sector := hallOf p.pins.toNat }

/-- R159, R168 the PLL stops and the island runs on the idle oscillator: lock sequence, carrier and requests end. -/
def ChR.stopPll (r : ChR) : ChR :=
  let switched := r.c.core.onPll
  let r := r.when switched (fun r => r.legsIdle.switchClock false)
  let r := r.tb (fun b => { b.keepCal r.env.t with
    state := .idle, seqFrom := none, seqBegan := none, picked := false, calDue := 0, req := {}, change := none, realign := {},
    lengthened := false, coastFrom := none })
  let r := r.pwm (fun p => { p with count0 := none, midDone := false, extra := 0, periodReq := {}, duty := {} })
  if switched then r.adc (fun a => { a with hkAt := none, freeNo := 0, xchkAt := 0, slot := none }) else r

/-- R148, R149 the identification ends by an abort, with the phase resistance if step 3 was done. -/
def ChR.abortIdent (r : ChR) (reason : Nat) (rs : Option Nat) : ChR :=
  match r.c.core.ident with
  | none => r
  | some _ =>
    let m := min (rs.getD 0) 1048575
    let r := r.core (fun c => { c with ident := none, verified := false, identLs := 0,
                                       identRs := pack [(24, 8, reason), (0, 20, m)] })
    let r := r.event 0x1012 [u32 16 m, u32 20 0, u8 24 0, u8 25 reason]
    r.finish [0x18] stOk 0 (reason * 256)

/-- R148 the phase resistance that an abort reports: step 3's, once it has been completed. -/
def ChR.rsAtAbort (r : ChR) : Option Nat := r.c.core.ident.bind (·.rsMeas)

/-- R734 the loop-back test ends: RESULT and event LB_TEST_DONE; a position test leaves the position state reset (R321). -/
def ChR.endLb (r : ChR) (fails : Nat) (reason : Nat) : ChR :=
  match r.c.core.lb with
  | none => r
  | some l =>
    let us := (r.env.t - l.start) / 1000
    let result := b2n (fails == 0 && reason == 0) + 2 * (fails % 32) + 256 * reason
    let r := r.core (fun c => { c with lb := none })
    let r := if l.target = 1 then r.pos (fun p => ({ p with pins := l.balls } : PosS).resetState) else r
    let r := r.event 0x1090 [u8 16 l.target, u8 17 l.depth, u16 18 result, u16 20 (min us 65535)]
    r.finish [0x19] stOk 0 (result + 65536 * min us 65535)

/-- R279 the threshold of comparator `k`. -/
def AdcS.threshold (a : AdcS) (k : Fin 5) : Nat :=
  match k with
  | 0 => fld a.cmpA 9 0
  | 1 => fld a.cmpA 19 10
  | 2 => fld a.cmpB 9 0
  | 3 => fld a.cmpB 19 10
  | 4 => fld a.cmpA 29 20

/-- R279 comparator `k` is under test at DTIME `t`: each takes 4 µs, one after the other (log 14). -/
def AdcS.underTest (a : AdcS) (t : Nat) (k : Fin 5) : Bool :=
  a.cmpTest.any (fun f => decide (f + 4000 * k.val ≤ t) && decide (t < f + 4000 * (k.val + 1)))

/-- The index of a trip input among FLTN, OC_U, OC_V, OV2 (R229). -/
def tripIdx : TripSrc → Fin 4
  | .fltn => 0
  | .ocU => 1
  | .ocV => 2
  | .ov2 => 3

/-- R263 the source of a comparator. -/
def cmpSource (k : Fin 5) : TripSrc := if k.val < 2 then .ocU else if k.val < 4 then .ocV else .ov2

/-- R264 a source's level before its filter. -/
def cmpLevel (live : BitVec 5) (s : TripSrc) : Bool :=
  match s with
  | .fltn => false
  | .ocU => live.getLsbD 0 || live.getLsbD 1
  | .ocV => live.getLsbD 2 || live.getLsbD 3
  | .ov2 => live.getLsbD 4

/-- R229 the level of a source before its filter, with the first sample of a new level. -/
def ChR.setRaw (r : ChR) (s : TripSrc) (level : Bool) : ChR :=
  let x := r.c.prot.trip[(tripIdx s)]
  if x.raw = level then r
  else r.prot (fun p => { p with trip := p.trip.set (tripIdx s) { x with raw := level, since := r.env.t } })

/-- R263 the hysteresis of a comparator, 8 to 16 mV, in µV: a free value (log 10). -/
def cmpHyst (k : Fin 5) : Nat := 8000 + Config.cmpHyst k.val % 8001

/-- R263 a margin, in µV × 1,024, by which a pin has gone back beyond the threshold: whether the comparator is still active. -/
def cmpHeld (k : Fin 5) (back : Nat) (was : Bool) : Bool :=
  if back ≤ 8000 * 1024 then was else if 16000 * 1024 < back then false else was && decide (back ≤ cmpHyst k * 1024)

/-- R263 the output of comparator `k` at a pin voltage, with its threshold in steps of 3.0 V / 1,024. The _LO comparators are
1 and 3. -/
def cmpNext (k : Fin 5) (thr uv : Nat) (was : Bool) : Bool :=
  let v := uv * 1024
  let t := thr * 3000000
  if k.val = 1 ∨ k.val = 3 then (if v < t then true else cmpHeld k (v - t) was)
  else if t < v then true else cmpHeld k (t - v) was

/-- The comparators under test (R280). -/
def AdcS.underTestMask (a : AdcS) (t : Nat) : BitVec 5 :=
  (List.finRange 5).foldl (fun m (k : Fin 5) => if a.underTest t k then m ||| (1#5 <<< k.val) else m) 0

/-- R263, R264, R280 a source's level before its filter: comparators under test take no part. -/
def ChR.feedSource (r : ChR) (s : TripSrc) : ChR :=
  r.setRaw s (cmpLevel (r.c.adc.live &&& ~~~(r.c.adc.underTestMask r.env.t)) s)

/-- R279 the two test values of a comparator, on the scale of R263: the one that must make it active, and the one that must
release it. -/
def testValues (k : Fin 5) (thr : Nat) : Nat × Nat :=
  if k.val = 1 ∨ k.val = 3 then (thr - 16, min 1023 (thr + 16)) else (min 1023 (thr + 16), thr - 16)

/-- R279 a comparator whose threshold cannot be passed by its test values. -/
def AdcS.passable (a : AdcS) (k : Fin 5) : Bool :=
  let thr := a.threshold k
  let v := testValues k thr
  cmpNext k thr (v.1 * 3000000 / 1024) false && !cmpNext k thr (v.2 * 3000000 / 1024) true

/-- R279 step 5 a comparator that has been tested sees its pin again, and the filter of its source restarts. -/
def ChR.restartFilter (r : ChR) (s : TripSrc) : ChR :=
  let r := r.feedSource s
  r.prot (fun p =>
    let x := p.trip[(tripIdx s)]
    { p with trip := p.trip.set (tripIdx s) (if x.raw && !x.qual then { x with since := r.env.t } else x) })

/-- R281 the comparator self-test ends: RESULT and event CMP_TEST_DONE. -/
def ChR.endCmpTest (r : ChR) (fails : BitVec 5) (aborted : Bool) : ChR :=
  match r.c.adc.cmpTest with
  | none => r
  | some _ =>
    let r := r.adc (fun a => { a with cmpTest := none, cmpFail := if aborted then a.cmpFail ||| fails else fails })
    let r := ((r.restartFilter .ocU).restartFilter .ocV).restartFilter .ov2
    let r := r.event 0x1043 [u8 16 fails.toNat, u8 17 (b2n aborted), u8 18 r.c.core.code.num]
    r.finish [0x17] stOk 0 (fails.toNat + 256 * b2n aborted)

/-- R281 the FAIL bits of the comparators tested so far when the test is aborted: those that no test value can pass fail,
and what the others' tests found is free (log 10). -/
def ChR.failsSoFar (r : ChR) : BitVec 5 :=
  match r.c.adc.cmpTest with
  | none => 0
  | some f => (List.finRange 5).foldl (fun (m : BitVec 5) (k : Fin 5) =>
      if f + 4000 * (k.val + 1) ≤ r.env.t ∧
          (r.c.adc.passable k = false ∨ Config.freeInt r.env.free (54 + k.val) % 2 = 1) then m ||| (1#5 <<< k.val)
      else m) 0

/-- R387, R390 the loop engine disabled: pending triggers other than HOST are dropped. -/
def ChR.disableNle (r : ChR) : ChR :=
  if r.c.nle.enabled then
    r.nle (fun e => { e with enabled := false, disabledAt := some r.env.t,
                             pend := #v[none, none, none, e.pend[3]] })
  else r

/-! ### The transitions (R132) -/

/-- R159 the states whose entry stops the PLL. -/
def ChCode.stopsPll (c : ChCode) : Bool :=
  match c with
  | .off => true
  | .ready => true
  | .unplugged => true
  | .ident => true
  | .wrongMotor => true
  | .locked => true
  | _ => false

/-- R279 the states in which CH_CMP_TEST is permitted. -/
def ChCode.cmpTestOk (c : ChCode) : Bool :=
  match c with
  | .off => true
  | .ready => true
  | .armed => true
  | .unplugged => true
  | .wrongMotor => true
  | _ => false

/-- R376, R451, R241, R291, R408, R471 what an entry into ARMED from OFF or READY clears, and R259 the auto-zero it starts. -/
def ChR.freshArmed (r : ChR) : ChR :=
  let r := r.pwm (fun p => { p with lateCnt := 0, xcmdCnt := 0 })
  let r := r.adc (fun a => { a with
    capMerge := 0
    xchkRun := 0
    az := if bitOf a.cfgIn 13 then some { slots := 0, u := none, v := none } else none })
  let r := r.nle (fun e => { e with
    lateCnt := 0
    ovrCnt := 0
    first := true
    regs := { e.regs with d := Vector.replicate 32 0, acc := Vector.replicate 4 0, ix := Vector.replicate 4 0 } })
  r.prot (fun p => { p with latched := 0, stamps := [], n := 0 })

/-- What every entry into ARMED does: engine enabled, DIR_CMD loaded (R385), no duty set (R209), slots counted anew. -/
def ChR.intoArmed (r : ChR) : ChR :=
  let r := r.pwm (fun p => { p with set := none, setValid := false, duty := {}, release := false, released := false,
                                    periodNo := -1, legs := Vector.replicate 3 {} })
  let r := r.adc (fun a => { a with xchkAt := 0 })
  r.nle (fun e => { e with
    enabled := true
    disabledAt := none
    out := Cells.set 0 e.out 0x28D (if bitOf r.c.fcu.cfgIn 26 then 1 else 0) })

/-- R139, R734, R359 what the state left was waiting for ends: held CH_ARM and CH_RUN, a loop-back test, a discharge. -/
def ChR.leaveWaits (r : ChR) (new : ChCode) (cause : Nat) : ChR :=
  let r := r.when (r.c.tb.seqBegan.isSome && new != .armed) (fun r => r.finish [0x10] stAborted new.num 0)
  let r := r.when (r.c.core.code == .armed && new != .run) (fun r => r.finish [0x11] stAborted new.num 0)
  let r := r.endLb 0 (match new with
    | .unplugged => 2
    | .safe => 3
    | .tripped => if cause = 0x60 then 4 else 1
    | _ => 1)
  match r.c.fcu.dis with
  | some _ =>
    let r := r.when (cause ≠ 0x22) (fun r => r.reportDischarge 2 r.env.t)
    r.fcu (fun f => { f with dis := none })
  | none => r

/-- R159, R139 whether a transition stops the PLL: it enters a state without one, ends a lock sequence, or enters DISCHARGE
from elsewhere than ARMED. -/
def Chan.pllEnds (c : Chan) (new : ChCode) : Bool :=
  new.stopsPll || (c.tb.seqBegan.isSome && new != .armed) || (c.core.code != .armed && new == .discharge)

/-- TRIPPED or LOCKED. -/
def ChCode.inTrip (c : ChCode) : Bool := c == .tripped || c == .locked

/-- R228 a source's actions end when the channel has left TRIPPED and LOCKED; R20 LOCKED is left; R449 LOCKED waits for no
retry. -/
def ChR.leaveTrip (r : ChR) (old new : ChCode) : ChR :=
  let r := r.when (old.inTrip && !new.inTrip) (fun r =>
    (((r.prot (fun p => { p with held := 0, wait := none })).adc (fun a => { a with flt := false })).pos
      (fun p => { p with flt := false })).core (fun c => { c with thermal := false }))
  let r := r.when (old == .locked && new != .locked) (fun r => r.core (fun c => { c with rwlDrop := 0 }))
  r.when (new == .locked) (fun r => r.prot (fun p => { p with wait := none }))

/-- R387 the loop engine enabled or disabled by a transition, and what an entry into ARMED sets up. -/
def ChR.intoEngine (r : ChR) (old new : ChCode) : ChR :=
  let r := r.when new.stopsPll ChR.disableNle
  let r := r.when (new == .armed) ChR.intoArmed
  r.when (new == .armed && (old == .off || old == .ready)) ChR.freshArmed

/-- RUN or STOPPING. -/
def ChCode.drives (c : ChCode) : Bool := c == .run || c == .stopping

/-- R224 what a transition takes off the lanes: modulation, an auto-zero, a brake, a discharge. -/
def ChR.leaveLanes (r : ChR) (old new : ChCode) : ChR :=
  let r := r.when (old.drives && !new.drives) (fun r =>
    (r.pwm (fun p => { p with released := false, release := false, duty := {}, set := none })).fcu
      (fun f => { f with
        startFrom := none
        phase := .idle
        blend := 0
        blendDir := .steady
        obs := { f.obs with lock := false }
        hfi := { f.hfi with lock := false }
        injected := false
        probeUse := false }))
  let r := r.when (old == .armed && new != .run) (fun r =>
    (r.pwm (fun p => { p with release := false })).adc (fun a => { a with az := none }))
  let r := r.when (old == .brake) (fun r => r.fcu (fun f => { f with phase := .idle, pulseOff := false }))
  r.when (old == .discharge) (fun r => r.fcu (fun f => { f with phase := .idle }))

/-- R131, R152 the codes change. -/
def ChR.setCode (r : ChR) (old new : ChCode) (cause : Nat) : ChR :=
  r.core (fun c => { c with
    code := new, prev := old, cause := cause
    stopFrom := if new == .stopping then some r.env.t else none
    thermal := (c.thermal && new == .tripped) || (new == .tripped && cause == 0x60) })

/-- R132 the transition taken: what the old state held ends, the codes change, and STATE_CHANGED is raised. -/
def ChR.goto (r : ChR) (new : ChCode) (cause : Nat) : ChR :=
  let old := r.c.core.code
  let stops := r.c.pllEnds new
  let r := ((r.leaveWaits new cause).when stops ChR.stopPll).leaveTrip old new
  let r := ((r.intoEngine old new).leaveLanes old new).setCode old new cause
  let r := r.when (!new.cmpTestOk) (fun r => r.endCmpTest r.failsSoFar true)
  r.event 0x1001 r.c.stateData

/-- OFF/READY (R131): READY when VERIFIED is 1. -/
def Chan.idleCode (c : Chan) : ChCode := if c.core.verified then .ready else .off

/-- OFF/READY, or UNPLUGGED if unplugged (R132). -/
def Chan.restCode (c : Chan) : ChCode := if c.core.isUnplugged then .unplugged else c.idleCode

/-! ### Qualifications and trips (R439 to R449) -/

/-- A qualification: source index, cause, stamp (R439). -/
structure Qual where
  src   : Nat
  cause : Nat
  stamp : Nat
  deriving DecidableEq, Repr

/-- R439 the retry class of a cause: whether it is retriable while the entry's RETRY bit is 1. -/
def retryClass (src cause : Nat) : Bool :=
  match src with
  | 0 => true
  | 1 => true
  | 2 => true
  | 3 => cause == 0
  | 8 => cause == 0
  | 9 => cause ≠ 1
  | 10 => true
  | _ => false

/-- A map entry by source. -/
def Chan.mapEntry (c : Chan) (src : Nat) : Word := c.prot.map.toList.getD src 0

/-- R439, R446 whether a qualification is retriable. -/
def Chan.retriable (c : Chan) (q : Qual) : Bool := retryClass q.src q.cause && bitOf (c.mapEntry q.src) 23

/-- R467 RETRY_WINDOW in ns. -/
def Chan.retryWindow (c : Chan) : Nat := atLeast1 (fld c.prot.retry 31 18) * 100000000
/-- R467 RETRY_MAX. -/
def Chan.retryMax (c : Chan) : Nat := fld c.prot.retry 17 14
/-- R467 RETRY_WAIT in ns. -/
def Chan.retryWait (c : Chan) : Nat := clampNat 1 10000 (fld c.prot.retry 13 0) * 1000000

/-- The event of a trip (R472), with the stamp of its qualification (log 58). -/
def ChR.protTrip (r : ChR) (stamp src cause n : Nat) (new : ChCode) : ChR :=
  r.eventAt 0x1080 stamp [u8 16 src, u8 17 cause, u8 18 new.num, u8 19 n, u16 20 r.c.active.toNat]

/-- R447, R449, R781 a trip: qualifications of one tick, in ascending source order, in a state that trips. -/
def ChR.trip (r : ChR) (q : Qual) (qs : List Qual) : ChR :=
  let all := q :: qs
  let old := r.c.core.code
  let stamps := (q.stamp :: r.c.prot.stamps).take 16
  let n := (stamps.filter (fun x => decide (q.stamp ≤ x + r.c.retryWindow))).length
  let stays := all.all (fun x => r.c.retriable x) && decide (n ≤ r.c.retryMax)
  let mask := all.foldl (fun m x => m ||| srcBit x.src) 0
  let therm := q.src == 9
  let r := r.prot (fun p => { p with stamps := stamps, held := p.held ||| mask, nLast := n })
  if stays then
    if old == .tripped then
      let r := if r.c.core.thermal then r else r.prot (fun p => { p with wait := some (q.stamp, therm) })
      r.protTrip q.stamp q.src q.cause n .tripped
    else
      let r := r.prot (fun p => { p with
        firstSrc := q.src, firstCause := q.cause, firstAt := some q.stamp, n := n, wait := some (q.stamp, therm) })
      (r.protTrip q.stamp q.src q.cause n .tripped).goto .tripped 0x30
  else
    let r := r.prot (fun p => { p with
      firstSrc := q.src, firstCause := q.cause, firstAt := some q.stamp, n := n, wait := none })
    (r.protTrip q.stamp q.src q.cause n .locked).goto .locked 0x31

/-- R443 the channel is in TRIPPED or LOCKED by its latest trip, and that has the stamp of a qualification. -/
def Chan.joins (c : Chan) (stamp : Nat) : Bool := c.core.code.inTrip && c.prot.stamps.head? == some stamp

/-- R443 qualifications of the tick of the latest trip are part of it: their actions last as its do, FIRST_SRC takes the lowest
source, and a cause that is not retriable latches the channel. -/
def ChR.joinTrip (r : ChR) (q : Qual) (qs : List Qual) : ChR :=
  let all := q :: qs
  let mask := all.foldl (fun m x => m ||| srcBit x.src) 0
  let r := r.prot (fun p => { p with held := p.held ||| mask })
  let r := r.when (r.c.prot.firstAt == some q.stamp && decide (q.src < r.c.prot.firstSrc))
    (fun r => r.prot (fun p => { p with firstSrc := q.src, firstCause := q.cause }))
  if r.c.core.code == .tripped && !all.all (fun x => r.c.retriable x) then
    (r.protTrip q.stamp r.c.prot.firstSrc r.c.prot.firstCause r.c.prot.nLast .locked).goto .locked 0x31
  else r

/-- R441 whether a qualification trips in this state. -/
def ChCode.trips (c : ChCode) : Bool :=
  match c with
  | .armed => true
  | .run => true
  | .stopping => true
  | .brake => true
  | .discharge => true
  | .tripped => true
  | _ => false

/-- R441, R443 qualifications of one tick, in ascending source order, the first one apart. -/
def ChR.qualify (r : ChR) (q : Qual) (qs : List Qual) : ChR :=
  let all := q :: qs
  let r := r.prot (fun p => { p with latched := all.foldl (fun m x => m ||| srcBit x.src) p.latched })
  if r.c.joins q.stamp then r.joinTrip q qs
  else if r.c.core.code.trips then r.trip q qs
  else if r.c.core.code == .ident then (r.abortIdent 2 r.rsAtAbort).goto .off 0x54
  else
    let r := if r.c.core.code == .safe then r.core (fun c => { c with safeLocks := true }) else r
    all.foldl (fun r x => r.emit (.limited 0x1086 (x.src + 1) x.stamp 20
      [u8 16 x.src, u8 17 x.cause, u8 18 r.c.core.code.num])) r

/-- R318 source POS qualifies: POS_FAULT and POS_FLT. -/
def ChR.qualifyPos (r : ChR) (cause info : Nat) (stamp : Nat) : ChR :=
  let r := (r.eventAt 0x1054 stamp [u8 16 cause, u8 17 info]).pos (fun p => { p with flt := true })
  r.qualify { src := 10, cause := cause, stamp := stamp } []

/-- R278 source ADC qualifies: ADC_FAULT and ADC_FLT. -/
def ChR.qualifyAdc (r : ChR) (cause : Nat) (stamp : Nat) : ChR :=
  let r := (r.eventAt 0x1040 stamp [u8 16 cause, u8 17 r.c.adc.xchkRun, u16 20 r.c.adc.vbus, u16 22 r.c.adc.vbusB]).adc
    (fun a => { a with flt := true })
  r.qualify { src := 7, cause := cause, stamp := stamp } []

/-- R394 source LATE qualifies: the run stops, pending triggers are dropped and ABORT is set. An engine that is stopped
with a HOST run or trigger leaves its NLE_MAILBOX to its deadline. -/
def ChR.qualifyLate (r : ChR) (cause : Nat) (stamp : Nat) : ChR :=
  let e := r.c.nle
  let r := r.eventAt 0x1072 stamp [u8 16 cause, u8 17 e.entry.num, u16 18 e.regs.pc]
  let r := r.nle (fun e => { e with run := none, pend := Vector.replicate 4 none, orphans := 0,
                                    flags := e.flags ||| 4#32 })
  r.qualify { src := 8, cause := cause, stamp := stamp } []

/-- R442, R282 an entry into ARMED finds level sources active, or a comparator test failed. -/
def ChR.armedChecks (r : ChR) : ChR :=
  let a := r.c.active
  let t := r.env.t
  let therm := if r.c.therm.broken then 1 else if r.c.prot.hot then 0 else 2
  let qs := (if a.getLsbD 0 then [⟨0, 0, t⟩] else []) ++ (if a.getLsbD 1 then [⟨1, 0, t⟩] else []) ++
    (if a.getLsbD 2 then [⟨2, 0, t⟩] else []) ++ (if a.getLsbD 3 then [⟨3, 0, t⟩] else []) ++
    (if a.getLsbD 6 then [⟨6, 0, t⟩] else []) ++ (if r.c.adc.cmpFail ≠ 0 then [⟨7, 2, t⟩] else []) ++
    (if a.getLsbD 9 then [Qual.mk 9 therm t] else [])
  let r := if r.c.adc.cmpFail ≠ 0 then
      (r.event 0x1040 [u8 16 2, u8 17 r.c.adc.xchkRun, u16 20 r.c.adc.vbus, u16 22 r.c.adc.vbusB]).adc
        (fun a => { a with flt := true })
    else r
  match qs with
  | [] => r
  | q :: rest => r.qualify q rest

/-- R232, R233 one XCMD event on a leg. -/
def ChR.xcmd (r : ChR) (leg : Fin 3) : ChR :=
  let t := r.env.t
  let near := (t, false) :: (r.c.pwm.xcmds.filter (fun x => decide (t ≤ x.1 + 1000000)))
  let r := r.pwm (fun p => { p with xcmdCnt := satInc 255 p.xcmdCnt, xcmds := near,
                                    flags := p.flags ||| (0x100#32 <<< leg.val) })
  let r := if r.c.prot.held.getLsbD 4 then r else r.event 0x1030 [u8 16 leg.val, u8 17 (min near.length 3)]
  if 3 ≤ (near.filter (fun x => !x.2)).length then
    (r.pwm (fun p => { p with xcmds := near.map (fun x => (x.1, true)) })).qualify { src := 4, cause := 0, stamp := t } []
  else r

/-- Everything that follows from the channel as a command leaves it: the end of a flux-linkage ASC (R363), the one-way rules
of ASC (R445, R611, R682), BRAKE_SLOW (R357) and the interlock (R232). -/
def ChR.settle (r : ChR) : ChR :=
  let slow (r : ChR) : Bool := !(ascAbove (r.c.ascSpeed r.env.t) r.env.stoSpeed)
  let r := if r.c.fcu.phase == .wrongMotorAsc && slow r then r.goto .wrongMotor 0x55 else r
  let r := if slow r then
      (r.core (fun c => { c with stoAsc := false, s2Off := c.s2Off || r.env.shut })).prot
        (fun p => { p with spdOff := p.spdOff ||| r.c.applying })
    else r
  let r := r.prot (fun p => { p with spdOff := p.spdOff &&& r.c.applying })
  let r := if r.env.shut then r else r.core (fun c => { c with s2Off := false })
  let r := if r.c.core.code == .brake && !r.c.fcu.brakeSlow && !(ascAbove (r.c.ascSpeed r.env.t) (r.c.fcuPar 29)) then
      (r.fcuEvent 0x1066 [u32 20 (ascReport (r.c.ascSpeed r.env.t))]).fcu (fun f => { f with brakeSlow := true })
    else r
  let both := r.c.bothAsserted r.env.shut r.env.t
  let rises := both &&& ~~~r.c.pwm.both
  let r := r.pwm (fun p => { p with both := both })
  let r := (List.finRange 3).foldl (fun r (i : Fin 3) => r.when (rises.getLsbD i) (fun r => r.xcmd i)) r
  let r := r.syncLegs
  let r := r.when (!r.c.modulating r.env.shut) (fun r => r.prot (fun p => { p with power := [] }))
  if r.c.ascApplied r.env.shut then r
  else r.fcu (fun f => { f with ascOmega := none, ascLow := none })

/-! ### Unplug, safe-torque-off, die thermal shutdown -/

/-- R140 to R142 a qualified unplug with its stamp. -/
def ChR.unplug (r : ChR) (stamp : Nat) : ChR :=
  let before := r.c.core.code
  let r := r.core (fun c => { c with isUnplugged := true, debounce := none, unplugCnt := satInc 65535 c.unplugCnt })
  let r := r.prot (fun p => { p with latched := p.latched ||| srcBit 5 })
  let r := r.eventAt 0x1010 stamp [u8 16 before.num, u32 20 r.c.core.unplugCnt]
  let r := r.abortIdent 4 r.rsAtAbort
  let r := r.core (fun c => { c with verified := false })
  let r := r.endLb 0 2
  if before == .safe || before == .locked || before == .unplugged then r else r.goto .unplugged 0x50

/-- R611 a safe-torque-off request, or a change of its type. -/
def ChR.stoRequest (r : ChR) (allOff : Bool) : ChR :=
  if r.c.core.stoActive then
    (if allOff then r.core (fun c => { c with stoAsc := false }) else r).settle
  else
    let from' := r.c.core.code
    let r := r.abortIdent 5 r.rsAtAbort
    let r := r.core (fun c => { c with stoActive := true, stoAsc := !allOff,
                                       safeLocks := from' == .tripped || from' == .locked })
    (r.goto .safe 0x40).settle

/-- R132 the SE releases the request: LOCKED, UNPLUGGED or OFF/READY. -/
def ChR.stoRelease (r : ChR) : ChR :=
  if r.c.core.stoActive then
    let r := r.core (fun c => { c with stoActive := false, stoAsc := false })
    (r.goto (if r.c.core.safeLocks then .locked else r.c.restCode) 0x41).settle
  else r

/-- R683, R781 a die thermal shutdown reaches the channel. -/
def ChR.dieShutdown (r : ChR) : ChR :=
  match r.c.core.code with
  | .safe => r.settle
  | .locked => r.settle
  | .unplugged => r.settle
  | _ =>
    let r := r.abortIdent 7 r.rsAtAbort
    ((r.prot (fun p => { p with wait := none })).goto .tripped 0x60).settle

/-- R685 basking ends: TRIPPED after a die thermal shutdown leads to OFF/READY. -/
def ChR.baskEnd (r : ChR) : ChR :=
  if r.c.core.code == .tripped && r.c.core.thermal then (r.goto r.c.idleCode 0x61).settle else r.settle

/-! ### The device around a channel -/

/-- R31 VCORE_CTRL.MARGIN. -/
def SupS.margin (p : SupS) : Nat := atLeast1 (fld p.vctrl 7 0)

/-- R30, R33, R34 the slack of a run and its interval: for a unit that is measured the window's minimum, and for every run in
ADAPT mode a raise of VCORE. A late run in FIXED mode does not stop a later lowering (DESIGN CHOICE, log 114). -/
def State.noteSlack (s : State) (slack : Int) (interval : Nat) (measured : Bool) : State :=
  let p := s.sup
  let least := if !measured then p.slack else match p.slack with
    | some (x, i) => if slack * (i : Int) < x * (interval : Int) then some (slack, interval) else p.slack
    | none => some (slack, interval)
  if bitOf p.vctrl 31 = false then { s with sup := { p with slack := least } }
  else if slack < 0 then
    { s with sup := { p with vnow := 240, noLower := s.dtime + 1000000000, slack := none, windowAt := s.dtime } }
  else if slack * 512 < (p.margin * interval : Nat) then
    { s with sup := { p with vnow := min 240 (p.vnow + 20), slack := none, windowAt := s.dtime } }
  else { s with sup := { p with slack := least } }

/-- Something a channel hands out, as the device acts on it. -/
def State.chOut (s : State) (n : ChanId) : ChOut → State
  | .event code stamp data => s.raiseUnit code (chUnit n) stamp data
  | .limited code key stamp off data =>
    let (ls, count) := limitHitKey s.limits (chUnit n) code key s.dtime
    let s := { s with limits := ls }
    match count with
    | some k => s.raiseUnit code (chUnit n) stamp (if off = 0 then data else data ++ [u16 off k])
    | none => s
  | .finish ops status detail result => s.finish (chUnit n) ops status detail result
  | .slack slack interval measured => s.noteSlack slack interval measured

/-- R7 the cluster of a channel is out of service (R709). -/
def State.clusterFailed (s : State) (n : ChanId) : Bool := s.dev.clFail.getLsbD (n.val / 16)

/-- R129, R707 to R710, R713, R719 the pins of a channel keep their reset state: before READY, once the supply or the start
sequence has withdrawn them, and where its cluster is out of service. -/
def State.pinsHeld (s : State) (n : ChanId) : Bool :=
  !s.powered || s.dev.phase == .starting || s.dev.phase == .shutdown || s.clusterFailed n

/-- R129 the high-side and low-side gate pins of a leg now. -/
def State.gatePins (s : State) (n : ChanId) (leg : Fin 3) : Bool × Bool :=
  if s.pinsHeld n then (false, false) else s.chans[n].gates s.time s.freeCtr s.dtime leg

/-- R129 CHn_AUX now. -/
def State.auxPin (s : State) (n : ChanId) : Bool := !s.pinsHeld n && s.chans[n].aux

/-- R129 the strength lane of a leg now: high = strong; undriven while the main supply is off. -/
def State.strengthPin (s : State) (n : ChanId) (leg : Fin 3) : Option Bool :=
  if !s.supplied then none
  else some (s.pinsHeld n || s.chans[n].strength s.time s.freeCtr s.dtime leg)

/-- R604 bit `n` of a group of released output words. -/
def SeS.bit (e : SeS) (base : Nat) (n : ChanId) : Bool :=
  (Cells.get 0 e.released (base + n.val / 16)).getLsbD (n.val % 16)

/-- R608, R610, R614 the released outputs are masked. -/
def State.seMasked (s : State) : Bool := !s.dev.seSplit && (s.se.lockout || s.se.state == .halted)

/-- R613, R614 RUN_PERMIT of a channel as it acts. -/
def State.permit (s : State) (n : ChanId) : Bool :=
  if s.dev.seSplit then s.se.state != .init else !s.seMasked && s.se.bit 0x1420 n

/-- R613, R614 the DETAIL with which the safety executive refuses, 0 where it permits: in split mode always but in INIT, where
R704 and R709 refuse every channel (log 128). -/
def State.refusal (s : State) (n : ChanId) : Nat :=
  if s.dev.seSplit && s.se.state != .init then 0
  else if s.se.state != .run then 1
  else if s.se.lockout then 2
  else if s.se.bit 0x1420 n then 0
  else 3

/-- R184, R679 the hotter of the two die sensors of a channel's cluster, 0.1 °C. -/
def State.dieTemp (s : State) (n : ChanId) : Int :=
  max (s.hk.inp[n.val / 16 * 2]'(by omega)).value (s.hk.inp[n.val / 16 * 2 + 1]'(by omega)).value

/-- What channel `n` sees of the device. -/
def State.chEnv (s : State) (n : ChanId) : ChEnv :=
  { t := s.dtime, free := s.freeCtr, refaOk := s.time.refaOk, refaKHz := s.time.refaKHz, time := s.time,
    dieTemp := s.dieTemp n, shut := s.hk.shut, basking := s.hk.basking, failed := s.clusterFailed n, stoSpeed := s.se.stoSpeed, permit := s.permit n }

/-- The channel as a command of it finds it. -/
def State.chanIn (s : State) (n : ChanId) : ChR := ({ env := s.chEnv n, c := s.chans[n], out := [] } : ChR).lanesFirst

/-- An operation of channel `n` alone: the channel replaced, then what it hands out acted on. -/
def State.onChan (s : State) (n : ChanId) (f : ChOp) : State :=
  let r := f (s.chanIn n)
  r.out.foldl (fun s o => s.chOut n o) { s with chans := s.chans.set n r.c }

/-- A command that happens in channel `n` at DTIME `t`: nothing but time passes while the main supply is off. -/
def State.chCmd (s : State) (t : Nat) (n : ChanId) (f : ChOp) : Result :=
  let s := s.at t
  .next (if s.powered then s.onChan n (fun r => (f r).settle) else s)

end Sys2Proof.Machine
end

