-- ==== Sys2Proof/Machine/TimeBase.lean ====
section
/-! DEFINITION. The channel time base (chapter 04): lock sequence, band changes, realign, coast. -/
namespace Sys2Proof.Machine

/-! ### Requests that take effect at an update point (R202, R779) -/

/-- R195 the carrier count now, 20.4 ticks. -/
def ChR.count (r : ChR) : Nat := r.c.countAt r.env.time r.env.t

/-- R202 now lies at or after the beginning of the commit window before a tick count, 8 ticks before it. -/
def ChR.near (r : ChR) (v : Nat) : Bool := decide (v ≤ r.c.ticksAt r.env.time r.env.t + 8 * tickU)

/-- R202 now lies before a tick count. -/
def ChR.before (r : ChR) (v : Nat) : Bool := decide (r.c.ticksAt r.env.time r.env.t < v)

/-- R202, R779 a request made now comes too late for the next count 0. -/
def ChR.lateForBoundary (r : ChR) : Bool := r.c.pwm.count0.isSome && r.near r.c.nextTick

/-- R202, R203 a request made: the last one whose handshake completed before the window counts. -/
def Due.put {α : Type} (d : Due α) (late : Bool) (x : α) : Due α :=
  if late then { d with next := some x } else { d with now := some x }

/-- After an update point: what completed inside its window is due at the next one. -/
def Due.advance {α : Type} (d : Due α) : Due α := { now := d.next, next := none }

/-- What is due at an update point stays due at the next one, unless a later request replaces it. -/
def Due.hold {α : Type} (d : Due α) (x : α) : Due α := { now := some (d.next.getD x), next := none }

/-- A request is made and not yet taken. -/
def Due.pending {α : Type} (d : Due α) : Bool := d.now.isSome || d.next.isSome

/-- R167 the REFA periods that have passed since STATE was entered, 10^-6 × 2^-20. -/
def ChR.sinceState (r : ChR) : Nat := r.env.time.phase r.env.t - r.c.tb.stateRef

/-- STATE changes: the counter is set anew, and R167 counts from here. -/
def ChR.toState (r : ChR) (st : TbState) : ChR :=
  r.retick.tb (fun b => { b with state := st, stateRef := r.env.time.phase r.env.t })

/-! ### Lock sequence (R166 to R170, R784) -/

/-- R166 step 2: the entries that are VALID. -/
def TbS.validMask (b : TbS) : BitVec 8 :=
  (List.finRange 8).foldl (fun m (i : Fin 8) => if b.bands[i].valid then m ||| (1#8 <<< i.val) else m) 0

/-- R166 step 2: how many they are. -/
def TbS.validCount (b : TbS) : Nat := (b.bands.toList.filter (·.valid)).length

/-- R170, R784 the entry of a lock sequence: the one BAND_SEL names, or 0. -/
def TbS.startEntry (b : TbS) : Fin 8 := if b.bands[b.sel].valid then b.sel else 0

/-- R166 step 1, at the next REFA edge. The first one of a sequence picks the entry (R784). -/
def ChR.step1 (r : ChR) : ChR :=
  let p := r.env.time.phase r.env.t
  let edge := (p + refU - 1) / refU * refU
  let rate := atLeast1 (r.env.refaKHz * 2 ^ 20)
  r.tb (fun b =>
    let e := if b.picked then b.entry else b.startEntry
    { b with
      seqFrom := some (r.env.t + (edge - p + rate - 1) / rate)
      stateRef := edge
      picked := true
      calDue := b.validMask
      calCount := b.validCount
      entry := e
      sel := if b.picked then b.sel else e
      word := if b.picked then b.word else b.bands[e].word })

/-- R166 step 1 of a new sequence; with REFA absent the sequence waits there (R169). A sequence that runs keeps its entry. -/
def ChR.startLock (r : ChR) : ChR :=
  let r := r.tb (fun b => { b.keepCal r.env.t with seqBegan := some r.env.t, seqFrom := none, failRaised := false, clampRaised := 0,
                                                   state := .idle })
  r.when r.env.refaOk ChR.step1

/-- R163 TB_N_CLAMP, once per entry and lock, for the entry in use. -/
def ChR.noteClamp (r : ChR) : ChR :=
  let b := r.c.tb
  if tbClamped r.env.refaKHz b.word && !(b.clampRaised.getLsbD b.entry) then
    (r.event 0x1026 [u8 16 b.entry, u8 17 b.entry, u32 20 (tbClk r.env.refaKHz b.word / 2 ^ 20)]).tb
      (fun b => { b with clampRaised := b.clampRaised ||| (1#8 <<< b.entry.val) })
  else r

/-- R167 lock may be detected in step 3: 256 REFA periods of it have passed, and 500 µs have not (R168). -/
def ChR.lockReached (r : ChR) (f : Nat) : Bool :=
  decide (r.c.tb.lockingFrom f ≤ r.env.t) && decide (r.env.t ≤ r.c.tb.lockingFrom f + 500000) &&
  decide (4000 * r.c.tb.calCount * r.env.refaKHz * 2 ^ 20 + 256 * refU ≤ r.sinceState)

/-- R166 step 4: lock detected; the island switches to the PLL at a REFA edge, and the carrier waits for the grid. -/
def ChR.lockDetected (r : ChR) : ChR :=
  match r.c.tb.seqFrom with
  | some f =>
    if r.c.tb.state == .idle && r.env.refaOk && r.lockReached f then
      let r := r.tb (fun b => b.keepCal r.env.t)
      let r := (r.switchClock true).toState .aligning
      (r.adc (fun a => { a with hkAt := none, freeNo := 0, slot := none })).noteClamp
    else r
  | none => r

/-- R183 coast is entered, for cause 0 REFA lost or 1 lock lost; with REFA present the relock begins at once (R185). -/
def ChR.coast (r : ChR) (cause stamp : Nat) : ChR :=
  ((r.eventAt 0x1023 stamp [u8 16 r.c.tb.entry, u8 17 cause]).toState
    (if cause = 1 ∧ r.env.refaOk then .relocking else .coast)).tb
    (fun b => { b with coastFrom := some r.env.t, coastLimit := false, coastTemp := r.env.dieTemp })

/-- R172 the tick count of the first grid instant at or after the island has taken the PLL. -/
def Chan.firstGrid (c : Chan) : Nat :=
  c.tb.ticks + toGrid c.tb.phaseOfs (actPeriod c.pwm.period * sixteenth) c.tb.ticks

/-- R166 step 5: carrier count 0 on the next grid instant; the channel enters ARMED. -/
def ChR.tbLocked (r : ChR) : ChR :=
  match r.c.tb.seqBegan with
  | some s =>
    if r.c.tb.state == .aligning then
      let v := r.c.firstGrid
      match r.reach v with
      | none => r
      | some r =>
        let t := r.env.t
        let r := (r.toState .locked).tb (fun b => { b with
          seqFrom := none, seqBegan := none, picked := false, offGrid := false, realign := {}, lengthened := false,
          lockCnt := satInc 255 b.lockCnt, anchor := t % 2 ^ 32, ssFrom := r.env.time.phase t })
        let r := r.event 0x1020 [u8 16 r.c.tb.entry, u32 20 (t - s)]
        let r := r.goto .armed 0x10
        let r := r.pwm (fun p => { p with count0 := some t, tick0 := v, first0 := v, prev0 := (v, v), extra := 0,
                                          midDone := false, periodNo := 0, slotNo := (-1, -1) })
        (r.finish [0x10] stOk 0 0).armedChecks
    else r
  | none => r

/-- R168 lock not detected within 500 µs of step 3: the sequence restarts. That it keeps the TB_BAND word it took at its first
step 1, even where the entry in use has been written since, is the model's choice (log 124). -/
def ChR.tbLockFail (r : ChR) : ChR :=
  match r.c.tb.seqFrom with
  | some f =>
    let d := r.c.tb.lockingFrom f + 500000
    if r.c.tb.state == .idle && timedOut d r.env.t then
      let r := if r.c.tb.failRaised then r else r.eventAt 0x1021 d [u8 16 r.c.tb.entry, u8 17 3]
      (r.tb (fun b => { b.keepCal r.env.t with failRaised := true, seqFrom := none })).when r.env.refaOk ChR.step1
    else r
  | none => r

/-! ### Grid and realign (R174, R175) -/

/-- R174 the channel leaves the grid; R175, R779 with REALIGN_AUTO a realign is requested, for the next count 0 or, inside
its commit window, for the one after. -/
def TbS.leaveGrid (late : Bool) (b : TbS) : TbS :=
  if b.offGrid then b
  else { b with offGrid := true, realign := if bitOf b.ctrl 27 then b.realign.put late () else b.realign }

/-- R175, R779 a realign requested by a write. -/
def ChR.requestRealign (r : ChR) : ChR :=
  if r.c.pwm.count0.isSome then r.tb (fun b => { b with realign := b.realign.put r.lateForBoundary () }) else r

/-- R175 what the period that begins at the last count 0 needs so that the next one falls on a grid instant. -/
def ChR.lengthening (r : ChR) : Nat :=
  let x := r.env.time
  let p := actPeriod r.c.pwm.period * sixteenth
  let late := r.c.ticksAt x r.env.t - r.c.pwm.tick0
  toGrid r.c.tb.phaseOfs p ((r.c.gridAt x r.env.t + (late / p + 1) * p - late) % p)

/-! ### Band changes (R176 to R180, R208, R785) -/

/-- R177 TB_BAND_INVALID. -/
def ChR.bandInvalid (r : ChR) (entry : Fin 8) (program : Bool) : ChR :=
  r.event 0x1027 [u8 16 r.c.tb.entry, u8 17 entry, u8 18 (b2n program)]

/-- R176, R177, R785 a band request from the host or the loop program; one for an entry that is not VALID is ignored. -/
def ChR.requestBand (r : ChR) (entry : Fin 8) (program : Bool) : ChR :=
  if r.c.tb.bands[entry].valid then
    r.tb (fun b => { b with req := b.req.put r.lateForBoundary { entry := entry, program := program } })
  else r.bandInvalid entry program

/-- R208, R397 whether a PERIOD and a word may be in force together. -/
def ChR.rangeOk (r : ChR) (w : BitVec 26) (period : Nat) : Bool :=
  carrierOk r.env.refaKHz w period r.c.pwm.updIn && r.c.periodFits period &&
  (!r.c.nle.enabled || r.c.budgetFits r.env.refaKHz w period r.c.pwm.updIn (sofsOf r.c.adc.cfgIn))

/-- R208 a refusal. -/
def ChR.refuse (r : ChR) (source asked : Nat) : ChR :=
  (r.pwm (fun p => { p with flags := p.flags ||| 0x800#32 })).event 0x1032 [u8 16 source, u32 20 asked]

/-- R207, R208 the PERIOD request due at a BOUNDARY. -/
def ChR.takePeriod (r : ChR) : ChR :=
  match r.c.pwm.periodReq.now with
  | none => r
  | some (p, program) =>
    if r.rangeOk r.c.tb.word p then
      let r := if actPeriod p ≠ actPeriod r.c.pwm.period then r.tb (TbS.leaveGrid false) else r
      r.pwm (fun x => { x with period := p })
    else r.refuse (b2n program) p

/-- R178, R785 a band change begins at a BOUNDARY: the word and the entry in use are the new ones. -/
def ChR.changeBand (r : ChR) (q : BandReq) (w : BitVec 26) : ChR :=
  let glide := bitOf r.c.tb.ctrl 28
  let clk := r.c.clkAt r.env.time r.env.t
  (r.toState (if glide then .gliding else .hopping)).tb (fun b => ({ b with
    sel := q.entry, entry := q.entry, word := w,
    change := some { entry := q.entry, glide := glide, start := r.env.t, ref := b.stateRef, clk := clk } } : TbS).leaveGrid false)

/-- R176 to R180, R785 the band request due at a BOUNDARY. It stays due while its entry is not calibrated, and while a
change or a coast is under way. An entry that has lost VALID since the request is ignored (log 106). -/
def ChR.takeBand (r : ChR) : ChR :=
  let b := r.c.tb
  let drop (r : ChR) : ChR := r.tb (fun b => { b with req := b.req.advance })
  match b.req.now with
  | none => drop r
  | some q =>
    let e := b.bands[q.entry]
    if e.valid = false then drop (r.bandInvalid q.entry q.program)
    else if e.cal = false || b.change.isSome || b.state != .locked then r.tb (fun b => { b with req := b.req.hold q })
    else if !(carrierOk r.env.refaKHz e.word r.c.pwm.period r.c.pwm.updIn) ||
        (r.c.nle.enabled &&
          !(r.c.budgetFits r.env.refaKHz e.word r.c.pwm.period r.c.pwm.updIn (sofsOf r.c.adc.cfgIn))) then
      drop (r.refuse 2 q.entry)
    else if q.entry = b.entry ∧ actWord e.word = actWord b.word then drop r
    else drop (r.changeBand q e.word)

/-- R182 a band change completes: the modulation restarts at its next phase 0, and an entry that is clamped is told
(R163). -/
def ChR.endChange (r : ChR) : ChR :=
  ((r.toState .locked).tb (fun b => { b with change := none, hopCnt := (b.hopCnt + 1) % 256, ssFrom := b.stateRef })).noteClamp

/-- R167, R178 lock after a HOP: 256 REFA periods after its start, and no later than 60 µs (R179). -/
def ChR.hopLocked (r : ChR) : ChR :=
  match r.c.tb.change with
  | some h =>
    if r.c.tb.state == .hopping && decide (256 * refU ≤ r.sinceState) && decide (r.env.t ≤ h.start + 60000) then r.endChange
    else r
  | none => r

/-- R178 a GLIDE has reached its target. -/
def ChR.glideDone (r : ChR) : ChR :=
  match r.c.tb.change with
  | some g =>
    if r.c.tb.state == .gliding &&
        decide (r.c.tb.glideNeeds r.env.refaKHz g.clk r.c.tb.tickClk ≤ r.c.tb.elapsed r.env.time r.env.t) then r.endChange
    else r
  | none => r

/-- R179 a HOP not locked within 60 µs is a lock loss. -/
def ChR.hopTimeout (r : ChR) : ChR :=
  match r.c.tb.change with
  | some h =>
    if r.c.tb.state == .hopping && timedOut (h.start + 60000) r.env.t then r.coast 1 (h.start + 60000) else r
  | none => r

/-! ### Coast (R183 to R186) -/

/-- R167, R183 lock is lost with REFA present, after 16 REFA periods out of its limit; masked during a HOP (R179). -/
def ChR.lockLost (r : ChR) : ChR :=
  let b := r.c.tb
  if (b.state == .locked || b.state == .gliding || b.state == .aligning) && r.env.refaOk &&
      decide (16 * refU ≤ r.sinceState) then r.coast 1 r.env.t
  else r

/-- R183 REFA is lost: a running PLL enters coast; a relock in progress goes back to it; a lock sequence waits at step 1
(R169). -/
def ChR.refaLost (r : ChR) : ChR :=
  match r.c.tb.state with
  | .aligning => r.coast 0 r.env.t
  | .locked => r.coast 0 r.env.t
  | .hopping => r.coast 0 r.env.t
  | .gliding => r.coast 0 r.env.t
  | .relocking => r.toState .coast
  | .coast => r
  | _ => r.tb (fun b => { b.keepCal r.env.t with seqFrom := none })

/-- R185, R169 REFA is valid again: a coasting PLL relocks, and a sequence that waits takes its step 1. -/
def ChR.refaRestored (r : ChR) : ChR :=
  let r := r.when (r.c.tb.state == .coast) (fun r => r.toState .relocking)
  r.when (r.c.tb.seqBegan.isSome && r.c.tb.state == .idle && r.c.tb.seqFrom.isNone) ChR.step1

/-- R185 lock ends coast: a HOP or GLIDE that it interrupted goes on, and a lock sequence goes on at step 5 (log 107). -/
def ChR.tbRelocked (r : ChR) : ChR :=
  match r.c.tb.coastFrom with
  | some f =>
    if r.c.tb.state == .relocking && r.env.refaOk && decide (256 * refU ≤ r.sinceState) then
      let st : TbState := if r.c.tb.seqBegan.isSome then .aligning else
        match r.c.tb.change with
        | some h => if h.glide then .gliding else .hopping
        | none => .locked
      let late := r.lateForBoundary
      let r := (r.toState st).tb (fun b => ({ b with
        change := b.change.map (fun h => { h with start := r.env.t, ref := b.stateRef, clk := b.tickClk })
        coastFrom := none
        ssFrom := b.stateRef } : TbS).leaveGrid late)
      let r := if st == .aligning then r.switchClock true else r
      (r.event 0x1024 [u8 16 r.c.tb.entry, u32 20 (min ((r.env.t - f) / 1000) 0xFFFFFFFF)]).noteClamp
    else r
  | none => r

/-- R186 coast has lasted COAST_MAX. -/
def ChR.coastLimit (r : ChR) : ChR :=
  match r.c.tb.coastFrom with
  | some f =>
    let ms := fld r.c.tb.profile 7 0
    let d := f + ms * 1000000
    if ms ≠ 0 ∧ r.c.tb.coastLimit = false ∧ timedOut d r.env.t = true then
      let r := (r.eventAt 0x1025 d [u8 16 r.c.tb.entry, u32 20 ms]).tb (fun b => { b with coastLimit := true })
      r.qualifyLate 1 d
    else r
  | none => r

/-! ### The rows -/

/-- R166, LOCK_DETECTED. -/
def execLockDetected (t : Nat) (n : ChanId) (s : State) : Result := s.chCmd t n ChR.lockDetected
/-- R166, TB_LOCKED. -/
def execTbLocked (t : Nat) (n : ChanId) (s : State) : Result := s.chCmd t n ChR.tbLocked
/-- R168, TB_LOCK_FAIL. -/
def execTbLockFail (t : Nat) (n : ChanId) (s : State) : Result := s.chCmd t n ChR.tbLockFail
/-- R167, LOCK_LOST. -/
def execLockLost (t : Nat) (n : ChanId) (s : State) : Result := s.chCmd t n ChR.lockLost
/-- R185, TB_RELOCKED. -/
def execTbRelocked (t : Nat) (n : ChanId) (s : State) : Result := s.chCmd t n ChR.tbRelocked
/-- R186, TB_COAST_LIMIT. -/
def execTbCoastLimit (t : Nat) (n : ChanId) (s : State) : Result := s.chCmd t n ChR.coastLimit
/-- R178, HOP_LOCKED. -/
def execHopLocked (t : Nat) (n : ChanId) (s : State) : Result := s.chCmd t n ChR.hopLocked
/-- R178, GLIDE_DONE. -/
def execGlideDone (t : Nat) (n : ChanId) (s : State) : Result := s.chCmd t n ChR.glideDone
/-- R179, HOP_TIMEOUT. -/
def execHopTimeout (t : Nat) (n : ChanId) (s : State) : Result := s.chCmd t n ChR.hopTimeout
/-- R164, BAND_CALIBRATED: the shadow oscillator finishes an entry. -/
def execBandCalibrated (t : Nat) (n : ChanId) (entry : Fin 8) (s : State) : Result :=
  s.chCmd t n (fun r => r.tb (fun b => { b with bands := b.bands.set entry { b.bands[entry] with cal := true } }))

end Sys2Proof.Machine
end

