-- ==== Sys2Proof/Machine/Angle.lean ====
section
/-! DEFINITION. The angle and speed of the rotor by source (R334 to R337), and the end of a start (R348). -/
namespace Sys2Proof.Machine

/-! ### The words the loop program writes -/

/-- A word that the program writes into the I/O space (R380). -/
def Chan.outWord (c : Chan) (a : Nat) : Nat := (Cells.get 0 c.nle.out a).toNat

/-- A 32-bit value of the I/O space, the low half at the lower address (R380). -/
def Chan.outLong (c : Chan) (a : Nat) : Nat := c.outWord a + 65536 * c.outWord (a + 1)

/-! ### Sources (R334 to R337) -/

/-- R335 θ of ENC. -/
def Chan.encTheta (c : Chan) : Nat :=
  let n := c.cpr
  let (count, ofs) := match c.fcu.aligned with
    | none => (c.pos.count, c.fcuPar 0)
    | some a => ((c.pos.count + n - a % n) % n, 0)
  (count * c.polePairs % n * 65536 / n + ofs + c.fcuPar 2) % 65536

/-- R336 the boundary angle of count-ordered sector k, before the offsets. -/
def hallEdge (k : Nat) : Nat := k * 65536 / 6

/-- R334 ω of ENC: the position speed scaled, rounded half away from zero. -/
def Chan.encOmega (c : Chan) (t : Nat) : Int := sat32 (rndDiv (c.posSpeed t * (c.polePairs * 4096 : Nat)) c.cpr)

/-- R334 ω of HALL: the position speed scaled, rounded half away from zero. -/
def Chan.hallOmega (c : Chan) (t : Nat) : Int := sat32 (rndDiv (c.posSpeed t * 4096) 6)

/-- R336 the sector in count order; while the Hall state has not been valid since the position reset, it is free (log 10). -/
def Chan.hallSector (c : Chan) : Nat :=
  let k := c.pos.sector.getD ((Config.freeInt c.pos.edge 4).toNat % 6)
  if bitOf c.pos.cfg 29 then 5 - k else k

/-- R336 θ of HALL at DTIME `t`. -/
def Chan.hallTheta (c : Chan) (t : Nat) : Nat :=
  let k := c.hallSector
  let ofs : Int := (c.fcuPar 1 + c.fcuPar 2 : Nat)
  let lo : Int := hallEdge k
  let hi : Int := hallEdge (k + 1)
  if c.pos.still ∨ c.pos.uncertain ∨ c.pos.n < 2 then angle (ofs + lo + 5461)
  else
    let adv := rndDiv (c.hallOmega t * ((16 * t - c.pos.edge : Nat) : Int)) 16000000000
    angle (ofs + (if c.pos.down then max lo (hi + adv) else min hi (lo + adv)))

/-- R337 the weight w at DTIME `t`, in 2^-16. -/
def Chan.blendW (c : Chan) (t : Nat) : Nat :=
  let moved := (t - c.fcu.blendAt) * 65536 / (c.fcuPar 11 * 1000000)
  match c.fcu.blendDir with
  | .steady => c.fcu.blend
  | .rising => min 65536 (c.fcu.blend + moved)
  | .falling => c.fcu.blend - moved

/-- R334, R337 θ and ω of the low-speed source. -/
def Chan.lowSource (c : Chan) : Nat × Int :=
  if c.hfiEn then (c.fcu.hfi.theta, c.fcu.hfi.omega)
  else (c.outWord 0x28E, toSigned 32 (c.outLong 0x28F))

/-- R334 θ and ω of the source that ANGLE_SRC selects, at DTIME `t`. -/
def Chan.sourceAngle (c : Chan) (t : Nat) : Nat × Int :=
  match c.angleSrc with
  | 0 => (c.encTheta, c.encOmega t)
  | 1 => (c.hallTheta t, c.hallOmega t)
  | 2 =>
    let w := c.blendW t
    let l := c.lowSource
    (angle (l.1 + rndDiv (w * wrapAngle ((c.fcu.obs.theta : Int) - l.1)) 65536),
     sat32 (l.2 + rndDiv (w * (c.fcu.obs.omega - l.2)) 65536))
  | _ => (c.outWord 0x28E, toSigned 32 (c.outLong 0x28F))

/-- R370 ACT_SRC. -/
def Chan.actSrc (c : Chan) (t : Nat) : Nat :=
  if c.fcu.startFrom.isSome then 6
  else if c.fcu.startDone = false then 7
  else match c.angleSrc with
    | 0 => 0
    | 1 => 1
    | 2 => if c.blendW t = 0 then (if c.hfiEn then 2 else 5) else if 65536 ≤ c.blendW t then 3 else 4
    | _ => 5

/-- R331 θ and ω as the FCU uses them at DTIME `t`: of the source in use, of the start that runs, and free values while
there is neither (log 10). -/
def Chan.useAngle (c : Chan) (free t : Nat) : Nat × Int :=
  if c.fcu.startFrom.isNone ∧ c.fcu.startDone then c.sourceAngle t
  else match c.fcu.phase with
    | .align => (0, 0)
    | .hfiConverge => (c.fcu.hfi.theta, c.fcu.hfi.omega)
    | .polarity => (c.fcu.hfi.theta, c.fcu.hfi.omega)
    | .sync => (c.fcu.obs.theta, c.fcu.obs.omega)
    | _ => (angle (Config.freeInt free 2), sat32 (Config.freeInt free 3))

/-- R360, R370 KE_RATIO: the filtered ratio in 1/256. -/
def Chan.keRatio (c : Chan) : Nat := min 1023 (c.fcu.keFilt / 2 ^ 16)

/-- R370 CH.FCU_STATUS at DTIME `t`. -/
def Chan.fcuStatus (c : Chan) (t : Nat) : Word :=
  pack [(29, 3, c.actSrc t), (25, 4, c.fcu.phase.num), (24, 1, b2n c.fcu.startDone), (23, 1, b2n c.fcu.hfi.lock),
    (22, 1, b2n c.fcu.obs.lock), (21, 1, b2n c.fcu.demag), (20, 1, b2n (c.ascSpeed t).isNone), (19, 1, b2n c.fcu.vSat),
    (6, 10, c.keRatio), (3, 3, c.fcu.outcome)]

/-! ### Starting (R345 to R349) -/

/-- R345, R346 the start that START_MODE selects, as it acts. -/
def Chan.startSel (c : Chan) : Nat :=
  let m := min 4 (fld c.fcu.cfgIn 29 27)
  if c.stage = 2 ∧ 1 ≤ m ∧ m ≤ 3 then 0 else m

/-- R371 SRC_CHANGE with w, which stops at 65,535. -/
def ChR.srcChange (r : ChR) (code w : Nat) : ChR := r.fcuEvent 0x1062 [u8 16 code, u16 18 (min w 65535)]

/-- R347 the deadline of a start that began at `f`. -/
def Chan.startLimit (c : Chan) (f : Nat) : Nat := f + c.fcuPar 19 * 1000000

/-- R348, R355 START_DONE; `caught` after a synchronisation. After the start's deadline its fault is due instead (R60, R347). -/
def ChR.startEnds (r : ChR) (caught : Bool) : ChR :=
  match r.c.fcu.startFrom with
  | none => r
  | some f => if r.c.startLimit f < r.env.t then r else
    let t := r.env.t
    let less := r.c.angleSrc == 2
    let r := r.fcu (fun x => { x with
      startFrom := none
      startDone := true
      phase := .done
      blend := if less && caught then 65536 else 0
      blendDir := .steady
      blendAt := t
      probeUse := false })
    let r := r.pwm (fun p => { p with legs := p.legs.map (fun l => { l with first := true }) })
    let r := r.fcuEvent 0x1060 [u8 16 r.c.fcu.startMode, u8 17 (if r.c.fcu.startMode = 2 then r.c.fcu.outcome else 0),
      u16 20 (r.c.sourceAngle t).1, u32 24 ((t - f) / 1000)]
    r.when (less && caught) (fun r => r.srcChange 1 65536)

/-- R350 the STANDSTILL start begins. -/
def ChR.startStandstill (r : ChR) : ChR :=
  r.fcu (fun f => { f with phase := .hfiConverge, hfi := { theta := f.hfi.theta, omega := 0 }, polarity := 0 })

/-- R351 the ALIGN start begins. -/
def ChR.startAlign (r : ChR) : ChR := r.fcu (fun f => { f with phase := .align, alignFrom := r.env.t })

/-- R345, R347 a start begins at the release of the gate lanes. -/
def ChR.beginStart (r : ChR) : ChR :=
  let m := r.c.startSel
  let r := r.fcu (fun f => { f with
    startDone := false
    startFrom := some r.env.t
    startMode := m
    obs := {}
    hfi := {}
    polarity := 0
    probe := []
    probeAgain := false
    probeUse := false
    keWrong := 0
    keLow := 0
    keBack := 0
    keAt := none
    blend := 0
    blendDir := .steady })
  match m with
  | 0 =>
    if r.c.angleSrc = 0 ∧ r.c.pos.referenced = false then r.fcu (fun f => { f with phase := .waitRef })
    else r.startEnds false
  | 1 => r.startStandstill
  | 2 => r.fcu (fun f => { f with phase := .probe, probeFrom := r.env.t })
  | 3 => r.startAlign
  | _ => r.startEnds false

end Sys2Proof.Machine
end

