-- ==== Sys2Proof/Machine/Position.lean ====
section
/-! DEFINITION. The position unit of a channel (chapter 07): counting, speed, index and Hall supervision. -/
namespace Sys2Proof.Machine

/-! ### Counting and speed (R298 to R305, R311, R312) -/

/-- R304 one step of the count. -/
def PosS.step (p : PosS) (cpr : Nat) (down : Bool) : PosS :=
  if down then
    if p.count = 0 then { p with count := cpr - 1, rev := p.rev - 1 } else { p with count := p.count - 1 }
  else if p.count + 1 = cpr then { p with count := 0, rev := p.rev + 1 } else { p with count := p.count + 1 }

/-- R304 several steps. -/
def PosS.steps (p : PosS) (cpr : Nat) (down : Bool) : Nat → PosS
  | 0 => p
  | k + 1 => (p.step cpr down).steps cpr down k

/-- R314 the standstill deadline, 1/16 ns. -/
def PosS.stillDue (p : PosS) : Nat := p.edge + 16 * (atLeast1 (fld p.cfg 15 8) * 1000000)

/-- R312 what an edge with this stamp and direction does to the speed estimate. An edge stamped after the standstill
deadline finds STILL = 1, whether or not the standstill has been declared (R314). -/
def PosS.edgeSpeed (p : PosS) (stamp16 : Nat) (down : Bool) : PosS :=
  let fresh := p.still || decide (p.stillDue < stamp16) || (p.dirKnown && p.down != down) || p.n == 0
  let m : Int := speedMag (stamp16 - p.edge)
  { p with
    n := if fresh then 1 else p.n + 1
    speed := if fresh then 0 else if down then -m else m
    uncertain := fresh
    still := false
    down := down
    dirKnown := true
    edge := stamp16 }

/-- R299, R301 the estimate reset by an illegal transition or a skip. -/
def PosS.lostSpeed (p : PosS) : PosS := { p with n := 0, speed := 0, uncertain := true }

/-- R319, R320 the position loop-back test runs: the pins are not looked at. -/
def Chan.posLb (c : Chan) : Bool := c.core.lb.any (fun l => l.target == 1)

/-- R323 DIR_INV. -/
def Chan.dirInv (c : Chan) : Bool := bitOf c.pos.cfg 29

/-- R298 whether a single change of A or B counts down, with DIR_INV = 0: the pair as 2 × A + B before and after. -/
def quadDown (before after : Nat) : Bool :=
  match before, after with
  | 0, 2 => false
  | 2, 3 => false
  | 3, 1 => false
  | 1, 0 => false
  | _, _ => true

/-- R777 a position event raised once a second, with its count at byte 20. -/
def ChR.posLimited (r : ChR) (code stamp : Nat) (data : List EvField) : ChR :=
  r.emit (.limited code 0 stamp 20 data)

/-- R298, R299 a change of A, B or both. -/
def ChR.quadChange (r : ChR) (stamp16 before after : Nat) : ChR :=
  if before = after then r
  else if before + after = 3 then
    (r.pos (fun p => { p.lostSpeed with flags := p.flags ||| 0x80#32 })).posLimited 0x1055 (stamp16 / 16)
      [u8 16 before, u8 17 after]
  else
    let down := quadDown before after != r.c.dirInv
    r.pos (fun p => (p.step r.c.cpr down).edgeSpeed stamp16 down)

/-- R300 to R302 a change of the Hall state. The edge out of an invalid state is stamped at its qualification (R302); a skip out
of one at its first sample, as R296 has it (log 50). -/
def ChR.hallChange (r : ChR) (stamp16 before after : Nat) : ChR :=
  match hallOf after with
  | none =>
    if before = after ∨ (hallOf before).isNone then r
    else (r.pos (fun p => { p with flags := p.flags ||| 0x20#32 })).eventAt 0x1052 (stamp16 / 16) [u8 16 after, u8 17 before]
  | some k =>
    let last := r.c.pos.sector
    let r := r.pos (fun p => { p with sector := some k })
    match last with
    | none => r
    | some l =>
      let d := (k + 6 - l) % 6
      let cpr := r.c.cpr
      if d = 0 then r
      else if d = 1 ∨ d = 5 then
        let down := (d == 5) != r.c.dirInv
        let stamp := if (hallOf before).isSome then stamp16 else 16 * r.env.t
        r.pos (fun p => (p.step cpr down).edgeSpeed stamp down)
      else
        let down := if d = 3 then r.c.pos.down else (d == 4) != r.c.dirInv
        let states : Vector Nat 6 := #v[1, 3, 2, 6, 4, 5]
        (r.pos (fun p => { ((p.steps cpr down (if d = 3 then 3 else 2)).lostSpeed) with
          down := down
          dirKnown := p.dirKnown || d != 3
          still := false
          edge := stamp16
          flags := p.flags ||| 0x40#32 })).posLimited 0x1053 (stamp16 / 16)
            [u8 16 (states.toList.getD l 0), u8 17 after]

/-! ### Index (R306 to R309) -/

/-- R308 the difference folded into one revolution. -/
def foldCount (cpr : Nat) (d : Int) : Int :=
  let x := Int.emod d cpr
  if (cpr : Int) < 2 * x then x - cpr else x

/-- R307, R308 an index event. -/
def ChR.indexEvent (r : ChR) (stamp16 : Nat) : ChR :=
  let p := r.c.pos
  let cpr := r.c.cpr
  let ip := p.indexPos % cpr
  if p.acquire then
    let r := (r.eventAt 0x1050 (stamp16 / 16) [u32 16 p.count, u32 20 p.rev.toNat]).pos
      (fun p => { p with count := ip, referenced := true, acquire := false })
    if r.c.fcu.phase == .waitRef then r.startEnds false else r
  else
    let d := foldCount cpr ((p.count : Int) - ip)
    if d = 0 then r.pos (fun p => { p with errRun := 0 })
    else if d.natAbs ≤ fld p.cfg 28 24 then
      let total : Int := p.rev.toInt * cpr + p.count - d
      r.pos (fun p => { p with
        count := ip
        rev := BitVec.ofInt 32 (total / cpr)
        slip := sat16 (p.slip + d)
        errRun := 0 })
    else
      let e := min 15 (p.errRun + 1)
      let most := atLeast1 (fld p.cfg 23 20)
      let r := (r.pos (fun p => { p with errRun := e, flags := p.flags ||| 0x10#32 })).eventAt 0x1051 (stamp16 / 16)
        [u32 16 p.count, i32 20 d, u8 24 e]
      if p.errRun < most ∧ most ≤ e ∧ r.c.posLb = false then r.qualifyPos 0 e (stamp16 / 16) else r

/-- R306 a change of Z, judged after the count has moved. -/
def ChR.zChange (r : ChR) (stamp16 : Nat) (rising : Bool) : ChR :=
  if r.c.posMode = 2 ∧ r.c.pos.dirKnown ∧ rising = !r.c.pos.down then r.indexEvent stamp16 else r

/-- R327 the pair (A, B) of the pins as 2 × A + B. -/
def pinPair (x : BitVec 3) : Nat := 2 * b2n (x.getLsbD 0) + b2n (x.getLsbD 1)

/-- R293, R297 qualified changes of one tick, as the mode reads them. -/
def ChR.pinsTo (r : ChR) (stamp16 : Nat) (new : BitVec 3) : ChR :=
  let old := r.c.pos.pins
  let r := r.pos (fun p => { p with pins := new })
  match r.c.posMode with
  | 0 => r
  | 3 => if old = new then r else r.hallChange stamp16 old.toNat new.toNat
  | _ =>
    let r := r.quadChange stamp16 (pinPair old) (pinPair new)
    if old.getLsbD 2 = new.getLsbD 2 then r else r.zChange stamp16 (new.getLsbD 2)

/-! ### The pattern of the loop-back test (R319 to R321, R732) -/

/-- R320 the levels of A and B after `m` steps up from a pair: 00, 10, 11, 01. -/
def quadUp (first m : Nat) : BitVec 3 :=
  let at' := (match first with
    | 0 => 0
    | 2 => 1
    | 3 => 2
    | _ => 3) + m
  match at' % 4 with
  | 0 => 0
  | 1 => 1
  | 2 => 3
  | _ => 2

/-- R320 the Hall levels of a sector. -/
def sectorPins (k : Nat) : BitVec 3 :=
  match k % 6 with
  | 0 => 1
  | 1 => 3
  | 2 => 2
  | 3 => 6
  | 4 => 4
  | _ => 5

/-- R320 the edges up of the pattern, as many as follow down. -/
def patternUp (mode : Nat) : Nat := if mode = 3 then 48 else 4096

/-- R320 the changes of the pattern. -/
def patternLen (mode : Nat) : Nat := if mode = 3 then 98 else 8193

/-- R320 the levels of the pins after `k` changes of the pattern, with DIR_INV counted in: the first half counts up. -/
def patternPins (mode : Nat) (inv : Bool) (first : BitVec 3) (k : Nat) : BitVec 3 :=
  let n := patternUp mode
  let up := if k ≤ n then k else 2 * n - min k (2 * n)
  let m := if inv then (if mode = 3 then 6 * n - up else 4 * n - up) else up
  if mode = 3 then (if k = 97 then sectorPins 2 else if 98 ≤ k then 7 else sectorPins m)
  else
    let q := quadUp (pinPair first) m
    (if k = patternLen mode then q ^^^ 3#3 else q) ||| (if 100 ≤ k ∧ k < 102 then 4#3 else 0#3)

/-- R320 what the pattern checks after change `k`: the speeds, the reversal flag, the flag of the last change, and the count at
the end of the edges. -/
def ChR.patternBad (r : ChR) (l : LbRun) (k : Nat) : BitVec 5 :=
  let p := r.c.pos
  let n := patternUp r.c.posMode
  let bad (x : Bool) (i : Nat) : BitVec 5 := if x then BitVec.ofNat 5 (2 ^ i) else 0
  let slow := decide (2 ≤ k) && decide (2 ≤ p.n) && !(decide (24999999 ≤ p.speed.natAbs) && decide (p.speed.natAbs ≤ 25000001))
  if k < n + 1 then bad slow 1
  else if k = n + 1 then bad (!p.uncertain) 2
  else if k ≤ 2 * n then bad slow 1 ||| bad (k == 2 * n && decide (p.count ≠ l.home)) 0
  else if k = 2 * n + 1 then bad (decide (p.flags &&& (if r.c.posMode = 3 then 0x40#32 else 0x80#32) = 0)) 3
  else 0

/-- R320, R732 one change of the pattern, stamped with its nominal instant; no event is raised. What an index event adds to the
count is no error of the count (log 109). -/
def ChR.patternStep (r : ChR) : ChR :=
  match r.c.core.lb with
  | some l =>
    let k := l.made + 1
    let c := r.c
    let stamp := 16 * (l.start + 640 * k)
    let new := patternPins c.posMode c.dirInv l.first k
    let z := c.pos.pins.getLsbD 2
    let r' := ({ r with out := [] } : ChR).pinsTo stamp ((new &&& 3#3) ||| (if c.posMode = 3 then new &&& 4#3 else if z then 4#3 else 0#3))
    let before := r'.c.pos.count
    let r' := if c.posMode = 3 ∨ new.getLsbD 2 = z then r' else r'.pinsTo stamp new
    let home := (l.home + r'.c.pos.count + c.cpr - before) % c.cpr
    let r' := ({ r' with out := r.out } : ChR)
    let bad := r'.patternBad { l with home := home } k
    r'.core (fun x => { x with lb := some { l with made := k, home := home, bad := l.bad ||| bad } })
  | none => r

/-- Several changes of the pattern. -/
def ChR.patternSteps (r : ChR) : Nat → ChR
  | 0 => r
  | k + 1 => r.patternStep.patternSteps k

/-- R320 the changes of the pattern whose instants have come by DTIME `t`: the pins are those of the pattern, not the balls. -/
def ChR.pattern (r : ChR) (t : Nat) : ChR :=
  match r.c.core.lb with
  | some l =>
    if l.target = 1 then r.patternSteps (min (patternLen r.c.posMode) ((t - l.start) / 640) - l.made) else r
  | none => r

/-- R303 the Hall check at the sample instant `stamp` of a slot. -/
def ChR.hallSample (r : ChR) (stamp : Nat) : ChR :=
  if r.c.posMode = 3 then
    if (hallOf r.c.pos.pins.toNat).isSome then r.pos (fun p => { p with invRun := 0 })
    else
      let before := r.c.pos.invRun
      let n := min 15 (before + 1)
      let most := atLeast1 (fld r.c.pos.cfg 19 16)
      let r := r.pos (fun p => { p with invRun := n })
      if before < most ∧ most ≤ n ∧ r.c.posLb = false then r.qualifyPos 1 n stamp else r
  else r

/-- R316, R303 the sample instant of the slot in progress, 60 ns after its start: the position unit is taken and the Hall
state checked, once. -/
def ChR.takeSample (r : ChR) : ChR :=
  match r.c.adc.slot with
  | some s =>
    if s.pos.isNone then
      let r := r.pattern (s.start + 60)
      (r.adc (fun a => { a with slot := some { s with pos := some r.c.pos } })).hallSample (s.start + 60)
    else r
  | none => r

/-- R316 before the position unit changes, a sample instant that has passed is taken, and the pattern of a loop-back test is
brought up to now. -/
def ChR.sampleFirst (r : ChR) : ChR :=
  (r.when (r.c.adc.slot.any (fun s => decide (s.start + 60 < r.env.t))) ChR.takeSample).pattern r.env.t

/-! ### Edges (R148, R296, R359) -/

/-- R148, R359 what a qualified edge ends: an identification, or a discharge through the windings. -/
def ChR.edgeEnds (r : ChR) : ChR :=
  if r.c.posMode = 0 then r
  else if r.c.core.code == .ident then (r.abortIdent 3 r.rsAtAbort).goto .off 0x54
  else if r.c.core.code == .discharge && r.c.fcu.dis.any (fun d => d.mode ≠ 0) then
    (r.reportDischarge 3 r.env.t).goto r.c.idleCode 0x22
  else r

/-- R148, R359 the pins that a mode reads have changed. -/
def Chan.edgeSeen (c : Chan) (new : BitVec 3) : Bool :=
  let used : BitVec 3 := match c.posMode with
    | 0 => 0
    | 1 => 3
    | _ => 7
  (c.pos.pins &&& used) != (new &&& used)

/-- R296 a new level whose first sample is at `stamp16` has been present for FILT ticks. -/
def ChR.pinHeld (r : ChR) (stamp16 : Nat) : Bool :=
  decide (stamp16 ≤ 16 * r.env.t) &&
  decide (fld r.c.pos.cfg 7 0 * tickU ≤ r.c.ticksWithin r.env.time (stamp16 / 16) r.env.t)

/-- R296, R297 qualified changes of one tick at the balls. During a position loop-back test the pattern takes their place
(R319). -/
def ChR.pinChange (r : ChR) (stamp16 : Nat) (new : BitVec 3) : ChR :=
  if r.pinHeld stamp16 then
    let r := r.sampleFirst
    if r.c.posLb then r.core (fun c => { c with lb := c.lb.map (fun l => { l with balls := new }) })
    else
      let seen := r.c.edgeSeen new
      (r.pinsTo stamp16 new).when seen ChR.edgeEnds
  else r

/-- The levels of the three pins as one value: PA, PB, PZ from bit 0. -/
def pinsOf (a b z : Bool) : BitVec 3 := BitVec.ofNat 3 (b2n a + 2 * b2n b + 4 * b2n z)

/-- R298, R300, POSITION_EDGE. -/
def execPositionEdge (t stamp16 : Nat) (n : ChanId) (a b z : Bool) (s : State) : Result :=
  s.chCmd t n (fun r => r.pinChange stamp16 (pinsOf a b z))

/-- The pins at the balls. -/
def Chan.balls (c : Chan) : BitVec 3 := if c.posLb then c.core.lb.elim c.pos.pins (·.balls) else c.pos.pins

/-- R306, INDEX_EDGE. -/
def execIndexEdge (t stamp16 : Nat) (n : ChanId) (z : Bool) (s : State) : Result :=
  s.chCmd t n (fun r => r.pinChange stamp16 (pinsOf (r.c.balls.getLsbD 0) (r.c.balls.getLsbD 1) z))

/-! ### Standstill (R314) -/

/-- R314 a standstill declared: no edge stamped by the deadline, and FILT + 8 ticks or 250 ns for one to qualify. -/
def ChR.standstill (r : ChR) : ChR :=
  let p := r.c.pos
  let wait := max 250 (r.c.ticksNs r.env.time r.env.t (fld p.cfg 7 0 + 8))
  if r.c.posMode ≠ 0 ∧ p.still = false ∧ r.c.posLb = false ∧ p.stillDue + 16 * wait ≤ 16 * r.env.t then
    r.sampleFirst.pos (fun p => { p with still := true, speed := 0, uncertain := false, n := 0 })
  else r

/-- R314, STANDSTILL. -/
def execStandstill (t : Nat) (n : ChanId) (s : State) : Result := s.chCmd t n ChR.standstill

/-- R327 CH.POS_STATUS. -/
def PosS.status (p : PosS) : Word :=
  p.flags ||| pack [(24, 8, signedBits 8 (clampInt (-128) 127 p.slip)), (20, 4, p.errRun), (16, 4, p.invRun),
    (9, 3, p.pins.toNat), (8, 1, b2n p.flt), (3, 1, b2n p.referenced), (2, 1, b2n p.down), (1, 1, b2n p.uncertain),
    (0, 1, b2n p.still)]

end Sys2Proof.Machine
end

