-- ==== Sys2Proof/Machine/Convert.lean ====
section
/-! DEFINITION. Correction of converter results (R254 to R257). -/
namespace Sys2Proof.Machine

/-- R254 CONV_OFS from the deviations kept. -/
def convOfs (devs : List Int) : Int :=
  if devs.isEmpty then 0 else rndDiv (devs.foldl (· + ·) 0) devs.length

/-- R245 the raw code of a pin voltage in µV. -/
def rawCode (uv : Nat) : Nat := min (uv * 16384 / 3000000) 16383

/-- R254 a new deviation: the last 8 are kept. -/
def pushDev (devs : List Int) (raw : Nat) : List Int := (((raw : Int) - 8192) :: devs).take 8

/-- R255, R256 the gain applied. -/
def Trim.apply (m : Trim) (v : Int) : Int := rndDiv ((v - m.ofs.toInt) * (32768 + m.gain.toInt)) 32768

/-- R254 CONV_OFS of ADC-A, or of ADC-B. -/
def AdcS.convOfs (a : AdcS) (b : Bool) : Int := Machine.convOfs (if b then a.devB else a.devA)

/-- R255 a corrected current code, with the trim entry and CONV_OFS of its converter. -/
def Trim.current (m : Trim) (ofs : Int) (raw : Nat) : Int := clampInt (-8192) 8191 (m.apply ((raw : Int) - 8192 - ofs))

/-- R256 a corrected code on the 0 to 16,383 scale. -/
def Trim.level (m : Trim) (ofs : Int) (raw : Nat) : Nat := (clampInt 0 16383 (m.apply ((raw : Int) - ofs))).toNat

/-- R255 the current of a pin voltage with the trim of now: IU on ADC-A, or IV on ADC-B. -/
def AdcS.currentOf (a : AdcS) (b : Bool) (uv : Nat) : Int := (if b then a.trim[1] else a.trim[0]).current (a.convOfs b) (rawCode uv)

/-- R256 the VBUS code of a pin voltage on ADC-A with the trim of now. -/
def AdcS.vbusOf (a : AdcS) (uv : Nat) : Nat := a.trim[2].level (a.convOfs false) (rawCode uv)

/-- R331 ialpha and ibeta of Q15 currents. -/
def clarke (iu iv : Int) : Int × Int := (iu, sat16 (rndDiv ((iu + 2 * iv) * 18919) 32768))

/-- R331 id and iq at an angle. -/
def park (ab : Int × Int) (theta : Nat) : Int × Int :=
  let c := cos16 theta
  let s := sin16 theta
  (sat16 (rndDiv (ab.1 * c + ab.2 * s) 32768), sat16 (rndDiv (ab.2 * c - ab.1 * s) 32768))

/-- The sine of an angle in 2^-17 revolution between 0 and a quarter, in 2^-64. -/
def sinHalf (a : Nat) : Int :=
  let x := a * piFix / 65536
  sinTerms 16 (x * x / 2 ^ 64) x 1 true 0

/-- The number of half steps that lie below the direction (x, y) of the first quadrant, by bisection: the greatest angle in
2^-16 revolution whose lower bound, half a step below it, the direction reaches. -/
def arcSearch : Nat → Nat → Nat → Nat → Nat
  | 0, _, _, a => a
  | b + 1, x, y, a =>
    let k := a + 2 ^ b
    if k ≤ 16384 ∧ (x : Int) * sinHalf (2 * k - 1) ≤ y * sinHalf (32768 - (2 * k - 1)) then arcSearch b x y k
    else arcSearch b x y a

/-- The angle of a vector in 2^-16 revolution, rounded to the nearest step. -/
def vecAngle (x y : Int) : Nat :=
  let a := arcSearch 15 x.natAbs y.natAbs 0
  (if 0 ≤ x then (if 0 ≤ y then a else 65536 - a) else if 0 ≤ y then 32768 - a else 32768 + a) % 65536

end Sys2Proof.Machine
end

