-- ==== Sys2Proof/Machine/Fcu.lean ====
section
/-! DEFINITION. The field control unit (chapter 08): slot work, the modulator service, starts, braking, discharge and the
flux-linkage monitor. -/
namespace Sys2Proof.Machine

/-! ### Modulator service (R333, R339) -/

/-- R338, R339 injection runs. -/
def Chan.injecting (c : Chan) (t : Nat) : Bool :=
  c.fcu.startDone && c.fcu.startFrom.isNone && c.angleSrc == 2 && c.hfiEn && decide (c.blendW t < 65536)

/-- R333 a component of a command beyond the linear circle: rnd(x × 32,767 / √(sum of squares)). -/
def circleLimit (x : Int) (sq : Nat) : Int :=
  let a := x.natAbs * 32767
  let q := (isqrt (4 * a * a / sq) + 1) / 2
  if x < 0 then -(q : Int) else q

/-- R333 the three compares of a command at an angle, for a PERIOD in 20.4 ticks. -/
def compares (vd vq : Int) (th period : Nat) : Int × Int × Int :=
  let al := vd * cos16 th - vq * sin16 th
  let be := vd * sin16 th + vq * cos16 th
  let a := 65536 * al
  let b := -32768 * al + 56756 * be
  let c := -32768 * al - 56756 * be
  let mm := max a (max b c) + min a (min b c)
  let leg (x : Int) : Int :=
    clampInt 0 0xFFFFFF (rndDiv (period * (65536 * 56756 * 32768 + (2 * x - mm))) (131072 * 56756 * 32768))
  (leg a, leg b, leg c)

/-- R333 t_mid: the midpoint between the update point at which a set delivered now takes effect and the one after it, as
DTIME. -/
def ChR.setMid (r : ChR) : Nat :=
  match r.c.pwm.count0 with
  | none => r.env.t
  | some _ =>
    let u := r.c.nextUpdate
    let u := if r.near u.2 then r.c.updateAfter u else u
    r.timeOf ((u.2 + (r.c.updateAfter u).2) / 2)

/-- A word of the I/O space that the program or the modulator writes. -/
def ChR.setOut (r : ChR) (a v : Nat) : ChR :=
  r.nle (fun e => { e with out := Cells.set 0 e.out a (BitVec.ofNat 16 v) })

/-- A 32-bit value of the I/O space, low half first. -/
def ChR.setOutLong (r : ChR) (a v : Nat) : ChR := (r.setOut a v).setOut (a + 1) (v / 65536)

/-- R333 the answer to a write of VQ. -/
def ChR.modulate (r : ChR) : ChR :=
  match r.c.nle.run with
  | some run =>
    if run.waitsMod then
      let c := r.c
      let inject := c.injecting r.env.t
      let vinj : Int := (if c.fcu.injNeg then -1 else 1) * (c.fcuPar 6 : Int)
      let vd0 := toSigned 16 (c.outWord 0x280)
      let vd := if inject then sat16 (vd0 + vinj) else vd0
      let vq := toSigned 16 (c.outWord 0x281)
      let sq := (vd * vd + vq * vq).toNat
      let beyond := decide (32767 * 32767 < sq)
      let (vd, vq) := if beyond then (circleLimit vd sq, circleLimit vq sq) else (vd, vq)
      let dt : Int := (r.setMid : Int) - c.fcu.sampleAt
      let th := angle (c.fcu.theta + rndDiv (c.fcu.omega * dt) 1000000000)
      let (cu, cv, cw) := compares vd vq th (actPeriod c.pwm.period)
      let r := r.fcu (fun f => { f with vSat := f.vSat || beyond, injected := f.injected || inject })
      let r := ((r.setOutLong 0x282 cu.toNat).setOutLong 0x284 cv.toNat).setOutLong 0x286 cw.toNat
      r.nle (fun e => { e with run := some { run with waitsMod := false } })
    else r
  | none => r

/-- R333, MODULATOR_ANSWER. -/
def execModulatorAnswer (t : Nat) (n : ChanId) (s : State) : Result := s.chCmd t n ChR.modulate

/-! ### Synchronising and outcome 1 (R354, R355) -/

/-- R354 outcome 1: a STANDSTILL start with HFI_EN = 1, an ALIGN start otherwise. -/
def ChR.startFromRest (r : ChR) : ChR := if r.c.hfiEn then r.startStandstill else r.startAlign

/-- R355 synchronising begins with a seed. -/
def ChR.startSync (r : ChR) (theta : Nat) (omega : Int) : ChR :=
  r.fcu (fun f => { f with phase := .sync, obs := { theta := theta, omega := omega } })

/-! ### Estimators (R340, R342, R343) -/

/-- What the estimators have at a slot: the sample instant and the time since the one before it in ns, the current vector and
its change in Q15, and the change of iq with the change before it. -/
structure SlotCur where
  ts   : Nat
  dt   : Nat
  ab   : Int × Int
  dAb  : Int × Int
  dIq  : Int
  dIq' : Int

/-- R340 a step of a tracking loop of natural frequency `bw` (Hz) and damping 1 over `dt` ns: kp = 2ω_n and ki = ω_n² act on the
tracking error. What the loop's arithmetic adds to that is free (log 10); `k` names the draw. -/
def loopStep (bw theta : Nat) (omega err : Int) (dt free k : Nat) : Nat × Int :=
  let kp : Int := 4 * piFix * bw
  let ki : Int := 4 * piFix * piFix * bw * bw
  (angle (theta + rndDiv (omega * dt) 1000000000 + rndDiv (kp * err * dt) (2 ^ 64 * 1000000000) + Config.freeInt free k),
   sat32 (omega + rndDiv (ki * err * dt) (2 ^ 128 * 1000000000) + Config.freeInt free (k + 1)))

/-- R340, R343 a run of slots inside ±364 and outside a band counted, and the loop's new estimate. -/
def Estim.track (e : Estim) (err : Int) (band : Nat) (est : Nat × Int) : Estim :=
  { e with
    good := if err.natAbs ≤ 364 then min 256 (e.good + 1) else 0
    bad := if err.natAbs ≤ band then 0 else min 64 (e.bad + 1)
    theta := est.1
    omega := est.2 }

/-- An estimator without lock. -/
def Estim.drop (e : Estim) : Estim := { e with lock := false, good := 0, bad := 0 }

/-- R340 the demodulated error, in half Q15 units. -/
def hfiEps (neg : Bool) (x : SlotCur) : Int := (if neg then -1 else 1) * (x.dIq - x.dIq')

/-- R339, R340 the injection estimator at a slot: it follows the error while injection runs, and has no lock without it. -/
def ChR.hfiSlot (r : ChR) (x : SlotCur) : ChR :=
  let f := r.c.fcu
  let starts := f.phase == .hfiConverge || f.phase == .polarity
  let wants := r.c.injecting r.env.t
  let r := if starts || (wants && f.injected) then
      let err := Config.hfiError (hfiEps f.injNeg x)
      let e := f.hfi.track err 364 (loopStep (r.c.fcuPar 7) f.hfi.theta f.hfi.omega err x.dt r.env.free 10)
      r.fcu (fun f => { f with hfi := { e with lock := (e.lock || e.good == 256) && e.bad != 64 } })
    else if !wants || f.plainSet then r.fcu (fun f => { f with hfi := f.hfi.drop })
    else r
  let r := r.fcu (fun f => { f with injected := false, plainSet := false })
  if r.c.fcu.phase == .hfiConverge && r.c.fcu.hfi.lock then
    r.fcu (fun f => { f with phase := .polarity, polarityAt := r.env.t })
  else r

/-- A speed in 2^-16 revolution per second as 0.1 Hz, rounded half away from zero. -/
def tenthHz (w : Int) : Int := rndDiv (w * 10) 65536

/-- R342 the voltage that the duty set in force applies, with the measured VBUS, as a vector in 10^-9 V. -/
def Chan.appliedVolts (c : Chan) : Int × Int :=
  match c.pwm.set with
  | none => (0, 0)
  | some d =>
    let p := actPeriod c.pwm.period
    let v : Int := c.adc.vbus * c.fcuPar 5 * 10000000
    (rndDiv (v * (2 * (d.cu : Int) - d.cv - d.cw)) (3 * 16384 * p),
     rndDiv (v * ((d.cv : Int) - d.cw) * 18919) (32768 * 16384 * p))

/-- R342 the back-EMF of one axis in 10^-9 V: v − Rs × i − Ls × di/dt, from Q15 currents. -/
def Chan.backEmf (c : Chan) (v i di : Int) (dt : Nat) : Int :=
  v - rndDiv (i * (c.fcuPar 4 * c.fcu.rsIn * 100 : Nat)) 32768 -
    rndDiv (di * (c.fcuPar 4 * c.fcu.lsIn * 100000000 : Nat)) (32768 * atLeast1 dt)

/-- R342, R343 the observer at a slot. The voltage of a built-in regulator is free (log 10). -/
def ChR.obsSlot (r : ChR) (x : SlotCur) : ChR :=
  let f := r.c.fcu
  if f.phase == .sync || r.c.modulating r.env.shut then
    let v := if f.phase == .sync then (Config.freeInt r.env.free 13, Config.freeInt r.env.free 14) else r.c.appliedVolts
    let e := (r.c.backEmf v.1 x.ab.1 x.dAb.1 x.dt, r.c.backEmf v.2 x.ab.2 x.dAb.2 x.dt)
    let size := e.1 * e.1 + e.2 * e.2
    let err := wrapAngle ((vecAngle e.2 (-e.1) : Int) - f.obs.theta)
    let o := f.obs.track err 1820 (loopStep (r.c.fcuPar 8) f.obs.theta f.obs.omega err x.dt r.env.free 15)
    let least : Int := r.c.fcuPar 13 * 10000000
    let lost := o.lock && (decide (16 * size < 9 * least * least) || o.bad == 64)
    let lock := if o.lock then !lost else decide (least * least ≤ size) && o.good == 256
    let only := r.c.angleSrc == 2 && decide (65536 ≤ r.c.blendW r.env.t) && !r.c.hfiEn
    let r := r.fcu (fun f => { f with obs := { o with lock := lock }, emf := isqrt size.toNat })
    let r := if lost then r.fcuEvent 0x1068 [u8 16 (b2n only), u32 20 (tenthHz o.omega).natAbs] else r
    let r := r.when (lost && only) (fun r => r.qualifyPos 4 0 r.env.t)
    r.when (lock && r.c.fcu.phase == .sync) (fun r => r.startEnds true)
  else r.fcu (fun f => { f with obs := f.obs.drop })

/-! ### Blending (R337, R338) -/

/-- R338 injection restarts from the observer's angle. -/
def FcuS.restartHfi (f : FcuS) : FcuS := { f with hfi := { theta := f.obs.theta, omega := f.obs.omega } }

/-- R337 the weight set moving from `w`. -/
def ChR.moveBlend (r : ChR) (w : Nat) (d : BlendDir) (code : Nat) : ChR :=
  (r.fcu (fun f => { f with blend := w, blendDir := d, blendAt := r.env.t })).srcChange code w

/-- R337 the rules of the weight, at a slot. -/
def ChR.blendSlot (r : ChR) : ChR :=
  let c := r.c
  if c.angleSrc = 2 ∧ c.fcu.startDone ∧ c.fcu.startFrom.isNone then
    let w := c.blendW r.env.t
    let lo := c.fcuPar 9
    let hi := max (c.fcuPar 10) (lo + 1)
    let spd := c.fcu.obs.omega.natAbs * 10
    let up := c.fcu.obs.lock && decide (hi * 65536 ≤ spd)
    let down := decide (spd < lo * 65536)
    if c.fcu.obs.lock = false ∧ (w ≠ 0 ∨ c.fcu.blendDir = .rising) then (r.fcu FcuS.restartHfi).moveBlend 0 .steady 4
    else match c.fcu.blendDir with
      | .steady =>
        if w = 0 then (if up then r.moveBlend 0 .rising 0 else r)
        else if down then (r.fcu FcuS.restartHfi).moveBlend w .falling 2 else r
      | .rising => if down then (r.fcu FcuS.restartHfi).moveBlend w .falling 2 else r
      | .falling => if up then r.moveBlend w .rising 0 else r
  else r

/-- R337 a rise or fall reaches its end. -/
def ChR.blendEnd (r : ChR) : ChR :=
  let w := r.c.blendW r.env.t
  match r.c.fcu.blendDir with
  | .rising => if w = 65536 then r.moveBlend 65536 .steady 1 else r
  | .falling => if w = 0 then r.moveBlend 0 .steady 3 else r
  | .steady => r

/-- R337, BLEND_END. -/
def execBlendEnd (t : Nat) (n : ChanId) (s : State) : Result := s.chCmd t n ChR.blendEnd

/-! ### Short circuit, braking and monitor at a slot (R344, R355 to R361) -/

/-- The squared magnitude of a current vector. -/
def magSq (ab : Int × Int) : Nat := (ab.1 * ab.1 + ab.2 * ab.2).toNat

/-- R344 entry 4 while ASC is applied: the loop of OBS_BW follows the current vector with its sample instant `ts`. What it begins
with is free (log 10). -/
def ChR.ascSlot (r : ChR) (ab : Int × Int) (ts : Nat) : ChR :=
  if r.c.ascApplied r.env.shut then
    let small := decide (magSq ab < (4 * r.c.fcuPar 33) * (4 * r.c.fcuPar 33))
    let low := if small then some (r.c.fcu.ascLow.getD ts) else none
    let rests := low.any (fun f => decide (f + 10000000 ≤ ts))
    let th := vecAngle ab.1 ab.2
    let est := match r.c.fcu.ascOmega with
      | some w => loopStep (r.c.fcuPar 8) r.c.fcu.ascTheta w (wrapAngle ((th : Int) - r.c.fcu.ascTheta)) (ts - r.c.fcu.ascAt)
          r.env.free 17
      | none => (th, sat32 (Config.freeInt r.env.free 19))
    r.fcu (fun f => { f with ascLow := low, ascTheta := est.1, ascOmega := some (if rests then 0 else est.2), ascAt := ts })
  else r

/-- R354, R355 the ASC phase of a flying start. -/
def ChR.catchSlot (r : ChR) : ChR :=
  if r.c.fcu.phase == .catchAsc then
    match r.c.ascSpeed r.env.t with
    | none => r
    | some (n, d) =>
      let thr := if r.c.fcu.outcome = 3 then r.c.fcuPar 17 else r.c.fcuPar 18
      if n < r.c.fcuPar 12 * d then r.startFromRest
      else if n ≤ thr * d then
        r.startSync r.c.fcu.ascTheta (r.c.fcu.ascOmega.getD r.c.fcu.obs.omega)
      else r
  else r

/-- R356 the PULSED mode. -/
def ChR.brakeSlot (r : ChR) (ab : Int × Int) : ChR :=
  if r.c.core.code == .brake && r.c.fcu.phase == .brakePulsed then
    let m := 4 * r.c.fcuPar 28
    if r.c.fcu.pulseOff then
      if 4 * magSq ab ≤ m * m then r.fcu (fun f => { f with pulseOff := false }) else r
    else if m * m ≤ magSq ab then r.fcu (fun f => { f with pulseOff := true }) else r
  else r

/-- R360 the monitor runs. -/
def Chan.keRuns (c : Chan) (shut : Bool) (t : Nat) : Bool :=
  let least := c.fcuPar 23
  bitOf c.fcu.cfgIn 24 && decide (c.fcuPar 3 ≠ 0) && c.fcu.phase != .wrongMotorAsc &&
  (match c.core.code with
    | .brake => c.ascApplied shut && (match c.ascSpeed t with
      | some (n, d) => decide (least * d ≤ n)
      | none => false)
    | .run => c.fcu.obs.lock && decide (least * 65536 ≤ c.fcu.obs.omega.natAbs * 10)
    | .stopping => c.fcu.obs.lock && decide (least * 65536 ≤ c.fcu.obs.omega.natAbs * 10)
    | _ => false)

/-- R361 the ratio is outside KE_WRONG_LO to KE_WRONG_HI. -/
def Chan.keOut (c : Chan) : Bool :=
  decide (c.fcu.keFilt < c.fcuPar 26 * 2 ^ 16) || decide (c.fcuPar 27 * 2 ^ 16 < c.fcu.keFilt)
/-- R361 the ratio is below KE_DEMAG. -/
def Chan.keWeak (c : Chan) : Bool := decide (c.fcu.keFilt < c.fcuPar 25 * 2 ^ 16)
/-- R362 the ratio is at or above KE_DEMAG + 8. -/
def Chan.keStrong (c : Chan) : Bool := decide ((c.fcuPar 25 + 8) * 2 ^ 16 ≤ c.fcu.keFilt)

/-- R360, R361 the monitor's timers brought up to now; they hold while it does not run. -/
def ChR.keAdvance (r : ChR) : ChR :=
  match r.c.fcu.keAt with
  | none => r
  | some a =>
    let dt := r.env.t - a
    let c := r.c
    r.fcu (fun f => { f with
      keAt := some r.env.t
      keWrong := if c.keOut then f.keWrong + dt else 0
      keLow := if c.keWeak then f.keLow + dt else 0
      keBack := if c.keStrong then f.keBack + dt else 0 })

/-- R360 ψ × ω_e in 10^-9 V at a speed in 2^-16 revolution per second: modulating the back-EMF, in ASC the short-circuit current
through Rs and ω_e Ls. -/
def Chan.fluxVolts (c : Chan) (ab : Int × Int) (w : Nat) : Nat :=
  if c.core.code == .brake then
    let x := 2 * piFix * w * c.fcu.lsIn
    let z2 := (c.fcu.rsIn * 1000) * (c.fcu.rsIn * 1000) + x * x / 2 ^ 160
    isqrt (magSq ab * z2 * (c.fcuPar 4 * c.fcuPar 4)) / 327680
  else c.fcu.emf

/-- R360 the ratio ψ / PSI_NOM in 2^-24, at the speed that the monitor uses. -/
def Chan.keNow (c : Chan) (ab : Int × Int) (w : Nat) : Nat :=
  c.fluxVolts ab w * 2 ^ 104 / (atLeast1 (2 * piFix * w * c.fcuPar 3) * 1000)

/-- R360 the speed of the monitor in 2^-16 revolution per second. -/
def Chan.keSpeed (c : Chan) (t : Nat) : Nat :=
  if c.core.code == .brake then (match c.ascSpeed t with
    | some (n, d) => n * 65536 / (10 * atLeast1 d)
    | none => 0)
  else c.fcu.obs.omega.natAbs

/-- R360 the monitor at a slot, with a filter of 10 ms; what the filter's arithmetic adds is free (log 10). -/
def ChR.keSlot (r : ChR) (x : SlotCur) : ChR :=
  let r := r.keAdvance
  if r.c.keRuns r.env.shut r.env.t then
    let now : Int := r.c.keNow x.ab (r.c.keSpeed r.env.t)
    let r := r.fcu (fun f => { f with
      keFilt := ((f.keFilt : Int) + rndDiv ((now - f.keFilt) * min x.dt 10000000) 10000000 + Config.freeInt r.env.free 21).toNat
      keAt := some r.env.t })
    r.fcu (fun f => { f with
      keWrong := if r.c.keOut then f.keWrong else 0
      keLow := if r.c.keWeak then f.keLow else 0
      keBack := if r.c.keStrong then f.keBack else 0 })
  else r.fcu (fun f => { f with keAt := none })

/-- R331, R332 the FCU at the end of step 1 of a slot: currents in Q15, the position unit as it stood at the sample instant
`ts`. -/
def ChR.fcuSlot (r : ChR) (iu iv : Int) (ts : Nat) (p : PosS) : ChR :=
  let a := ({ r.c with pos := p } : Chan).useAngle r.env.free ts
  let ab := clarke iu iv
  let dq := park ab a.1
  let f := r.c.fcu
  let x : SlotCur := { ts := ts, dt := ts - f.sampleAt, ab := ab, dAb := (ab.1 - f.iAb.1, ab.2 - f.iAb.2), dIq := dq.2 - f.iq,
                       dIq' := f.dIq }
  let r := r.fcu (fun f => { f with theta := a.1, omega := a.2, id := dq.1, iq := dq.2, dIq := x.dIq, iAb := ab,
                                    sampleAt := ts })
  let r := (((((r.hfiSlot x).obsSlot x).blendSlot).ascSlot ab ts).catchSlot).brakeSlot ab
  r.keSlot x

/-- R135, R361 to R363 KE_T has passed. -/
def ChR.keTimer (r : ChR) : ChR :=
  let r := r.keAdvance
  let limit := r.c.fcuPar 24 * 1000000
  if r.c.fcu.phase == .wrongMotorAsc || r.c.fcu.keAt.isNone then r
  else if limit ≤ r.c.fcu.keWrong then
    ((r.fcuEvent 0x1065 [u16 18 r.c.keRatio, u32 20 (ascReport (r.c.ascSpeed r.env.t))]).core
      (fun c => { c with verified := false })).fcu
      (fun f => { f with phase := .wrongMotorAsc, pulseOff := false, startFrom := none, keWrong := 0 })
  else if limit ≤ r.c.fcu.keLow ∧ r.c.fcu.demag = false then
    (r.fcu (fun f => { f with demag := true, keBack := 0 })).fcuEvent 0x1064 [u8 16 0, u16 18 r.c.keRatio]
  else if limit ≤ r.c.fcu.keBack ∧ r.c.fcu.demag then
    (r.fcu (fun f => { f with demag := false, keLow := 0 })).fcuEvent 0x1064 [u8 16 1, u16 18 r.c.keRatio]
  else r

/-- R361, KE_TIMER. -/
def execKeTimer (t : Nat) (n : ChanId) (s : State) : Result := s.chCmd t n ChR.keTimer

/-! ### The flying start's probe (R352 to R354) -/

/-- R353 mean |e| of the pulses in 10 mV, as a fraction. -/
def Chan.probeEmf (c : Chan) : Nat × Nat :=
  let sum := c.fcu.probe.foldl (fun x p => x + p.2) 0
  (sum * c.fcu.lsIn * c.fcuPar 4, 65536 * 327680 * c.fcuPar 14 * c.fcu.probe.length)

/-- R353 the steps of angle from pulse to pulse, newest first. -/
def angleSteps : List (Nat × Nat) → List Int
  | a :: b :: rest => wrapAngle ((a.1 : Int) - b.1) :: angleSteps (b :: rest)
  | _ => []

/-- R352 DTIME of the end of pulse `k` of the probe, its sample instant. -/
def Chan.probeEnd (c : Chan) (k : Nat) : Nat := c.fcu.probeFrom + k * (c.fcuPar 15 * 1000) + c.fcuPar 14 * 100

/-- R354 the decision after the last pulse. -/
def ChR.probeDecide (r : ChR) : ChR :=
  let c := r.c
  let ds := angleSteps c.fcu.probe
  let sum := ds.foldl (· + ·) 0
  let emf := c.probeEmf
  let den := c.fcuPar 15 * atLeast1 ds.length
  let speed := sat32 (rndDiv (sum * 1000000) den)
  let late := r.env.t - c.probeEnd (c.fcu.probe.length - 1)
  let th := angle ((c.fcu.probe.head?.map (·.1)).getD 0 + rndDiv (sum * late) (1000 * den))
  let hi := ds.foldl max (-32768)
  let lo := ds.foldl min 32767
  let mixed := (ds.any (fun d => decide (0 < d)) && ds.any (fun d => decide (d < 0))) ||
    decide ((sum.natAbs : Int) < 2 * (hi - lo) * ds.length)
  let r := r.fcu (fun f => { f with probeSpeed := (sum * 1000000, den), probeUse := true })
  let same := if c.outWord 0x28D % 2 = 0 then decide (0 ≤ sum) else decide (sum ≤ 0)
  let above (i : Fin 34) : Bool := ascAbove (r.c.ascSpeed r.env.t) (r.c.fcuPar i)
  let outcome := if emf.1 < c.fcuPar 12 * emf.2 then 1 else if mixed then 6
    else if same then (if above 17 then 3 else 2) else (if above 18 then 5 else 4)
  let r := (r.fcu (fun f => { f with outcome := outcome })).fcuEvent 0x1061
    [u8 16 outcome, u16 18 (min 65535 (rndDiv emf.1 emf.2).toNat), i32 20 (rndDiv (sum * 10000000) (65536 * den)), u16 24 th]
  match outcome with
  | 1 => r.startFromRest
  | 6 =>
    if c.fcu.probeAgain then (r.fcu (fun f => { f with probeUse := false })).qualifyPos 5 0 r.env.t
    else r.fcu (fun f => { f with probe := [], probeAgain := true, probeUse := false, probeFrom := r.env.t })
  | 3 => r.fcu (fun f => { f with phase := .catchAsc, probeUse := false })
  | 5 => r.fcu (fun f => { f with phase := .catchAsc, probeUse := false })
  | _ => r.startSync th speed

/-- R352, R353 one pulse evaluated, once its conversions are done. A pulse without current has no angle: a free value
(log 10). -/
def ChR.probePulse (r : ChR) (uvU uvV : Nat) : ChR :=
  if r.c.fcu.phase == .probe && decide (r.c.probeEnd r.c.fcu.probe.length + 140 ≤ r.env.t) then
    let ab := clarke (4 * r.c.adc.currentOf false uvU) (4 * r.c.adc.currentOf true uvV)
    let th := if magSq ab = 0 then angle (Config.freeInt r.env.free 21) else vecAngle ab.1 ab.2
    let r := r.fcu (fun f => { f with probe := (th, isqrt (magSq ab * 2 ^ 32)) :: f.probe })
    if r.c.fcuPar 16 ≤ r.c.fcu.probe.length then r.probeDecide else r
  else r

/-- R352, PROBE_PULSE. -/
def execProbePulse (t : Nat) (n : ChanId) (uvU uvV : Nat) (s : State) : Result :=
  s.chCmd t n (fun r => r.probePulse uvU uvV)

/-! ### Polarity, align, start limit (R341, R347, R351) -/

/-- R341 START_I of the polarity test in progress in Q15: raised by half after each ambiguous test. -/
def Chan.polarityI (c : Chan) : Nat := 4 * c.fcuPar 21 * 3 ^ c.fcu.polarity / 2 ^ c.fcu.polarity

/-- R341 a vector of a polarity test was stopped when |id| along its angle reached START_I. -/
def Chan.polarityStops (c : Chan) (x : PolPulse) (theta : Nat) : Bool :=
  decide (c.polarityI ≤ (park (clarke (4 * c.adc.currentOf false x.uvU) (4 * c.adc.currentOf true x.uvV)) theta).1.natAbs)

/-- R341 one polarity test: a vector along θ until |id| reaches START_I, and 1 ms later one along θ + 32,768. -/
def ChR.polarityTest (r : ChR) (plus minus : PolPulse) : ChR :=
  let tp := plus.ns
  let tm := minus.ns
  let th := r.c.fcu.hfi.theta
  if r.c.fcu.phase == .polarity && decide (r.c.fcu.polarityAt + tp + 1000000 + tm ≤ r.env.t) && r.c.polarityStops plus th &&
      r.c.polarityStops minus (angle ((th : Int) + 32768)) then
    let k := r.c.fcu.polarity + 1
    let m := 100 - r.c.fcuPar 20
    let res := if tp * 100 < tm * m then 0 else if tm * 100 < tp * m then 1 else 2
    let r := r.fcuEvent 0x1063 [u8 16 res, u8 17 k, u32 20 tp, u32 24 tm]
    let r := r.fcu (fun f => { f with polarity := k, polarityAt := r.env.t + 5000000 })
    match res with
    | 0 => r.startEnds false
    | 1 => (r.fcu (fun f => { f with hfi := { f.hfi with theta := (f.hfi.theta + 32768) % 65536 } })).startEnds false
    | _ => if 3 ≤ k then r.qualifyPos 3 0 r.env.t else r
  else r

/-- R341, POLARITY_TEST. -/
def execPolarityTest (t : Nat) (n : ChanId) (plus minus : PolPulse) (s : State) : Result :=
  s.chCmd t n (fun r => r.polarityTest plus minus)

/-- R351 ALIGN_T has passed. -/
def ChR.alignDone (r : ChR) : ChR :=
  if r.c.fcu.phase == .align && decide (r.c.fcu.alignFrom + 10000000 + r.c.fcuPar 22 * 1000000 ≤ r.env.t) then
    let r := if r.c.angleSrc = 0 then r.fcu (fun f => { f with aligned := some r.c.pos.count })
      else if r.c.angleSrc = 2 then r.setOut 0x28E 0 else r
    r.startEnds false
  else r

/-- R351, ALIGN_DONE. -/
def execAlignDone (t : Nat) (n : ChanId) (s : State) : Result := s.chCmd t n ChR.alignDone

/-- R347 the start still runs START_T after it began. -/
def ChR.startTimeout (r : ChR) : ChR :=
  match r.c.fcu.startFrom with
  | some f =>
    let d := r.c.startLimit f
    if timedOut d r.env.t then r.qualifyPos 2 0 d else r
  | none => r

/-- R347, START_TIMEOUT. -/
def execStartTimeout (t : Nat) (n : ChanId) (s : State) : Result := s.chCmd t n ChR.startTimeout

/-! ### Discharge (R359) -/

/-- R359 at a VBUS result with the sample instant `ts`: the DTIME since which VBUS has stayed at or below DIS_V_END. -/
def ChR.dischargeSlot (r : ChR) (ts : Nat) : ChR :=
  match r.c.fcu.dis with
  | some d =>
    let low := if r.c.adc.vbus * r.c.fcuPar 5 ≤ r.c.fcuPar 30 * 16384 then some (d.low.getD ts) else none
    r.fcu (fun f => { f with dis := some { d with low := low } })
  | none => r

/-- R60, R61, R359 the discharge ends: VBUS has stayed low for 1 ms by the time limit, or the limit has passed without. -/
def ChR.dischargeDone (r : ChR) (how : DischargeEnd) : ChR :=
  match r.c.fcu.dis with
  | some d =>
    let limit := d.start + r.c.fcuPar 32 * 1000000
    if r.c.core.code == .discharge then
      match how with
      | .voltage =>
        if d.low.any (fun f => decide (f + 1000000 ≤ min limit r.env.t)) then
          (r.reportDischarge 0 r.env.t).goto r.c.idleCode 0x22
        else r
      | .limit =>
        if timedOut limit r.env.t && !d.low.any (fun f => decide (f + 1000000 ≤ limit)) then
          (r.reportDischarge 1 limit).goto r.c.idleCode 0x22
        else r
    else r
  | none => r

/-- R359, DISCHARGE_DONE. -/
def execDischargeDone (t : Nat) (n : ChanId) (how : DischargeEnd) (s : State) : Result :=
  s.chCmd t n (fun r => r.dischargeDone how)

end Sys2Proof.Machine
end

