-- ==== Sys2Proof/Machine/Pwm.lean ====
section
/-! DEFINITION. The PWM island (chapter 05): update points, duty sets, what each leg does in a carrier period, requests. -/
namespace Sys2Proof.Machine

/-! ### What a leg does in one period (R205 to R221), in 20.4 ticks -/

/-- The settings that a leg's plan follows: PERIOD, the length of this period (R175), dead times, MINPW and policy, refresh
window. -/
structure PlanCfg where
  period  : Nat
  length  : Nat
  dtH     : Nat
  dtL     : Nat
  minpw   : Nat
  stretch : Bool
  win     : Nat
  deriving DecidableEq, Repr

/-- The settings in force in a channel. -/
def Chan.planCfg (c : Chan) : PlanCfg :=
  { period := actPeriod c.pwm.period, length := actPeriod c.pwm.period + c.pwm.extra / sixteenth, dtH := 16 * fld c.pwm.dt 27 16, dtL := 16 * fld c.pwm.dt 11 0,
    minpw := 16 * fld c.pwm.minpw 11 0, stretch := bitOf c.pwm.minpw 31, win := 16 * atLeast1 (fld c.pwm.bsr 19 8) }

/-- R210 to R214 the rest of a period after a high-side pulse that began at `on` and is to end at `off`. -/
def PlanCfg.afterHigh (g : PlanCfg) (on off : Nat) (refresh : List (Nat × Option Nat)) : LegPlan :=
  if g.length ≤ off + g.dtL then { high := some (on, none), low := refresh }
  else if g.length - off - g.dtL < g.minpw then
    if g.stretch then
      { high := some (on, some (g.length - g.minpw - g.dtL)), low := refresh ++ [(g.length - g.minpw, none)] }
    else { high := some (on, none), low := refresh }
  else { high := some (on, some off), low := refresh ++ [(off + g.dtL, none)] }

/-- R212, R213 the end of a high-side pulse that begins at its dead time `dead`, none where it does not occur. -/
def PlanCfg.highEnd (g : PlanCfg) (dead c : Nat) : Option Nat :=
  let on := min c g.period
  if on ≤ dead then none
  else if on - dead < g.minpw then (if g.stretch then some (dead + g.minpw) else none)
  else some on

/-- R210 to R214 a period without refresh. A high side that is on through count 0 has a dead time of 0 (R214); where its pulse
does not occur it falls at count 0 (log 13). -/
def PlanCfg.plain (g : PlanCfg) (lowBefore highBefore : Bool) (c : Nat) : LegPlan :=
  let dead := if lowBefore then g.dtH else 0
  match g.highEnd dead c with
  | some off => g.afterHigh dead off []
  | none => { high := none, low := [(if highBefore then g.dtL else if lowBefore then 0 else min c g.period, none)] }

/-- R219, R220 a refresh period; without a duty set both switches are off after it (R221). -/
def PlanCfg.refresh (g : PlanCfg) (c : Option Nat) : LegPlan :=
  let pulse := (g.dtL, some (g.dtL + g.win))
  match c with
  | none => { high := none, low := [pulse] }
  | some c =>
    let dead := g.dtL + g.win + g.dtH
    match g.highEnd dead c with
    | some off => g.afterHigh dead off [pulse]
    | none => { high := none, low := [(g.dtL, none)] }

/-- R205, R206 a set that takes effect at MID moves the falling edge of a high side that is on. -/
def PlanCfg.atMid (g : PlanCfg) (p : LegPlan) (mid c : Nat) : LegPlan :=
  match p.high with
  | some (on, off) =>
    if on ≤ mid && off.all (fun e => decide (mid < e)) then
      g.afterHigh on (max (max mid (min c g.period)) (on + g.minpw)) (p.low.filter (fun x => decide (x.1 < on)))
    else p
  | none => p

/-- R218 the count at the end of a period. -/
def LegS.counted (l : LegS) : Nat :=
  if l.plan.low.isEmpty then (if l.plan.high.isSome then l.count + 1 else l.count) else 0

/-- A leg at the start of a carrier period that stage 6 drives: with K of GATE_BSR, the switches that were on immediately
before (R211), and the leg's compare where a set is in force. Answers the leg and whether a refresh is inserted. -/
def LegS.begin (l : LegS) (g : PlanCfg) (k : Nat) (highBefore lowBefore : Bool) (c : Option Nat) : LegS × Bool :=
  let n := l.counted
  let due := decide (k ≠ 0) && (l.first || decide (k ≤ n))
  let plan : LegPlan := if due then g.refresh c else match c with
    | some c => g.plain lowBefore highBefore c
    | none => { high := none, low := [] }
  ({ lowBefore := lowBefore, highBefore := highBefore, plan := plan, count := if due then 0 else n, first := false }, due)

/-- R198 the compare of a leg in a duty set; leg W of H_BRIDGE has none (R130). -/
def Chan.compareOf (c : Chan) (leg : Fin 3) : Option Nat :=
  match c.pwm.set with
  | none => none
  | some d => match leg with
    | 0 => some d.cu
    | 1 => some d.cv
    | 2 => if c.stage = 1 then none else some d.cw

/-- A leg of H_BRIDGE that the modulator keeps off (R130). -/
def Chan.legIdle (c : Chan) (leg : Fin 3) : Bool := c.stage = 1 && leg == 2

/-- R211 the switches of a leg that are on immediately before count 0: those of its plan's end, or of the standing command
that a start has left. -/
def Chan.onBefore (c : Chan) (leg : Fin 3) : Bool × Bool :=
  match c.pwm.outs[leg].cmd with
  | .pulses true _ _ =>
    let p := c.pwm.legs[leg].plan
    (p.high.any (fun x => x.2.isNone), p.low.getLast?.any (fun x => x.2.isNone))
  | .pulses false _ _ => (false, false)
  | .fixed _ _ => c.pwm.outs[leg].levels c.pwm.tick0

/-- R216 what a leg hands over at count 0: the last edge of the period that ends, `length` long. -/
def LegOut.carry (o : LegOut) (l : LegS) (old length : Nat) : LegOut :=
  match o.cmd with
  | .pulses true _ _ => { o with edge := (l.lastEdge length).elim o.edge (fun e => some (old + e.1 * sixteenth, e.2)) }
  | _ => o

/-- R205, R219 every leg at a count 0. With a start other than NONE the first period of stage 6 begins at a BOUNDARY after the
one of the release (R221): at that one (`held`) a leg waits. -/
def ChR.planLegs (r : ChR) (held : Bool) : ChR :=
  let c := r.c
  let length := (c.pwm.tick0 - c.pwm.prev0.1) / sixteenth
  let outs : Vector LegOut 3 := Vector.ofFn (fun i => c.pwm.outs[i].carry c.pwm.legs[i] c.pwm.prev0.1 (length - 1))
  let r := r.pwm (fun p => { p with outs := outs })
  if c.modulating r.env.shut && !held then
    let g := c.planCfg
    let k := fld c.pwm.bsr 7 0
    let step (i : Fin 3) : LegS × Bool :=
      if c.legIdle i then ({}, false)
      else c.pwm.legs[i].begin g k (c.onBefore i).1 (c.onBefore i).2 (c.compareOf i)
    let rf := b2n (step 0).2 + 2 * b2n (step 1).2 + 4 * b2n (step 2).2
    r.pwm (fun p => { p with
      legs := #v[(step 0).1, (step 1).1, (step 2).1]
      flags := p.flags ||| BitVec.ofNat 32 (16 * rf) })
  else r.pwm (fun p => { p with legs := p.legs.map (fun l => { first := l.first }) })

/-! ### Update points (R199 to R209, R779) -/

/-- R202, R209 the duty set due at an update point takes effect. -/
def ChR.takeSet (r : ChR) : ChR :=
  match r.c.pwm.duty.now with
  | some d => r.pwm (fun p => { p with set := some d, setValid := true, duty := p.duty.advance })
  | none => r.pwm (fun p => { p with duty := p.duty.advance })

/-- R403 RUN is entered: FE_REF has not been written, and no time out of the limit has passed. -/
def NleS.feFresh (e : NleS) : NleS := { e with feWritten := false, feTime := 0, feAt := none }

/-- R136, R261, R345, R450 the release of the gate lanes that is due. One that was requested inside the commit window of this
count 0 is due at the next one (R779). -/
def ChR.release (r : ChR) : ChR :=
  let late := r.c.pwm.releaseLate
  let r := r.pwm (fun p => { p with releaseLate := false })
  if r.c.pwm.release && r.c.adc.az.isNone && !late then
    let r := r.pwm (fun p => { p with release := false, released := true, legs := Vector.replicate 3 { first := true } })
    let r := if r.c.core.code == .armed then
        ((r.goto .run 0x11).nle NleS.feFresh).finish [0x11] stOk 0 0
      else r
    r.beginStart
  else r

/-- R175, R180 a realign due at this BOUNDARY: the period that begins is lengthened. It waits while a band change runs, and
while the PLL is not LOCKED (log 105). -/
def ChR.beginRealign (r : ChR) (due : Bool) : ChR :=
  if due then
    if r.c.tb.change.isNone && r.c.tb.state == .locked then
      let add := r.lengthening
      (r.tb (fun b => { b with lengthened := true })).pwm (fun p => { p with extra := add })
    else r.tb (fun b => { b with realign := b.realign.hold () })
  else r

/-- R175 a lengthened period ends on the grid. -/
def ChR.endRealign (r : ChR) : ChR :=
  if r.c.tb.lengthened then
    r.tb (fun b => { b with lengthened := false, offGrid := false, anchor := r.env.t % 2 ^ 32 })
  else r

/-- R195, R247 the carrier at a count 0, whose tick count is `v`. -/
def ChR.count0 (r : ChR) (v : Nat) : ChR :=
  let mid := r.c.midTick
  r.pwm (fun p => { p with count0 := some r.env.t, tick0 := v, prev0 := (p.tick0, mid), extra := 0, midDone := false,
                           periodNo := p.periodNo + 1 })

/-- R779 what carrier count 0 does, in its order. -/
def ChR.atCount0 (r : ChR) : ChR :=
  let due := r.c.tb.realign.now.isSome
  let was := r.c.pwm.released
  let r := (r.count0 r.c.nextTick).endRealign.tb (fun b => { b with realign := b.realign.advance })
  let r := (r.takePeriod).pwm (fun p => { p with periodReq := p.periodReq.advance })
  let r := (r.takeBand).beginRealign due
  let r := r.when (r.c.upd ≠ 1) ChR.takeSet
  let r := r.release
  let r := r.planLegs (!was && r.c.fcu.startMode ≠ 4)
  r.fcu (fun f => { f with injNeg := if r.c.upd = 1 then f.injNeg else !f.injNeg })

/-- R779 CARRIER_BOUNDARY: carrier count 0, at the instant at which the carrier reaches it (R195). -/
def ChR.boundary (r : ChR) : ChR :=
  if r.c.pwm.count0.isSome then
    match r.reach r.c.nextTick with
    | some r => r.atCount0
    | none => r
  else r

/-- R205 what a set that takes effect at MID does to the legs. -/
def ChR.midLegs (r : ChR) : ChR :=
  let c := r.c
  let g := c.planCfg
  let step (i : Fin 3) : LegS := match c.compareOf i with
    | some x => { c.pwm.legs[i] with plan := g.atMid c.pwm.legs[i].plan c.midCount x }
    | none => c.pwm.legs[i]
  r.pwm (fun p => { p with legs := #v[step 0, step 1, step 2] })

/-- R199, R205 the MID update point, once a period. -/
def ChR.midUpdate (r : ChR) : ChR :=
  if r.c.pwm.count0.isSome && (r.c.upd == 1 || r.c.upd == 2) && !r.c.pwm.midDone then
    match r.reach r.c.midTick with
    | some r =>
      let fresh := r.c.pwm.duty.now.isSome
      let r := r.takeSet.pwm (fun p => { p with midDone := true })
      let r := r.when (fresh && r.c.modulating r.env.shut) ChR.midLegs
      r.fcu (fun f => { f with injNeg := !f.injNeg })
    | none => r
  else r

/-- R779, CARRIER_BOUNDARY. -/
def execCarrierBoundary (t : Nat) (n : ChanId) (s : State) : Result := s.chCmd t n ChR.boundary
/-- R199, MID_UPDATE. -/
def execMidUpdate (t : Nat) (n : ChanId) (s : State) : Result := s.chCmd t n ChR.midUpdate

/-! ### Requests and duty sets -/

/-- R207 a write of PERIOD, by a host or by the loop program: a request while the carrier runs. -/
def ChR.requestPeriod (r : ChR) (p : Nat) (program : Bool) : ChR :=
  if r.c.pwm.count0.isSome then
    r.pwm (fun x => { x with periodReq := x.periodReq.put r.lateForBoundary (p, program) })
  else r.pwm (fun x => { x with period := p })

/-- R200 to R203, R384 the duty-set handshake; a set that the late-run rule discards is not one (R204). -/
def ChR.dutySet (r : ChR) (d : DutySet) : ChR :=
  if (r.c.core.code == .run || r.c.core.code == .stopping) && r.c.fcu.startDone && r.c.pwm.count0.isSome then
    let u := r.c.nextUpdate
    let r := r.pwm (fun p => { p with duty := p.duty.put (r.near u.2) d })
    if r.near u.2 && r.before u.2 then
      let r := r.pwm (fun p => { p with lateCnt := satInc 255 p.lateCnt, flags := p.flags ||| 1#32 })
      r.limited 0x1031 0 [u8 16 u.1, u8 17 r.c.pwm.lateCnt]
    else r
  else r

/-- R241 CH.PWM_STATUS. -/
def PwmS.status (p : PwmS) : Word :=
  p.flags ||| pack [(24, 8, p.lateCnt), (16, 8, p.xcmdCnt), (2, 1, b2n p.setValid), (1, 1, b2n p.periodReq.pending)]

end Sys2Proof.Machine
end

