-- ==== Sys2Proof/Machine/Thermal.lean ====
section
/-! DEFINITION. The brake chopper and the power-stage thermal model (chapter 11). Temperatures are in 2^-20 K. -/
namespace Sys2Proof.Machine

/-! ### Regeneration and the chopper (R454 to R457) -/

/-- R468 OV1. -/
def Chan.ov1 (c : Chan) : Nat := fld c.prot.ov1 13 0

/-- R456 the channel counts as regenerating at DTIME `t`. -/
def Chan.regenerating (c : Chan) (shut : Bool) (t : Nat) : Bool :=
  (c.core.code == .brake && c.fcu.phase == .brakePulsed) ||
  (c.modulating shut &&
    decide ((c.prot.power.filter (fun x => decide (t < x.1 + 1000000))).foldl (fun s x => s + x.2) 0 < 0))

/-- R456 P_DC of a slot, in 2^-40 of VBUS code × Q15 current, from the duty set in force. -/
def Chan.slotPower (c : Chan) : Int :=
  let p := actPeriod c.pwm.period
  let iu := c.adc.iu * 4
  let iv := c.adc.iv * 4
  let term (leg : Fin 3) (i : Int) : Int := match c.compareOf leg with
    | some x => (min x p : Nat) * i
    | none => 0
  rndDiv ((term 0 iu + term 1 iv + term 2 (sat16 (-(iu + iv)))) * (c.adc.vbus * 2 ^ 40 : Nat)) p

/-- R456 the slots of the last 1 ms of modulation, by their sample instants; `settle` forgets them when it ends. -/
def ChR.powerSlot (r : ChR) (ts : Nat) : ChR :=
  if r.c.modulating r.env.shut then
    let p := r.c.slotPower
    r.prot (fun x => { x with power := (ts, p) :: x.power.filter (fun y => decide (ts < y.1 + 1000000)) })
  else r

/-- R454, R455 the chopper at a VBUS value sampled at `ts`. -/
def ChR.chopper (r : ChR) (ts : Nat) : ChR :=
  let c := r.c
  let v := c.adc.vbus
  if c.auxMode ≠ 1 ∨ c.prot.chopFlt then r.prot (fun p => { p with chopOn := false, chop := none })
  else if c.prot.chopOn = false then
    if c.ov1 ≤ v then
      let ms := atLeast1 (fld c.prot.ov1 30 26)
      (r.prot (fun p => { p with
        chopOn := true
        chop := some { v0 := v, deadline := ts + ms * 1000000, last := v } })).limited 0x1082 22 [u16 20 v]
    else r
  else
    let off := decide (v + fld c.prot.ov1 19 14 * 16 ≤ c.ov1)
    let fallen (k : ChopCheck) : Bool := decide (v + fld c.prot.ov1 25 20 * 16 ≤ k.v0)
    let passes (k : ChopCheck) : Bool := (decide (ts ≤ k.deadline) && fallen k) || (decide (ts < k.deadline) && off)
    r.prot (fun p => { p with
      chopOn := !off
      chop := (p.chop.filter (fun k => !passes k)).map (fun k => if ts < k.deadline then { k with last := v } else k) })

/-- R455, R457 the chopper is declared faulty. -/
def ChR.chopFault (r : ChR) : ChR :=
  match r.c.prot.chop with
  | some k =>
    if timedOut k.deadline r.env.t then
      let regen := r.c.regenerating r.env.shut r.env.t
      let r := r.prot (fun p => { p with chopFlt := true, chopOn := false, chop := none })
      let r := r.eventAt 0x1083 k.deadline [u8 16 (b2n regen), u16 20 k.v0, u16 22 k.last]
      r.when regen (fun r => r.qualify { src := 3, cause := 1, stamp := k.deadline } [])
    else r
  | none => r

/-- R455, CHOP_FAULT. -/
def execChopFault (t : Nat) (n : ChanId) (s : State) : Result := s.chCmd t n ChR.chopFault

/-! ### Fixed-point logarithm and exponential, in 2^-48 -/

/-- The terms z^(2j+1)/(2j+1) of the inverse hyperbolic tangent. -/
def atanhTerms : Nat → Int → Int → Nat → Int → Int
  | 0, _, _, _, acc => acc
  | fuel + 1, z2, zk, k, acc => atanhTerms fuel z2 (zk * z2 / 2 ^ 48) (k + 2) (acc + zk / (k : Int))

/-- ln 2 in 2^-48. -/
def ln2Fix : Int := 195103586505167

/-- ln(num / den) in 2^-48, for positive numbers. -/
def lnFix (num den : Nat) : Int :=
  let k : Int := (Nat.log2 num : Int) - Nat.log2 den
  let a := if 0 ≤ k then num else num * 2 ^ (-k).toNat
  let b := if 0 ≤ k then den * 2 ^ k.toNat else den
  let z := ((a : Int) - b) * 2 ^ 48 / (a + b : Nat)
  k * ln2Fix + 2 * atanhTerms 24 (z * z / 2 ^ 48) z 1 0

/-- The terms (-f)^k/k! of the exponential. -/
def expTerms : Nat → Int → Int → Nat → Int → Int
  | 0, _, _, _, acc => acc
  | fuel + 1, f, term, k, acc => expTerms fuel f (-(term * f) / 2 ^ 48 / (k : Int)) (k + 1) (acc + term)

/-- exp(-num / den) in 2^-48. -/
def expFix (num den : Nat) : Int :=
  let y : Int := num * 2 ^ 48 / den
  let n := (y / ln2Fix).toNat
  if 64 ≤ n then 0 else expTerms 20 (y - n * ln2Fix) (2 ^ 48) 1 0 / 2 ^ n

/-! ### Parameters (R469) -/

/-- R469 the range of each parameter but T_CASE_FIX. -/
def thermRange (i : Nat) : Nat × Nat :=
  match i with
  | 0 => (0, 1)
  | 1 => (1, 16777215)
  | 2 => (1000, 10000)
  | 3 => (1, 16777215)
  | 4 => (1, 16383)
  | 5 => (0, 16382)
  | 9 => (1, 16777215)
  | 10 => (1, 16777215)
  | 11 => (0, 100000)
  | 12 => (1, 60000)
  | 13 => (20, 199)
  | 14 => (50, 200)
  | 15 => (0, 10000)
  | _ => (0, 16777215)

/-- R469 a parameter as it acts. -/
def Chan.thermPar (c : Chan) (i : Fin 16) : Nat := clampNat (thermRange i).1 (thermRange i).2 c.therm.par[i]

/-- R469 T_TRIP in °C. -/
def Chan.tTrip (c : Chan) : Nat := c.thermPar 14
/-- R469 T_WARN in °C. -/
def Chan.tWarn (c : Chan) : Nat := min (c.thermPar 13) (c.tTrip - 1)
/-- R469 T_CASE_FIX in °C. -/
def Chan.tCaseFix (c : Chan) : Int := clampInt (-40) 150 (toSigned 24 c.therm.par[6])

/-- °C in 2^-20 K. -/
def degC (x : Int) : Int := x * 1048576

/-! ### The model (R458 to R462) -/

/-- R458 T_NTC of a valid code: the formula, with an error of at most 0.25 °C that the spec leaves open (log 10). -/
def Chan.ntcTemp (c : Chan) (free code : Nat) : Int :=
  let l := lnFix (c.thermPar 3 * code) ((16384 - code) * c.thermPar 1)
  let b : Int := c.thermPar 2
  let den := 100 * 2 ^ 48 * b + 29815 * l
  let t := if den ≤ 0 then degC 254 else rndQuot (1048576 * 29815 * 2 ^ 48 * b) den - rndDiv (27315 * 1048576) 100
  let e := clampInt (-262144) 262144 (Config.freeInt free 30)
  clampInt (degC (-55)) (degC 254) (clampInt (degC (-55)) (degC 254) t + e)

/-- R459 a code marks the NTC as broken: 0 = open, 1 = short. -/
def Chan.ntcBroken (c : Chan) (code : Nat) : Option Nat :=
  if c.thermPar 4 ≤ code then some 0 else if code ≤ c.thermPar 5 then some 1 else none

/-- R461 p × rth of leg x since the last update. -/
def Chan.legRise (c : Chan) (tm : TimeS) (t : Nat) (x : Fin 3) : Int :=
  let n := c.therm.slots
  if n = 0 then 0
  else
    let fs := c.fcuPar 4
    let rth := c.thermPar 11
    let cond : Int := rndDiv (c.thermPar 7 * c.therm.sumSq[x] * fs * fs * rth * 1048576 : Nat) (n * 2 ^ 30 * 10 ^ 12)
    let sw : Int := rndDiv (c.thermPar 8 * c.clkAt tm t * 16000 * c.adc.vbus * c.fcuPar 5 * c.therm.sumAbs[x] *
        fs * rth : Nat)
      (2 ^ 20 * 10 ^ 8 * actPeriod c.pwm.period * 16384 * c.thermPar 9 * n * 32768 * c.thermPar 10)
    cond + sw

/-- R461 the leg with the largest dt. -/
def hotLeg (dt : Vector Int 3) : Nat :=
  if dt[1] ≤ dt[0] ∧ dt[2] ≤ dt[0] then 0 else if dt[2] ≤ dt[1] then 1 else 2

/-- R462 DERATE. -/
def Chan.derateOf (c : Chan) (est : Int) : Nat :=
  (clampInt 0 100 (100 * (degC c.tTrip - est) / degC (c.tTrip - c.tWarn : Nat))).toNat

/-- °C rounded half away from zero (R470). -/
def wholeC (x : Int) : Int := rndDiv x 1048576

/-- R464 a reading kept: the latest of each 100 ms, newest first. -/
def keepNtc (h : List NtcAt) (x : NtcAt) : List NtcAt :=
  let slot (t : Nat) : Nat := (t + 99999999) / 100000000
  match h with
  | y :: rest => if slot y.stamp = slot x.stamp then x :: rest else (x :: y :: rest).take 12
  | [] => [x]

/-- R458 to R462 the update at a housekeeping slot. -/
def ChR.thermUpdate (r : ChR) : ChR :=
  let c := r.c
  let t := r.env.t
  let code := c.adc.ntc
  let bad := if c.ntcEn then c.ntcBroken code else none
  let temp := if !c.ntcEn then degC c.tCaseFix else if bad.isSome then degC 255 else c.ntcTemp r.env.free code
  let h := match c.therm.last with
    | some l => t - l
    | none => 0
  let keep := expFix h (c.thermPar 12 * 1000000)
  let next (x : Fin 3) : Int :=
    c.therm.dt[x] + rndDiv ((c.legRise r.env.time t x - c.therm.dt[x]) * (2 ^ 48 - keep)) (2 ^ 48)
  let dt : Vector Int 3 := #v[next 0, next 1, next 2]
  let est := min (temp + max dt[0] (max dt[1] dt[2])) (degC 255)
  let hotNow := if c.prot.hot then decide (degC c.tWarn ≤ est) else decide (degC c.tTrip ≤ est)
  let warnNow := if c.therm.warn then decide (degC c.tWarn - degC 2 ≤ est) else decide (degC c.tWarn ≤ est)
  let r := r.therm (fun m => { m with
    dt := dt
    tNtc := temp
    tEst := est
    derate := c.derateOf est
    hotLeg := hotLeg dt
    broken := bad.isSome
    warn := warnNow
    last := some t
    slots := 0
    sumSq := Vector.replicate 3 0
    sumAbs := Vector.replicate 3 0
    hist := keepNtc m.hist { stamp := t, temp := temp, broken := bad.isSome } })
  let r := r.prot (fun p => { p with hot := hotNow })
  let r := match bad with
    | some k => if c.therm.broken then r else r.event 0x1085 [u8 16 k, u16 20 code]
    | none => r
  let r := if warnNow = c.therm.warn then r
    else r.event 0x1084 [u8 16 (b2n (!warnNow)), u8 17 (hotLeg dt), i16 18 (wholeC est), u8 20 (c.derateOf est)]
  let q1 : List Qual := if bad.isSome && !c.therm.broken then [⟨9, 1, t⟩] else []
  let q0 : List Qual := if hotNow && !c.prot.hot then [⟨9, 0, t⟩] else []
  match q1 ++ q0 with
  | [] => r
  | q :: qs => r.qualify q qs

/-- R461 the currents of a slot added to the sums, with on_x and mod_x of its sample instant. -/
def ChR.thermSlot (r : ChR) (iu iv iw : Int) (lanes : BitVec 3 × BitVec 3) : ChR :=
  let i : Vector Int 3 := #v[iu, iv, iw]
  let sq (x : Fin 3) : Nat := if lanes.1.getLsbD x then i[x].natAbs * i[x].natAbs else 0
  let ab (x : Fin 3) : Nat := if lanes.2.getLsbD x then i[x].natAbs else 0
  r.therm (fun m => { m with
    slots := m.slots + 1
    sumSq := #v[m.sumSq[0] + sq 0, m.sumSq[1] + sq 1, m.sumSq[2] + sq 2]
    sumAbs := #v[m.sumAbs[0] + ab 0, m.sumAbs[1] + ab 1, m.sumAbs[2] + ab 2] })

/-- R464 the comparison at a DTIME multiple of 100 ms. -/
def ChR.riseCheck (r : ChR) : ChR :=
  let c := r.c
  let t := r.env.t
  if t % 100000000 ≠ 0 then r
  else
    let most := c.thermPar 15
    if most = 0 ∨ c.ntcEn = false then r.therm (fun m => { m with rise := false })
    else match c.therm.hist.head?, c.therm.hist.find? (fun x => decide (x.stamp + 1000000000 ≤ t)) with
      | some now, some ref =>
        if now.broken ∨ ref.broken then r
        else
          let d := now.temp - ref.temp
          if c.therm.rise = false ∧ (most : Int) * 1048576 < d * 10 then
            (r.therm (fun m => { m with rise := true })).qualify { src := 9, cause := 2, stamp := t } []
          else if c.therm.rise ∧ d * 20 ≤ (most : Int) * 1048576 ∧ c.therm.tEst < degC c.tWarn then
            r.therm (fun m => { m with rise := false })
          else r
      | _, _ => r

/-- R464, RISE_CHECK. -/
def execRiseCheck (t : Nat) (n : ChanId) (s : State) : Result := s.chCmd t n ChR.riseCheck

/-- R470 CH.THERM_STATUS. -/
def ThermS.status (m : ThermS) : Word :=
  pack [(22, 10, signedBits 10 (wholeC m.tNtc)), (12, 10, signedBits 10 (wholeC m.tEst)), (10, 2, m.hotLeg),
    (3, 7, m.derate), (2, 1, b2n m.broken), (1, 1, b2n m.rise), (0, 1, b2n m.warn)]

/-- R471 CH.PROT_STATUS. -/
def Chan.protStatus (c : Chan) : Word :=
  pack [(28, 3, c.prot.firstCause), (24, 4, c.prot.firstSrc), (12, 11, c.prot.latched.toNat), (0, 11, c.active.toNat)]

end Sys2Proof.Machine
end

