-- ==== Sys2Proof/Machine/Nle.lean ====
section
/-! DEFINITION. The loop engine's input words, triggers and runs (chapter 09): delivery, scheduling, deadlines, the
following-error supervisor. -/
namespace Sys2Proof.Machine

/-! ### Deliveries (R380, R381) -/

/-- One word of the I/O space delivered. -/
def ChR.give (r : ChR) (a v : Nat) : ChR :=
  r.nle (fun e => { e with inp := Cells.set 0 e.inp a (BitVec.ofNat 16 v) })

/-- Consecutive words delivered. -/
def ChR.giveAll (r : ChR) (a : Nat) : List Nat → ChR
  | [] => r
  | v :: vs => (r.give a v).giveAll (a + 1) vs

/-- The two words of a 32-bit value, low half first. -/
def long (v : Nat) : List Nat := [v % 65536, v / 65536 % 65536]

/-- A signed 16-bit word. -/
def word16 (x : Int) : Nat := signedBits 16 x
/-- The two words of a signed 32-bit value. -/
def sLong (x : Int) : List Nat := long (signedBits 32 x)

/-! ### Source LATE cause 0 (R393) -/

/-- R407 LATE_MAX. -/
def Chan.lateMax (c : Chan) : Nat := atLeast1 c.nle.lateMax

/-- R393 one more late run or skip, stamped at `stamp`; `note` reports the count first. -/
def ChR.countLate (r : ChR) (stamp : Nat) (note : ChOp) : ChR :=
  let r := note (r.nle (fun e => { e with lateRun := satInc 15 e.lateRun }))
  if r.c.lateMax ≤ r.c.nle.lateRun then (r.qualifyLate 0 stamp).nle (fun e => { e with lateRun := 0 }) else r

/-! ### Triggers (R386 to R389) -/

/-- R389 an UPDATE trigger skipped. -/
def ChR.skipUpdate (r : ChR) (stamp : Nat) : ChR :=
  let r := r.nle (fun e => { e with ovrCnt := satInc 255 e.ovrCnt, flags := e.flags ||| 2#32, skipped := true })
  r.countLate stamp (fun r => r.emit (.limited 0x1071 0 stamp 18 [u8 16 r.c.nle.lateRun]))

/-- R387 to R389 a trigger. -/
def ChR.trigger (r : ChR) (e : Entry) (stamp deadline : Nat) : ChR :=
  let n := r.c.nle
  if !n.enabled || !n.loaded || n.entries[e.idx].isNone then r
  else
    let executing := n.run.any (fun x => x.entry == e)
    if e == .update && (n.pend[e.idx].isSome || executing) then r.skipUpdate stamp
    else if n.pend[e.idx].isSome then r
    else r.nle (fun x => { x with pend := x.pend.set e.idx (some { stamp := stamp, deadline := deadline }) })

/-- R388 the pending trigger of highest priority. -/
def NleS.nextEntry (n : NleS) : Option Entry :=
  if n.pend[0].isSome then some .update
  else if n.pend[1].isSome then some .capture
  else if n.pend[2].isSome then some .slow
  else if n.pend[3].isSome then some .host
  else none

/-- R152 CH.STATE. -/
def Chan.stateWord (c : Chan) : Word :=
  pack [(26, 1, b2n c.core.stoActive), (25, 1, b2n (!c.core.isUnplugged)), (24, 1, b2n c.core.verified), (16, 8, c.core.cause),
    (8, 4, c.core.prev.num), (0, 4, c.core.code.num)]

/-- R380 RUN_INFO of a run of entry `e` that starts now. -/
def NleS.runInfo (n : NleS) (e : Entry) : Nat :=
  e.num + (if e = .update then 4 * b2n n.first + 8 * b2n n.prevLate + 16 * b2n n.skipped else 0)

/-- R60, R390 the engine has been disabled for more than 1 ms at DTIME `t`: what it has not ended is to be stopped, and executes
nothing more. -/
def NleS.overdue (n : NleS) (t : Nat) : Bool := !n.enabled && n.disabledAt.any (fun d => decide (d + 1000000 < t))

/-- R400 a chunk of a host's transfer goes before the next run. -/
def NleS.chunkFirst (n : NleS) : Bool := n.job.any (fun j => j.first)

/-- R400 at most 16 words, up to the next 16-word address. -/
def PsmJob.chunk (j : PsmJob) : Nat := min j.left (16 - j.addr % 16)

/-- R400 one chunk moved. -/
def NleS.moveChunk (n : NleS) (j : PsmJob) : NleS :=
  let k := j.chunk
  let j' := { j with addr := j.addr + k, left := j.left - k, first := false }
  if j.read then
    { n with job := some { j' with words := j.words ++ (List.range k).map (fun i => Cells.get 0 n.psm (j.addr + i)) } }
  else { n with psm := Cells.setAll 0 n.psm j.addr (j.words.take k), job := some { j' with words := j.words.drop k } }

/-- R400 the chunks that may go now: none while a run executes, and none before the run of a pending trigger, but for the chunk
whose turn it is. A transfer has at most 33 chunks. -/
def NleS.moveChunks : Nat → NleS → NleS
  | 0, n => n
  | k + 1, n =>
    match n.job with
    | some j => if j.left = 0 || n.run.isSome || (!j.first && n.nextEntry.isSome) then n else NleS.moveChunks k (n.moveChunk j)
    | none => n

/-- R388, R400 the idle engine starts a run, unless a chunk of a host's transfer goes first. -/
def ChR.runStart (r : ChR) : ChR :=
  let n := r.c.nle
  if n.run.isSome || n.overdue r.env.t || n.chunkFirst then r
  else match n.nextEntry with
    | none => r
    | some e =>
      match n.pend[e.idx], n.entries[e.idx] with
      | some g, some pc =>
        let words := [n.runInfo e, (r.c.stateWord.toNat) % 65536] ++ long g.stamp
        let r := r.giveAll 0x2F0 words
        let r := r.give 0x236 n.capNew.toNat
        let slotOpen := e == .update && r.c.adc.slot.any (fun s => s.step == 1 && s.deadline == g.deadline)
        r.nle (fun x => { x with
          pend := x.pend.set e.idx none
          job := x.job.map (fun j => { j with first := true })
          run := some { entry := e, trig := g, inp := x.inp, waitsMod := false, waitsVbus := slotOpen, count := 0 }
          regs := { x.regs with pc := pc % 1024 }
          entry := e
          first := x.first && e != .update
          skipped := x.skipped && e != .update
          capNew := if e = .capture then 0 else x.capNew })
      | _, _ => r.nle (fun x => { x with pend := x.pend.set e.idx none })

/-- R388, R400, RUN_START. -/
def execRunStart (t : Nat) (n : ChanId) (s : State) : Result := s.chCmd t n ChR.runStart

/-! ### The end of a run (R391 to R393, R401, R403, R404) -/

/-- R30 the states whose runs enter the slack measure. -/
def ChCode.measured (c : ChCode) : Bool :=
  match c with
  | .run => true
  | .stopping => true
  | .brake => true
  | .discharge => true
  | _ => false

/-- A signed 32-bit value of a run's input words. -/
def RunS.inLong (u : RunS) (a : Nat) : Int :=
  toSigned 32 ((Cells.get 0 u.inp a).toNat + 65536 * (Cells.get 0 u.inp (a + 1)).toNat)

/-- R404 whether M is uncertain in the snapshot of a run. -/
def RunS.uncertain (u : RunS) (omega : Bool) : Bool :=
  if omega then decide (6 ≤ (Cells.get 0 u.inp 0x218).toNat / 8192) else (Cells.get 0 u.inp 0x227).getLsbD 1

/-- R409 FE_T in ns. -/
def Chan.feTime (c : Chan) : Nat := atLeast1 (fld c.nle.feIn 24 16) * 1000000

/-- R403 the supervisor acts. -/
def Chan.feActs (c : Chan) : Bool :=
  bitOf c.nle.feIn 31 && c.core.code == .run && c.fcu.startDone && c.nle.feWritten

/-- R404 the instant at which FE_OVER will have held for FE_T, while its timer runs. -/
def Chan.feDue (c : Chan) : Option Nat := c.nle.feAt.map (fun a => a + (c.feTime - c.nle.feTime))

/-- R403, R404 the following-error supervisor at an UPDATE completion. One that comes after FE_T has passed does not take back
the qualification that is due (R63). -/
def ChR.feCheck (r : ChR) (u : RunS) : ChR :=
  let c := r.c
  let w := c.nle.feIn
  if c.feActs then
    let omega := bitOf w 30
    let m := if omega then u.inLong 0x215 else u.inLong 0x224
    let e := toSigned 32 (c.outLong 0x291) - m
    let beyond := decide (fld w 15 0 * 2 ^ fld w 29 25 < e.natAbs)
    let held := u.uncertain omega
    let since := match c.nle.feAt with
      | some a => r.env.t - a
      | none => 0
    if c.feDue.any (fun d => decide (d < r.env.t)) then r.nle (fun n => { n with feOver := beyond })
    else r.nle (fun n => { n with
      feOver := beyond
      feTime := if !beyond then 0 else if n.feOver then n.feTime + since else 0
      feAt := if beyond && !held then some r.env.t else none })
  else r.nle (fun n => { n with feTime := 0, feAt := none })

/-- R61, R62, R404 FE_OVER has held for FE_T. -/
def ChR.feTimeout (r : ChR) : ChR :=
  match r.c.feDue with
  | some d =>
    if r.c.feActs && timedOut d r.env.t then
      (r.nle (fun n => { n with feTime := 0, feAt := if n.feOver then some d else none })).qualifyPos 6 0 d
    else r
  | none => r

/-- R404, FE_TIMEOUT. -/
def execFeTimeout (t : Nat) (n : ChanId) (s : State) : Result := s.chCmd t n ChR.feTimeout

/-- R391 to R393 an UPDATE run completes. -/
def ChR.updateDone (r : ChR) (u : RunS) : ChR :=
  let t := r.env.t
  let slack : Int := (u.trig.deadline : Int) - t
  let late := decide (u.trig.deadline < t)
  let r := r.emit (.slack slack (max 1 (u.trig.deadline - u.trig.stamp)) r.c.core.code.measured)
  let r := r.feCheck u
  let r := r.nle (fun n => { n with prevLate := late })
  if late then
    let r := r.nle (fun n => { n with lateCnt := satInc 255 n.lateCnt, flags := n.flags ||| 1#32 })
    r.countLate u.trig.deadline (fun r => r.emit (.limited 0x1070 0 t 18 [u8 16 r.c.nle.lateRun, i32 20 (-slack)]))
  else r.nle (fun n => { n with lateRun := 0 })

/-- R401 a HOST run completes: its NLE_MAILBOX ends, unless that has timed out. -/
def ChR.hostDone (r : ChR) : ChR :=
  if r.c.nle.orphans ≠ 0 then r.nle (fun n => { n with orphans := n.orphans - 1 })
  else r.finish [0x23] stOk 0 (r.c.outLong 0x262)

/-- R430 END. -/
def ChR.runEnd (r : ChR) : ChR :=
  match r.c.nle.run with
  | none => r
  | some u =>
    let r := r.nle (fun n => { n with run := none })
    match u.entry with
    | .update => r.updateDone u
    | .host => r.hostDone
    | _ => r

/-- R390 the engine has been disabled for 1 ms: run and pending HOST trigger are stopped. -/
def ChR.runStop (r : ChR) : ChR :=
  let n := r.c.nle
  match n.disabledAt with
  | some d =>
    if !n.enabled && timedOut (d + 1000000) r.env.t then
      let host := n.run.any (fun u => u.entry == .host) || n.pend[3].isSome
      let r := r.nle (fun x => { x with run := none, pend := Vector.replicate 4 none, orphans := 0 })
      r.when host (fun r => r.finish [0x23] stAborted r.c.core.code.num 0)
    else r
  | none => r

/-- R390, RUN_STOP_TIMEOUT. -/
def execRunStopTimeout (t : Nat) (n : ChanId) (s : State) : Result := s.chCmd t n ChR.runStop

/-- R408 CH.NLE_STATUS. -/
def NleS.status (n : NleS) : Word :=
  n.flags ||| pack [(24, 8, n.lateCnt), (16, 8, n.ovrCnt), (12, 4, n.lateRun), (10, 2, n.entry.num), (9, 1, b2n n.run.isSome),
    (8, 1, b2n n.feOver)]

end Sys2Proof.Machine
end

