-- ==== Sys2Proof/Machine/NleRun.lean ====
section
/-! DEFINITION. A loop engine executes one instruction (chapters 09, 10): waits, I/O side effects, exceptions, tagging. -/
namespace Sys2Proof.Machine

/-- R380 the words a program reads back as it wrote them, or as the modulator answered. -/
def ioRw (a : Nat) : Bool :=
  (decide (0x262 ≤ a) && decide (a ≤ 0x263)) || (decide (0x280 ≤ a) && decide (a ≤ 0x287)) || a == 0x28B ||
  (decide (0x28D ≤ a) && decide (a ≤ 0x292))

/-- R380 the words a program may only write. -/
def ioWo (a : Nat) : Bool := [0x288, 0x289, 0x28A, 0x28C, 0x293].contains a

/-- R379, R380 a data word as a run reads it. -/
def NleS.read (n : NleS) (u : RunS) (a : Nat) : Half :=
  if a < 0x200 then Cells.get 0 n.psm a
  else if 0x300 ≤ a then 0
  else if ioRw a then Cells.get 0 n.out a
  else if ioWo a then 0
  else Cells.get 0 u.inp a

/-- R379 to R384, R411 a data word written by the instruction at `pc`. -/
def ChR.ioWrite (r : ChR) (pc a : Nat) (v : Half) : ChR :=
  if a < 0x200 then r.nle (fun n => { n with psm := Cells.set 0 n.psm a v })
  else if !(ioRw a || ioWo a) then r
  else
    let r := r.nle (fun n => { n with out := Cells.set 0 n.out a v })
    match a with
    | 0x281 => r.nle (fun n => { n with run := n.run.map (fun u => { u with waitsMod := true }) })
    | 0x289 => r.requestPeriod (r.c.outLong 0x288 % 2 ^ 24) true
    | 0x28A => r.requestBand ⟨v.toNat % 8, Nat.mod_lt _ (by decide)⟩ true
    | 0x28C => if v.getLsbD 0 && r.c.core.code == .stopping && r.c.fcu.phase != .wrongMotorAsc then r.goto r.c.idleCode 0x20 else r
    | 0x292 => r.nle (fun n => { n with feWritten := true })
    | 0x293 =>
      if r.c.nle.userAt.all (fun x => decide (x + 10000000 ≤ r.env.t)) then
        (r.event 0x1073 [u16 16 v.toNat, u16 18 pc]).nle (fun n => { n with userAt := some r.env.t })
      else r
    | _ => r

/-- Data words written in order. -/
def ChR.ioWrites (r : ChR) (pc : Nat) (ws : List (Nat × Half)) : ChR := ws.foldl (fun r x => r.ioWrite pc x.1 x.2) r

/-- R381, R392, R429 DSET: a late UPDATE run's set is discarded. -/
def ChR.dset (r : ChR) (u : RunS) : ChR :=
  if u.entry == .update && decide (u.trig.deadline < r.env.t) then r
  else (r.fcu (fun f => { f with plainSet := !f.injected })).dutySet
    { cu := r.c.outLong 0x282 % 2 ^ 24, cv := r.c.outLong 0x284 % 2 ^ 24, cw := r.c.outLong 0x286 % 2 ^ 24 }

/-- R418 a channel's engine, reading as its run does. -/
def NleS.eng (n : NleS) (u : RunS) : EngCfg :=
  { w := 10, pcw := 10, se := false, mir := false, rd := n.read u, badR := fun _ => false, badW := fun _ => false }

/-- R382, R383, R428 the instruction waits: a read of VBUS for step 2 of the slot; a read or a write of CU, CV or CW, and
DSET, for the modulator's answer. -/
def RunS.stalls (u : RunS) (g : EngCfg) (r : RegsS) (x : Word) : Bool :=
  let as := match opOf x with
    | 0x10 => [g.ea r x]
    | 0x11 => [g.ea r x]
    | 0x14 => [g.ea r x, g.succ (g.ea r x)]
    | 0x15 => [g.ea r x, g.succ (g.ea r x)]
    | 0x19 => [0x282]
    | _ => []
  (u.waitsMod && as.any (fun a => decide (0x282 ≤ a) && decide (a ≤ 0x287))) ||
  (u.waitsVbus && (opOf x == 0x10 || opOf x == 0x14) && as.contains 0x203)

/-- R743 the tag interval, in instructions: a free value from TAG_PER / 2 to 3 × TAG_PER / 2 (log 10). -/
def TagS.interval (g : TagS) (free : Nat) : Nat :=
  let p := max 16 (fld g.cfg 15 0)
  p / 2 + (Config.freeInt free 40).toNat % (p + 1)

/-- R405, R743, R744 one more instruction for the tagging unit; the stage stamps and the wait cause of a sample are free
values (log 10). -/
def ChR.tagStep (r : ChR) (u : RunS) (pc : Nat) : ChR :=
  if bitOf r.c.tag.cfg 31 then
    if r.c.tag.left ≤ 1 then
      let f (k : Nat) : Nat := (Config.freeInt r.env.free k).toNat
      r.tag (fun g => { g with
        left := g.interval r.env.free
        seq := (g.seq + 1) % 65536
        words := #v[pack [(16, 16, g.seq + 1), (14, 2, u.entry.num), (11, 3, f 41 % 5), (0, 10, pc)],
          BitVec.ofNat 32 (f 42), BitVec.ofNat 32 (f 43), BitVec.ofNat 32 (f 44), BitVec.ofNat 32 (f 45 % 65536),
          BitVec.ofNat 32 u.trig.stamp] })
    else r.tag (fun g => { g with left := g.left - 1 })
  else r

/-- R377, R378 the run stops at an instruction: parity error (cause 3) or exception (cause 2). -/
def ChR.engStop (r : ChR) (parity : Bool) : ChR :=
  let t := r.env.t
  if parity then (r.nle (fun n => { n with flags := n.flags ||| 0x10#32 })).qualifyLate 3 t
  else (r.nle (fun n => { n with flags := n.flags ||| 8#32 })).qualifyLate 2 t

/-- R372, R433 the word at the PC executed under the row of opcode `op`: nothing happens when no run executes, when the word
names another instruction, or while the instruction waits. -/
def ChR.instr (op : Nat) (f : EngFault) (r : ChR) : ChR :=
  match r.c.nle.run with
  | none => r
  | some u =>
    let pc := r.c.nle.regs.pc
    let x := Cells.get 0 r.c.nle.store pc
    let g := r.c.nle.eng u
    if (listedOp (opOf x) && opOf x != op) || r.c.nle.overdue r.env.t then r
    else if f.parity then r.engStop true
    else if decide (65536 ≤ u.count) then r.engStop false
    else if u.stalls g r.c.nle.regs x then r
    else match g.plan r.c.nle.regs x with
      | none => r.engStop false
      | some p =>
        let r := r.nle (fun n => { n with regs := p.regs, run := some { u with count := u.count + 1 } })
        let r := (r.ioWrites pc p.writes).tagStep u pc
        match p.act with
        | .finish => r.runEnd
        | .dset => r.dset u
        | _ => r

end Sys2Proof.Machine
end

