-- ==== Sys2Proof/Machine/Sensing.lean ====
section
/-! DEFINITION. Converters, comparators, captures, windows and self-tests of a channel (chapter 06). -/
namespace Sys2Proof.Machine

/-! ### Windows (R272 to R275) -/

/-- R288 WIN_HYST. -/
def AdcS.winHyst (a : AdcS) : Nat := fld a.cmpB 28 25

/-- The fields of a window entry: EN, SRC, HI, LO. -/
def Window.en (w : Window) : Bool := w.cfg.getLsbD 29
/-- R290 SRC. -/
def Window.src (w : Window) : Nat := w.cfg.toNat / 2 ^ 26 % 8
/-- R290 HI. -/
def Window.hi (w : Window) : Nat := w.cfg.toNat / 2 ^ 12 % 4096
/-- R290 LO. -/
def Window.lo (w : Window) : Nat := w.cfg.toNat % 4096

/-- R274 the re-arm band of a window is empty. -/
def Window.noBand (w : Window) (hyst : Nat) : Bool := decide (w.hi < w.lo + 2 * hyst)

/-- R274 a disarmed window whose re-arm band is empty waits for a write of its entry. -/
def Window.judge (hyst : Nat) (w : Window) : Window := if !w.armed && w.noBand hyst then { w with dead := true } else w

/-- R273, R274 a value of a window's stream: the window, and the direction in which the value leaves the band. -/
def Window.see (w : Window) (hyst v : Nat) : Window × Option Nat :=
  if w.armed then
    if v < w.lo * 4 then (Window.judge hyst { w with armed := false, out := true }, some 0)
    else if w.hi * 4 + 3 < v then (Window.judge hyst { w with armed := false, out := true }, some 1)
    else (w, none)
  else if !w.dead && !w.noBand hyst && decide ((w.lo + hyst) * 4 ≤ v) && decide (v ≤ (w.hi - hyst) * 4 + 3) then
    ({ w with armed := true, out := false }, none)
  else (Window.judge hyst w, none)

/-- R731 a sensing loop-back test runs. -/
def Chan.sensTest (c : Chan) : Bool := c.core.lb.any (fun l => l.target == 0)

/-- R272 a value of stream `src` seen by one window; during a sensing loop-back test windows raise no event (R731). -/
def ChR.windowSees (r : ChR) (src v : Nat) (k : Fin 4) : ChR :=
  let w := r.c.adc.win[k]
  if w.en && w.src == src then
    let (w', exit) := w.see r.c.adc.winHyst v
    let r := r.adc (fun a => { a with win := a.win.set k w' })
    match exit with
    | some d => if r.c.sensTest then r else r.event 0x1042 [u8 16 k.val, u8 17 src, u8 18 d, u16 20 v]
    | none => r
  else r

/-- R272 a value of a stream. -/
def ChR.windows (r : ChR) (src v : Nat) : ChR := (List.finRange 4).foldl (fun r k => r.windowSees src v k) r

/-- R279 the converter of a comparator: IV comparators are on ADC-B, the others on ADC-A. -/
def cmpOnB (k : Fin 5) : Bool := k.val == 2 || k.val == 3

/-- R279, R280 a conversion of the comparator self-test runs on a converter at DTIME `t`: 200 ns from the start of each
comparator's test. -/
def AdcS.testConv (a : AdcS) (b : Bool) (t : Nat) : Bool :=
  a.cmpTest.any (fun f => (List.finRange 5).any (fun k =>
    cmpOnB k == b && decide (f + 4000 * k.val ≤ t) && decide (t < f + 4000 * k.val + 200)))

/-- R280, R731 whether a test conversion takes the place of a slot conversion that falls due at DTIME `t`. Which ones a
sensing loop-back test displaces is free (log 10); `k` names the draw. -/
def ChR.displaced (r : ChR) (b : Bool) (t k : Nat) : Bool :=
  r.c.adc.testConv b t || (r.c.sensTest && decide (Config.freeInt r.env.free k % 2 = 1))

/-! ### Slots (R247 to R253) -/

/-- R316 the position unit as the I/O space shows it, words 0x220 to 0x22A, at DTIME `t`. -/
def Chan.posWords (c : Chan) (t : Nat) : List Nat :=
  long c.pos.count ++ long c.pos.rev.toNat ++ sLong (c.posSpeed t) ++ [word16 c.pos.slip] ++ long c.pos.status.toNat ++
    long (c.pos.edge / 16)

/-- R286 XCHK_M. -/
def Chan.xchkM (c : Chan) : Nat := atLeast1 (fld c.adc.cfgIn 21 14)

/-- R268, R269 the DTIME at which a running capture of a converter ends. -/
def captureEnd : Option Capture → Nat
  | some c => match c.sample with
    | some s => s + 140
    | none => 0
  | none => 0

/-- A slot begins its conversions; R269 a running capture delays it. -/
def ChR.openSlot (r : ChR) (free mid xchk : Bool) (deadline count : Nat) : ChR :=
  let t := r.env.t
  let start := max t (max (captureEnd r.c.adc.capA) (captureEnd r.c.adc.capB))
  let late := decide (t < start)
  let hk := match r.c.adc.hkAt with
    | none => true
    | some a => decide (a + 1000000 ≤ start)
  r.adc (fun a => { a with
    slot := some { start := start, free := free, mid := mid, hk := hk, xchk := xchk, delayed := late, deadline := deadline,
                   count := count, trim := a.trim, pos := none, lanes := none, step := 0 }
    slotAt := start
    hkAt := if hk then some start else a.hkAt
    flags := if late then a.flags ||| 2#32 else a.flags })

/-- R247 the tick count of an update point of period `k`, near the present one. -/
def Chan.updateTick (c : Chan) (mid : Bool) (k : Int) : Nat :=
  let d := k - c.pwm.periodNo
  let m := if mid then c.midCount * sixteenth else 0
  if d < 0 then (if mid then c.pwm.prev0.2 else c.pwm.prev0.1)
  else if d = 0 then c.pwm.tick0 + m
  else c.nextTick + (d.toNat - 1) * (actPeriod c.pwm.period * sixteenth) + m

/-- R247 the tick count at which the slot of an update point of period `k` starts. -/
def Chan.slotTick (c : Chan) (mid : Bool) (k : Int) : Int := (c.updateTick mid k : Int) + sofsOf c.adc.cfgIn * (tickU : Int)

/-- R247, R248 the period whose slot is due when the tick counter stands at `now`: the latest one not yet run whose slot has
reached its place, never before the count 0 that ended the lock sequence, and above 100 kHz of an even number. -/
def Chan.slotPeriod (c : Chan) (refaKHz : Nat) (mid : Bool) (now : Nat) : Option Int :=
  let last := if mid then c.pwm.slotNo.2 else c.pwm.slotNo.1
  ([2, 1, 0, -1].map (fun (d : Int) => c.pwm.periodNo + d)).find? (fun k =>
    decide (last < k) && decide ((c.pwm.first0 : Int) ≤ c.slotTick mid k) && decide (c.slotTick mid k ≤ now) &&
    (!(carrierFast refaKHz c.tb.word c.pwm.period) || Int.emod k 2 == 0))

/-- R380 the carrier count at a tick count of this period or of the one before. -/
def Chan.countOf (c : Chan) (v : Nat) : Nat :=
  (if c.pwm.tick0 ≤ v then v - c.pwm.tick0 else v - c.pwm.prev0.1) / sixteenth

/-- R391 the deadline stamp of the UPDATE run of a slot: 8 ticks before the update point after its own. -/
def ChR.slotDeadline (r : ChR) (mid : Bool) (k : Int) : Nat :=
  r.timeOf ((r.c.updateAfter (b2n mid, r.c.updateTick mid k)).2 - 8 * tickU)

/-- R247, R248, R251 a current slot, at the instant at which the carrier reaches its place. -/
def ChR.currentSlot (r : ChR) (mid : Bool) : ChR :=
  let c := r.c
  let used := if mid then c.upd == 1 || c.upd == 2 else c.upd == 0 || c.upd == 2
  if c.core.onPll && c.pwm.count0.isSome && used then
    match c.slotPeriod r.env.refaKHz mid (c.ticksMost r.env.time r.env.dieTemp r.env.t) with
    | none => r
    | some k =>
      let v := (c.slotTick mid k).toNat
      match r.reach v with
      | none => r
      | some r =>
        let xchk := decide (r.c.adc.xchkAt ≤ k)
        let m : Int := r.c.xchkM
        let r := r.pwm (fun p => { p with slotNo := if mid then (p.slotNo.1, k) else (k, p.slotNo.2) })
        let r := r.when xchk (fun r => r.adc (fun a => { a with xchkAt := (Int.fdiv k m + 1) * m }))
        r.openSlot false mid xchk (r.slotDeadline mid k) (r.c.countOf v)
  else r

/-- R252 the least time between two free slots: 4,096 cycles at 440 MHz. -/
def freeSlotNs : Nat := 4096 * 1000 / 440

/-- R251, R252 a free slot, 4,096 island cycles after the last one. -/
def ChR.freeSlot (r : ChR) : ChR :=
  if r.c.core.onPll || r.c.core.code == .ident then r
  else if r.c.adc.freeNo ≠ 0 ∧ r.env.t < r.c.adc.slotAt + freeSlotNs then r
  else
    let xchk := r.c.adc.freeNo % r.c.xchkM == 0
    (r.adc (fun a => { a with freeNo := a.freeNo + 1 })).openSlot true false xchk 0 0

/-- R247, CURRENT_SLOT. -/
def execCurrentSlot (t : Nat) (n : ChanId) (mid : Bool) (s : State) : Result := s.chCmd t n (fun r => r.currentSlot mid)
/-- R252, FREE_SLOT. -/
def execFreeSlot (t : Nat) (n : ChanId) (s : State) : Result := s.chCmd t n ChR.freeSlot

/-! ### Results (R253 to R262) -/

/-- R259 one more value of an auto-zero. -/
def azAdd (a : Option AzSum) (v : Int) : Option AzSum :=
  match a with
  | none => some { lo := v, hi := v, sum := v }
  | some x => some { lo := min x.lo v, hi := max x.hi v, sum := x.sum + v }

/-- R259 a current slot's raw codes collected by the auto-zero. -/
def ChR.azSlot (r : ChR) (rawIu rawIv : Nat) : ChR :=
  match r.c.adc.az with
  | some z =>
    if z.slots < 64 ∧ r.c.core.code == .armed then
      let u : Int := (rawIu : Int) - 8192 - r.c.adc.convOfs false
      let v : Int := (rawIv : Int) - 8192 - r.c.adc.convOfs true
      r.adc (fun a => { a with az := some { slots := z.slots + 1, u := azAdd z.u u, v := azAdd z.v v } })
    else r
  | none => r

/-- R262, R605 an IV conversion on the safety path, with its sample stamp; test conversions do not reach it. -/
def ChR.safeIv (r : ChR) (rawIv stamp : Nat) : ChR :=
  let v := (rawIv : Int) - r.c.adc.convOfs true - 8192
  r.adc (fun a => { a with
    seN := satInc 65535 a.seN
    seMax := if a.seN = 0 then v else max a.seMax v
    seMin := if a.seN = 0 then v else min a.seMin v
    seLast := v
    seAt := stamp })

/-- R317 the position snapshot of a current slot, as the safety executive has it. -/
def Chan.seSnapOf (c : Chan) (p : PosS) (stamp : Nat) : SeSnap :=
  { speed := ({ c with pos := p } : Chan).posSpeed stamp, count := p.count, uncertain := p.uncertain, still := p.still,
    down := p.down, stamp := stamp }

/-- R243, R277 a result of a conversion that began at `start` comes at DTIME `t`: 200 ns after it, and 400 ns at the most. -/
def convOnTime (start t : Nat) : Bool := decide (start + 200 ≤ t) && decide (t ≤ start + 400)

/-- R253, R380 the words of step 1. -/
def ChR.slotWords (r : ChR) (s : SlotRun) (iu iv iw : Int) (repeated : Bool) : ChR :=
  let info := b2n s.mid + 2 * b2n s.hk + 4 * b2n s.xchk + 8 * b2n (s.delayed || repeated)
  let r := r.giveAll 0x200 [word16 iu, word16 iv, word16 iw]
  let r := r.giveAll 0x205 ([info] ++ long ((s.start + 60) % 2 ^ 32) ++ long s.count)
  r.giveAll 0x220 (({ r.c with pos := s.pos.getD r.c.pos } : Chan).posWords (s.start + 60))

/-- R332 the words of the FCU. -/
def ChR.fcuWords (r : ChR) (iu iv : Int) : ChR :=
  let f := r.c.fcu
  let ab := clarke iu iv
  r.giveAll 0x210 ([word16 ab.1, word16 ab.2, word16 f.id, word16 f.iq, f.theta] ++ sLong f.omega ++
    long (r.c.fcuStatus r.env.t).toNat)

/-- R253 the end of step 1, with the pin voltages that the converters saw at the sample instant; a conversion that a test
displaces delivers the last valid value again (R280). -/
def ChR.slotStep1 (r : ChR) (s : SlotRun) (uvU uvV : Nat) : ChR :=
  let goneU := r.displaced false s.start 50
  let goneV := r.displaced true s.start 52
  let repeated := goneU || goneV
  let ts := s.start + 60
  let cu := if goneU then r.c.adc.iu else s.trim[0].current (r.c.adc.convOfs false) (rawCode uvU)
  let cv := if goneV then r.c.adc.iv else s.trim[1].current (r.c.adc.convOfs true) (rawCode uvV)
  let iu := cu * 4
  let iv := cv * 4
  let w := -(iu + iv)
  let iw := sat16 w
  let r := r.adc (fun a => { a with
    iu := cu
    iv := cv
    slot := some { s with step := 1 }
    seSnap := if s.free then a.seSnap else r.c.seSnapOf (s.pos.getD r.c.pos) ts
    flags := (if iw = w then a.flags else a.flags ||| 0x80000#32) ||| (if repeated then 2#32 else 0#32) })
  let r := r.when (!goneV) (fun r => r.safeIv (rawCode uvV) ts)
  let r := r.when (!s.free && !repeated) (fun r => r.azSlot (rawCode uvU) (rawCode uvV))
  let r := ((r.windows 0 (cu + 8192).toNat).windows 1 (cv + 8192).toNat).windows 2
    (clampInt (-8192) 8191 (-(cu + cv)) + 8192).toNat
  let r := r.thermSlot iu iv iw (s.lanes.getD (r.c.lanesAt r.env.time r.env.free ts))
  let r := if s.free then r.ascSlot (clarke iu iv) ts else r.fcuSlot iu iv ts (s.pos.getD r.c.pos)
  let r := (r.slotWords s iu iv iw repeated).fcuWords iu iv
  r.when (!s.free) (fun r => r.trigger .update r.env.t s.deadline)

/-- R253 the end of step 1. -/
def ChR.slotResult (r : ChR) (uvU uvV : Nat) : ChR :=
  let r := r.when (r.c.adc.slot.any (fun s => s.step == 0 && convOnTime s.start r.env.t)) ChR.takeSample
  match r.c.adc.slot with
  | some s => if s.step = 0 ∧ convOnTime s.start r.env.t = true then r.slotStep1 s uvU uvV else r
  | none => r

/-- R253, SLOT_RESULT. -/
def execSlotResult (t : Nat) (n : ChanId) (uvU uvV : Nat) (s : State) : Result :=
  s.chCmd t n (fun r => r.slotResult uvU uvV)

/-- R276 a cross-check with the sample instant `ts`. -/
def ChR.crossCheck (r : ChR) (ts : Nat) : ChR :=
  let a := r.c.adc
  let d := (a.vbus - a.vbusB) + (a.vbusB - a.vbus)
  if atLeast1 (fld a.cfgIn 31 26) * 4 < d then
    let r := r.adc (fun a => { a with xchkRun := satInc 15 a.xchkRun })
    if atLeast1 (fld a.cfgIn 25 22) ≤ r.c.adc.xchkRun then
      (r.qualifyAdc 0 ts).adc (fun a => { a with xchkRun := 0 })
    else r
  else r.adc (fun a => { a with xchkRun := 0 })

/-- R382 the VBUS word, for the run that waits for it too. -/
def ChR.giveVbus (r : ChR) : ChR :=
  let v := r.c.adc.vbus * 2
  (r.give 0x203 v).nle (fun n => { n with run := n.run.map (fun u =>
    if u.waitsVbus then { u with waitsVbus := false, inp := Cells.set 0 u.inp 0x203 (BitVec.ofNat 16 v) } else u) })

/-- R249, R382 the end of step 2. -/
def ChR.vbusResult (r : ChR) (uvA uvB : Nat) : ChR :=
  match r.c.adc.slot with
  | some s =>
    if s.step = 1 ∧ convOnTime (s.start + 200) r.env.t = true then
      let ts := s.start + 260
      let goneA := r.displaced false (s.start + 200) 53
      let goneB := s.xchk && r.displaced true (s.start + 200) 54
      let r := r.adc (fun a => { a with
        vbus := if goneA then a.vbus else s.trim[2].level (a.convOfs false) (rawCode uvA)
        vbusB := if s.xchk && !goneB then s.trim[3].level (a.convOfs true) (rawCode uvB) else a.vbusB
        slot := if s.hk then some { s with step := 2 } else none
        flags := if goneA || goneB then a.flags ||| 2#32 else a.flags })
      let r := (r.giveVbus).windows 3 r.c.adc.vbus
      let r := r.when (s.xchk && !goneA && !goneB) (fun r => r.crossCheck ts)
      ((r.chopper ts).powerSlot ts).dischargeSlot ts
    else r
  | none => r

/-- R382, VBUS_RESULT. -/
def execVbusResult (t : Nat) (n : ChanId) (uvA uvB : Nat) (s : State) : Result :=
  s.chCmd t n (fun r => r.vbusResult uvA uvB)

/-- R249, R269 the start of step 3 on ADC-B, which waits for a capture that began in the gap before it. -/
def AdcS.step3B (a : AdcS) (s : SlotRun) : Nat := max (s.start + 400) (captureEnd a.capB)

/-- R249 the end of the last conversion of a housekeeping slot. -/
def AdcS.hkEnd (a : AdcS) (s : SlotRun) : Nat := max (s.start + 800) (a.step3B s + 200)

/-- R254, R280, R283 the results of a housekeeping slot: NTC and mid-scale of ADC-A at 400 and 600 ns, mid-scale of ADC-B. -/
def ChR.hkResult (r : ChR) (uvNtc uvMidA uvMidB : Nat) : ChR :=
  match r.c.adc.slot with
  | some s =>
    if s.hk && s.step == 2 && decide (r.c.adc.hkEnd s ≤ r.env.t) && decide (r.env.t ≤ r.c.adc.hkEnd s + 200) then
      let goneN := r.displaced false (s.start + 400) 55
      let goneA := r.displaced false (s.start + 600) 56
      let goneB := r.displaced true (r.c.adc.step3B s) 57
      let late := decide (s.start + 400 < r.c.adc.step3B s) || goneN || goneA || goneB
      let r := r.adc (fun a => { a with
        ntc := if goneN then a.ntc else s.trim[4].level (a.convOfs false) (rawCode uvNtc)
        devA := if goneA then a.devA else pushDev a.devA (rawCode uvMidA)
        devB := if goneB then a.devB else pushDev a.devB (rawCode uvMidB)
        flags := if late then a.flags ||| 2#32 else a.flags
        slot := none })
      ((r.give 0x204 (r.c.adc.ntc * 2)).windows 4 r.c.adc.ntc).thermUpdate
    else r
  | none => r

/-- R254, HOUSEKEEPING_RESULT. -/
def execHousekeepingResult (t : Nat) (n : ChanId) (uvNtc uvMidA uvMidB : Nat) (s : State) : Result :=
  s.chCmd t n (fun r => r.hkResult uvNtc uvMidA uvMidB)

/-- R277 the deadline of the conversion of a slot that is outstanding. -/
def AdcS.slotDue (a : AdcS) (s : SlotRun) : Nat :=
  match s.step with
  | 0 => s.start + 400
  | 1 => s.start + 600
  | _ => a.hkEnd s + 200

/-- R277 the deadline of a capture that runs. -/
def Capture.due (c : Capture) : Option Nat := c.sample.map (· + 340)

/-- R277 a conversion has no result 400 ns after its start; in IDENT and in a test of the comparators or of sensing it may be
one of those that they place. The stamp is the earliest deadline that passed (R62). -/
def ChR.convTimeout (r : ChR) : ChR :=
  let t := r.env.t
  let past (d : Option Nat) : List Nat := d.toList.filter (fun d => timedOut d t)
  let slot := past (r.c.adc.slot.map (fun s => r.c.adc.slotDue s))
  let a := past (r.c.adc.capA.bind Capture.due)
  let b := past (r.c.adc.capB.bind Capture.due)
  let placed := r.c.core.ident.any (fun i => timedOut (i.start + 400) t) ||
    r.c.adc.cmpTest.any (fun f => timedOut (f + 400) t) || (r.c.sensTest && r.c.core.lb.any (fun l => timedOut (l.start + 400) t))
  match slot ++ a ++ b ++ (if placed then [t - 250] else []) with
  | [] => r
  | d :: ds =>
    (r.adc (fun x => { x with
      slot := if slot.isEmpty then x.slot else none
      capA := if a.isEmpty then x.capA else none
      capB := if b.isEmpty then x.capB else none
      flags := x.flags ||| 1#32 })).qualifyAdc 1 (ds.foldl min d)

/-- R277, CONV_TIMEOUT. -/
def execConvTimeout (t : Nat) (n : ChanId) (s : State) : Result := s.chCmd t n ChR.convTimeout

/-- R260 the spread of an input's values. -/
def azSpread (a : Option AzSum) : Nat := match a with
  | some x => (x.hi - x.lo).toNat
  | none => 0

/-- R260 whether an input's values give an offset. -/
def azGood (a : Option AzSum) : Bool := match a with
  | some x => decide (x.hi - x.lo ≤ 64) && decide (x.sum.natAbs ≤ 65536)
  | none => false

/-- R260 an offset written by an auto-zero. -/
def azTrim (m : Trim) (a : Option AzSum) : Trim :=
  match a with
  | some x => if azGood a then { m with ofs := BitVec.ofInt 12 (rndDiv x.sum 64), azValid := true } else m
  | none => m

/-- R260 the auto-zero has its 64 slots. -/
def ChR.autoZeroDone (r : ChR) : ChR :=
  match r.c.adc.az with
  | some z =>
    if z.slots = 64 then
      let skip := b2n (!azGood z.u) + 2 * b2n (!azGood z.v)
      let r := r.adc (fun a => { a with
        az := none
        trim := (a.trim.set 0 (azTrim a.trim[0] z.u)).set 1 (azTrim a.trim[1] z.v)
        flags := if skip = 0 then a.flags else a.flags ||| 0x40000#32 })
      if skip = 0 then r else r.event 0x1041 [u8 16 skip, u16 20 (azSpread z.u), u16 22 (azSpread z.v)]
    else r
  | none => r

/-- R260, AUTO_ZERO_DONE. -/
def execAutoZeroDone (t : Nat) (n : ChanId) (s : State) : Result := s.chCmd t n ChR.autoZeroDone

/-! ### Trip inputs (R229, R263 to R266) -/

/-- R267, R270 a comparator requests a capture. -/
def ChR.requestCapture (r : ChR) (k : Fin 5) : ChR :=
  let onB := k.val = 2 ∨ k.val = 3
  let old := if onB then r.c.adc.capB else r.c.adc.capA
  match old with
  | some _ =>
    let r := r.adc (fun a => { a with capMerge := satInc 255 a.capMerge })
    r.limited 0x1044 0 [u8 16 k.val, u8 17 r.c.adc.capMerge]
  | none =>
    let c : Capture := { cmp := k, crossing := r.env.t, sample := none, trim := {} }
    r.adc (fun a => if onB then { a with capB := some c } else { a with capA := some c })

/-- R263, R267 a comparator's output. -/
def ChR.cmpOutput (r : ChR) (k : Fin 5) (active : Bool) : ChR :=
  let was := r.c.adc.live.getLsbD k
  let bit := 1#5 <<< k.val
  let r := r.adc (fun a => { a with live := if active then a.live ||| bit else a.live &&& ~~~bit })
  let r := r.feedSource (cmpSource k)
  r.when (active && !was && bitOf r.c.adc.cmpB (20 + k.val) && !r.c.adc.underTest r.env.t k) (fun r => r.requestCapture k)

/-- R263 the pin of comparator `k` is at a voltage. -/
def ChR.cmpPin (r : ChR) (k : Fin 5) (uv : Nat) : ChR :=
  r.cmpOutput k (cmpNext k (r.c.adc.threshold k) uv (r.c.adc.live.getLsbD k))

/-- R229, R266 a change at a trip input; a comparator whose threshold settles keeps its output. -/
def ChR.tripInput (r : ChR) (i : TripInput) (level : Nat) : ChR :=
  match i with
  | .fltn => r.setRaw .fltn (level == 0)
  | .cmp k => if r.c.adc.settle[k].isSome then r else r.cmpPin k level

/-- R229, TRIP_INPUT_CHANGE. -/
def execTripInputChange (t : Nat) (n : ChanId) (i : TripInput) (level : Nat) (s : State) : Result :=
  s.chCmd t n (fun r => r.tripInput i level)

/-- R229 the filter length of a source, in ticks. -/
def Chan.filterTicks (c : Chan) (s : TripSrc) : Nat := fld (c.mapEntry (tripIdx s)) 9 0

/-- R229 the filter of a source has run since the first sample of its level. -/
def ChR.filtered (r : ChR) (s : TripSrc) : Bool :=
  decide (r.c.filterTicks s * tickU ≤ r.c.ticksWithin r.env.time r.c.prot.trip[(tripIdx s)].since r.env.t)

/-- R229 a source qualifies once its input has been active for its filter length; R280 not from a comparator under test. -/
def ChR.tripQualified (r : ChR) (s : TripSrc) : ChR :=
  let r := r.when (s != .fltn) (fun r => r.feedSource s)
  let x := r.c.prot.trip[(tripIdx s)]
  if x.raw && !x.qual && r.filtered s then
    (r.prot (fun p => { p with trip := p.trip.set (tripIdx s) { x with qual := true } })).qualify
      { src := (tripIdx s).val, cause := 0, stamp := x.since } []
  else r

/-- R229, TRIP_QUALIFIED. -/
def execTripQualified (t : Nat) (n : ChanId) (src : TripSrc) (s : State) : Result :=
  s.chCmd t n (fun r => r.tripQualified src)

/-- R229 a source releases after the same length of inactivity. -/
def ChR.tripReleased (r : ChR) (s : TripSrc) : ChR :=
  let x := r.c.prot.trip[(tripIdx s)]
  if !x.raw && x.qual && r.filtered s then
    r.prot (fun p => { p with trip := p.trip.set (tripIdx s) { x with qual := false } })
  else r

/-- R229, TRIP_RELEASED. -/
def execTripReleased (t : Nat) (n : ChanId) (src : TripSrc) (s : State) : Result :=
  s.chCmd t n (fun r => r.tripReleased src)

/-- R266 a threshold has settled: the comparator follows its input. -/
def ChR.thresholdSettled (r : ChR) (k : Fin 5) (uv : Nat) : ChR :=
  match r.c.adc.settle[k] with
  | some w => if w + 1000 ≤ r.env.t then (r.adc (fun a => { a with settle := a.settle.set k none })).cmpPin k uv else r
  | none => r

/-- R266, THRESHOLD_SETTLED. -/
def execThresholdSettled (t : Nat) (n : ChanId) (k : Fin 5) (uv : Nat) (s : State) : Result :=
  s.chCmd t n (fun r => r.thresholdSettled k uv)

/-! ### Captures (R267 to R271) -/

/-- R249, R268 a converter runs a conversion of the slot in progress at DTIME `t`: ADC-A from the start to 400 ns, in a
housekeeping slot to 800 ns; ADC-B in step 1, in step 2 of a cross-check slot, and in step 3 of a housekeeping slot. -/
def AdcS.slotBusy (a : AdcS) (b : Bool) (t : Nat) : Bool :=
  match a.slot with
  | none => false
  | some s =>
    let within (x y : Nat) : Bool := decide (s.start + x ≤ t) && decide (t < s.start + y)
    if b then within 0 200 || (s.xchk && within 200 400) ||
      (s.hk && decide (a.step3B s ≤ t) && decide (t < a.step3B s + 200))
    else within 0 400 || (s.hk && within 400 800)

/-- R268 a converter is idle at DTIME `t`. -/
def AdcS.idle (a : AdcS) (b : Bool) (t : Nat) : Bool := !(a.slotBusy b t || a.testConv b t)

/-- R268 a pending capture starts; R258 its conversion uses the trim of now. -/
def ChR.captureStart (r : ChR) (c : Adc) : ChR :=
  let b := c = .b
  let start (a : AdcS) (x : Option Capture) : Option Capture := x.map (fun y =>
    if y.sample.isSome then y
    else { y with sample := some (r.env.t + 60), trim := if y.cmp = 4 then a.trim[2] else if b then a.trim[1] else a.trim[0] })
  if r.c.adc.idle b r.env.t then
    r.adc (fun a => if b then { a with capB := start a a.capB } else { a with capA := start a a.capA })
  else r

/-- R268, CAPTURE_START. -/
def execCaptureStart (t : Nat) (n : ChanId) (adc : Adc) (s : State) : Result := s.chCmd t n (fun r => r.captureStart adc)

/-- R271 a capture record delivered, with the pin voltage at its sample instant. -/
def ChR.captureDelivery (r : ChR) (c : Adc) (uv : Nat) : ChR :=
  let b := c = .b
  match (if b then r.c.adc.capB else r.c.adc.capA) with
  | some x =>
    match x.sample with
    | some ts =>
      if convOnTime (ts - 60) r.env.t then
        let ofs := r.c.adc.convOfs b
        let v : Int := if x.cmp.val = 4 then (2 * x.trim.level ofs (rawCode uv) : Nat) else 4 * x.trim.current ofs (rawCode uv)
        let r := r.adc (fun a => if b then { a with capB := none } else { a with capA := none })
        let r := r.giveAll (if b then 0x238 else 0x230) ([word16 v, x.cmp.val] ++ long (x.crossing % 2 ^ 32) ++ long (ts % 2 ^ 32))
        let r := r.nle (fun n => { n with capNew := n.capNew ||| (if b then 2#2 else 1#2) })
        let r := r.when b (fun r => r.safeIv (rawCode uv) ts)
        r.trigger .capture r.env.t 0
      else r
    | none => r
  | none => r

/-- R271, CAPTURE_DELIVERY. -/
def execCaptureDelivery (t : Nat) (n : ChanId) (adc : Adc) (uv : Nat) (s : State) : Result :=
  s.chCmd t n (fun r => r.captureDelivery adc uv)

/-! ### Comparator self-test (R279 to R282) -/

/-- R279 step 2: the converted code lies within 128 of the first test value. -/
def AdcS.codeOk (a : AdcS) (k : Fin 5) (code : Nat) : Bool :=
  let v := min 1023 ((if k.val = 1 ∨ k.val = 3 then a.threshold k - 16 else a.threshold k + 16)) * 16
  decide (v ≤ code + 128) && decide (code ≤ v + 128)

/-- R279 the FAIL bits: what the comparators failed (`fails`), thresholds that cannot be passed, and codes out of range. -/
def AdcS.testFails (a : AdcS) (fails : BitVec 5) (codes : List Nat) : BitVec 5 :=
  (List.finRange 5).foldl (fun m (k : Fin 5) =>
    if !a.passable k || !a.codeOk k (codes.getD k.val 0) then m ||| (1#5 <<< k.val) else m) fails

/-- R281, R282 the test completes, its five parts done. -/
def ChR.cmpTestDone (r : ChR) (fails : BitVec 5) (codes : List Nat) : ChR :=
  if r.c.adc.cmpTest.any (fun f => decide (f + 20000 ≤ r.env.t)) then
    let f := r.c.adc.testFails fails codes
    let r := r.endCmpTest f false
    r.when (r.c.core.code == .armed && f != 0) (fun r => r.qualifyAdc 2 r.env.t)
  else r

/-- R281, CMP_TEST_DONE. -/
def execCmpTestDone (t : Nat) (n : ChanId) (x : CmpFound) (s : State) : Result :=
  s.chCmd t n (fun r => r.cmpTestDone x.fails x.codes)

/-- R291 CH.ADC_STATUS. -/
def AdcS.status (a : AdcS) : Word :=
  a.flags ||| pack [(24, 8, a.capMerge), (20, 4, a.xchkRun), (13, 5, a.cmpFail.toNat),
    (8, 4, b2n a.win[0].out + 2 * b2n a.win[1].out + 4 * b2n a.win[2].out + 8 * b2n a.win[3].out), (3, 5, a.live.toNat),
    (2, 1, b2n a.flt)]

end Sys2Proof.Machine
end

