-- ==== Sys2Proof/Machine/Channels.lean ====
section
/-! DEFINITION. The channel commands: descriptors addressed to a channel, plug and identification, retries (chapters 03, 08,
09, 11, 20). -/
namespace Sys2Proof.Machine

/-- The channel a descriptor addresses. -/
def chanOf (d : Desc) : ChanId := ⟨d.unit % 128, Nat.mod_lt _ (by decide)⟩

/-- An operation of the addressed channel, with all that follows from it. -/
def State.chan (s : State) (n : ChanId) (f : ChOp) : State := s.onChan n (fun r => (f r).settle)

/-- Check 5 of R113 for a channel opcode: BAD_STATE with the state code. -/
def inStates (ok : ChCode → Bool) (s : State) (n : ChanId) : Option Fail :=
  let c := s.chans[n].core.code
  failIf (!ok c) stBadState c.num

/-- R686 the device is basking: part of check 5 (log 111). -/
def notBasking (s : State) : Option Fail := failIf s.hk.basking stBadState 0x0105

/-- R709 the channel's cluster is out of service. -/
def inService (s : State) (n : ChanId) : Option Fail := failIf (s.clusterFailed n) stBusy 0x0701

/-- Check 6 of R113 (R613). -/
def permitted (s : State) (n : ChanId) : Option Fail := failIf (s.refusal n ≠ 0) stRejected (s.refusal n)

/-! ### CH_ARM (R136 to R139, R153, R234) -/

/-- R153, R236, R286, R335, R367, R368, R342, R409 the values that a CH_ARM takes. -/
def ChR.takeConfig (r : ChR) : ChR :=
  let r := r.core (fun c => { c with configIn := c.config })
  let r := r.pwm (fun p => { p with updIn := fld p.cfg 31 30 })
  let r := r.adc (fun a => { a with cfgIn := a.cfg })
  let r := r.fcu (fun f => { f with
    cfgIn := f.cfg
    parIn := f.par
    rsIn := fld r.c.core.motorRs 19 0
    lsIn := fld r.c.core.motorLs 19 0
    aligned := none })
  r.nle (fun e => { e with feIn := e.fe })

/-- R234 the settings are within their ranges, at the word of the entry BAND_SEL names, VALID or not. -/
def Chan.settingsOk (c : Chan) (refaKHz : Nat) : Bool :=
  let off := fld c.pwm.profile 15 8 + fld c.pwm.profile 7 0
  decide (c.pwm.updIn ≤ 2) && carrierOk refaKHz c.tb.bands[c.tb.sel].word c.pwm.period c.pwm.updIn &&
  decide (off ≤ fld c.pwm.dt 27 16) && decide (off ≤ fld c.pwm.dt 11 0) && c.periodFits c.pwm.period

/-- R137 the arm checks: the DETAIL of the first that fails. -/
def Chan.armFault (c : Chan) (refaKHz : Nat) (basking : Bool) : Option Nat :=
  if c.stage = 3 then some 0x0101
  else if c.settingsOk refaKHz = false then some 0x0102
  else if c.nle.loaded = false then some 0x0103
  else if c.budgetFits refaKHz c.tb.bands[c.tb.sel].word c.pwm.period c.pwm.updIn (sofsOf c.adc.cfgIn) = false then
    some 0x0104
  else if basking then some 0x0105
  else none

/-- R136 the states in which CH_ARM is permitted. -/
def Chan.armState (c : Chan) : Bool :=
  match c.core.code with
  | .off => !c.reqVerify
  | .ready => true
  | .armed => true
  | _ => false

/-- R136, R137 CH_ARM. A lock sequence that runs already goes on. -/
def chArmExec : Exec where
  check s _ d :=
    let n := chanOf d
    firstFail [failIf (!s.chans[n].armState) stBadState s.chans[n].core.code.num, permitted s n, inService s n]
  run s _ d :=
    let n := chanOf d
    if s.chans[n].core.code = .armed then (s, .now stOk 0 0)
    else
      let s := s.chan n ChR.takeConfig
      match s.chans[n].armFault s.time.refaKHz s.hk.basking with
      | some detail => (s, .now stBadState detail 0)
      | none => (s.chan n (fun r => if r.c.tb.seqBegan.isSome then r.tb (fun b => { b with failRaised := false })
                                    else r.startLock), .hold (some 10000000))

/-- R137, CH_ARM. -/
def execChArm (t : Nat) (q : SqRef) (s : State) : Result := .next (s.runDesc t q 0x10 0 chArmExec)

/-! ### CH_RUN, CH_STOP, CH_BRAKE, CH_DISCHARGE (R136, R347, R356, R358) -/

/-- R136, R370 CH_RUN: a release of the gate lanes is due; START_DONE is cleared. -/
def chRunExec : Exec where
  check s _ d :=
    let n := chanOf d
    firstFail [inStates (· == .armed) s n, permitted s n, inService s n]
  run s _ d := (s.chan (chanOf d) (fun r => (r.pwm (fun p => { p with release := true, releaseLate := r.lateForBoundary })).fcu
      (fun f => { f with startDone := false })),
    .hold none)

/-- R136, CH_RUN. -/
def execChRun (t : Nat) (q : SqRef) (s : State) : Result := .next (s.runDesc t q 0x11 0 chRunExec)

/-- R133 a flux-linkage WRONG_MOTOR whose transition is pending decides over a host command, a stop by the port and the ends of
STOPPING: the channel will stand in WRONG_MOTOR (log 110). -/
def Chan.wrongPending (c : Chan) : Bool := c.fcu.phase == .wrongMotorAsc

/-- R133 the check of a command that a pending WRONG_MOTOR overtakes. -/
def notOvertaken (s : State) (n : ChanId) : Option Fail := failIf s.chans[n].wrongPending stBadState 12

/-- R132, R136, R347 a stop with a MODE and a cause. -/
def ChR.stop (r : ChR) (hard : Bool) (cause : Nat) : ChR :=
  match r.c.core.code with
  | .off => if r.c.tb.seqBegan.isSome then (r.stopPll).finish [0x10] stAborted 0 0 else r
  | .ready => if r.c.tb.seqBegan.isSome then (r.stopPll).finish [0x10] stAborted 1 0 else r
  | .run =>
    if hard then r.goto r.c.idleCode cause
    else if r.c.fcu.startDone then r.goto .stopping cause
    else
      let r := r.goto .stopping cause
      r.goto r.c.idleCode 0x20
  | .stopping => if hard then r.goto r.c.idleCode cause else r
  | .ident => (r.abortIdent 6 r.rsAtAbort).goto .off 0x54
  | .armed => r.goto r.c.idleCode cause
  | .brake => r.goto r.c.idleCode cause
  | .discharge => r.goto r.c.idleCode cause
  | _ => r

/-- R136 the states in which CH_STOP is permitted. -/
def ChCode.stopOk (c : ChCode) : Bool :=
  match c with
  | .safe => false
  | .tripped => false
  | .locked => false
  | .unplugged => false
  | .wrongMotor => false
  | _ => true

/-- R136 CH_STOP. -/
def chStopExec : Exec where
  check s _ d := firstFail [notOvertaken s (chanOf d), inStates ChCode.stopOk s (chanOf d)]
  run s _ d := (s.chan (chanOf d) (fun r => r.stop (d.byte 24 ≠ 0) 0x12), .now stOk 0 0)

/-- R136, CH_STOP. -/
def execChStop (t : Nat) (q : SqRef) (s : State) : Result := .next (s.runDesc t q 0x12 0 chStopExec)

/-- R125 the owner port goes down with DOWN_ACT = 1. -/
def ChR.ownerDown (r : ChR) : ChR :=
  if r.c.wrongPending then r
  else match r.c.core.code with
  | .run => r.stop false 0x16
  | .brake => r.stop false 0x16
  | .stopping => r.stop false 0x16
  | _ => r

/-- R356 CH_BRAKE. -/
def ChR.brake (r : ChR) (mode : Nat) : ChR :=
  (r.goto .brake 0x13).fcu (fun f => { f with phase := if mode = 1 then .brakePulsed else .brakeAsc, pulseOff := false,
                                              brakeSlow := false })

/-- R356 CH_BRAKE. -/
def chBrakeExec : Exec where
  check s _ d := firstFail [notOvertaken s (chanOf d), inStates (fun c => c == .run || c == .stopping) s (chanOf d)]
  run s _ d := (s.chan (chanOf d) (fun r => r.brake (d.byte 24)), .now stOk 0 0)

/-- R356, CH_BRAKE. -/
def execChBrake (t : Nat) (q : SqRef) (s : State) : Result := .next (s.runDesc t q 0x13 0 chBrakeExec)

/-- R358 the discharge mode that a PARAM byte selects. -/
def disMode (b : Nat) : Nat := if b ≤ 2 then b else 0

/-- R358 CH_DISCHARGE. -/
def chDischargeExec : Exec where
  check s _ d :=
    let n := chanOf d
    let c := s.chans[n]
    let m := disMode (d.byte 24)
    firstFail [inStates (fun c => c == .off || c == .ready || c == .armed) s n,
      (if m = 0 then none else notBasking s), inService s n,
      failIf (decide (m ≠ 1) && decide (c.auxMode ≠ 2)) stBusy 1,
      failIf (decide (m ≠ 0) && ascAbove (c.ascSpeed s.dtime) 0) stBusy 2]
  run s _ d := (s.chan (chanOf d) (fun r => (r.goto .discharge 0x14).fcu (fun f => { f with
    phase := .discharge, dis := some { mode := disMode (d.byte 24), start := r.env.t, low := none } })), .now stOk 0 0)

/-- R358, CH_DISCHARGE. -/
def execChDischarge (t : Nat) (q : SqRef) (s : State) : Result := .next (s.runDesc t q 0x14 0 chDischargeExec)

/-! ### CH_CLEAR_TRIP, CH_SETPOINT (R452, R402) -/

/-- R452 CH_CLEAR_TRIP. -/
def ChR.clearTrip (r : ChR) : ChR :=
  (r.goto r.c.restCode 0x15).prot (fun p => { p with chopFlt := false, latched := 0, stamps := [] })

/-- R452 CH_CLEAR_TRIP. -/
def chClearTripExec : Exec where
  check s _ d :=
    let n := chanOf d
    let c := s.chans[n]
    firstFail [inStates (fun c => c == .tripped || c == .locked) s n,
      failIf (c.core.code == .tripped && c.core.thermal) stBusy 0x8000,
      failIf (c.activeNoPlg ≠ 0) stBusy c.activeNoPlg.toNat]
  run s _ d :=
    let n := chanOf d
    (s.chan n ChR.clearTrip, .now stOk 0 s.chans[n].prot.latched.toNat)

/-- R452, CH_CLEAR_TRIP. -/
def execChClearTrip (t : Nat) (q : SqRef) (s : State) : Result := .next (s.runDesc t q 0x15 0 chClearTripExec)

/-- R402 the selected setpoints, one delivery. -/
def ChR.setpoint (r : ChR) (mask : Nat) (sp : Nat → Nat) : ChR :=
  (List.range 8).foldl (fun r k => if mask.testBit k then r.give (0x240 + k) (sp k) else r) r

/-- R402 CH_SETPOINT. -/
def chSetpointExec : Exec where
  check := noCheck
  run s _ d := (s.chan (chanOf d) (fun r => r.setpoint (d.byte 24) (fun k => d.num (32 + 2 * k) 2)), .now stOk 0 0)

/-- R402, CH_SETPOINT. -/
def execChSetpoint (t : Nat) (q : SqRef) (s : State) : Result := .next (s.runDesc t q 0x16 0 chSetpointExec)

/-! ### CH_CMP_TEST, CH_LB_TEST (R279, R728 to R730) -/

/-- R279 CH_CMP_TEST. -/
def chCmpTestExec : Exec where
  check s _ d := firstFail [inStates ChCode.cmpTestOk s (chanOf d), inService s (chanOf d)]
  run s _ d := (s.chan (chanOf d) (fun r => r.adc (fun a => { a with cmpTest := some r.env.t })), .hold none)

/-- R279, CH_CMP_TEST. -/
def execChCmpTest (t : Nat) (q : SqRef) (s : State) : Result := .next (s.runDesc t q 0x17 0 chCmpTestExec)

/-- R729 the states in which a test of `target` is permitted; a target that is not assigned fails the check after this one. -/
def lbStates (target : Nat) (c : ChCode) : Bool := c.cmpTestOk && !(c == .armed && (target == 1 || target == 2))

/-- R319, R728 a loop-back test begins. A position test takes over the pins, at the levels where its pattern starts. -/
def ChR.beginLb (r : ChR) (target depth : Nat) : ChR :=
  let r := r.when (target = 1) ChR.sampleFirst
  let p := r.c.pos
  let hall := r.c.posMode = 3
  let r := r.core (fun c => { c with lb := some { target := target, depth := depth, start := r.env.t, made := 0, balls := p.pins,
                                                  first := p.pins, home := p.count, bad := 0 } })
  r.when (target = 1) (fun r => r.pos (fun p => { p with
    pins := if hall then sectorPins 0 else p.pins &&& 3#3
    sector := if hall then some 0 else p.sector }))

/-- R728 CH_LB_TEST. -/
def chLbTestExec : Exec where
  check s _ d :=
    let n := chanOf d
    let c := s.chans[n]
    let g := d.byte 24
    let depth := d.byte 25
    firstFail [inStates (lbStates g) s n,
      failIf (decide (2 < g) || decide (depth = 0) || decide (2 < depth) || (g == 2 && depth == 2)) stBadState 0x0190,
      failIf (g == 1 && c.posMode == 0) stBadState 0x0191,
      failIf (g == 2 && !({ c with pwm := { c.pwm with updIn := fld c.pwm.cfg 31 30 } } : Chan).settingsOk s.time.refaKHz)
        stBadState 0x0102,
      inService s n]
  run s _ d := (s.chan (chanOf d) (fun r => r.beginLb (d.byte 24) (d.byte 25)), .hold (some 100000000))

/-- R728, CH_LB_TEST. -/
def execChLbTest (t : Nat) (q : SqRef) (s : State) : Result := .next (s.runDesc t q 0x19 0 chLbTestExec)

/-- R284 the codes that sensing at LB1 feeds in. -/
def lb1Codes : List Nat := [0, 8192, 16383, 0x2AAA, 0x1555]

/-- R284, R731 one code of LB1, ahead of correction: corrected, delivered and seen by the windows, which raise no event. -/
def ChR.lb1Code (r : ChR) (code : Nat) : ChR :=
  let a := r.c.adc
  let cu := a.trim[0].current (a.convOfs false) code
  let cv := a.trim[1].current (a.convOfs true) code
  let vb := a.trim[2].level (a.convOfs false) code
  let w := -(4 * cu + 4 * cv)
  let r := r.adc (fun x => { x with flags := if sat16 w = w then x.flags else x.flags ||| 0x80000#32 })
  let r := (r.giveAll 0x200 [word16 (4 * cu), word16 (4 * cv), word16 (sat16 w)]).give 0x203 (2 * vb)
  (((r.windows 0 (cu + 8192).toNat).windows 1 (cv + 8192).toNat).windows 2
    (clampInt (-8192) 8191 (-(cu + cv)) + 8192).toNat).windows 3 vb

/-- R731 the levels of sensing at LB2. -/
def lb2Level (k : Nat) : Nat := 64 + 128 * k

/-- R731 the outputs that a level of the test DAC must give, and the comparators it tests: those whose threshold is more than 16
steps away. -/
def AdcS.lb2Cmp (a : AdcS) (level : Nat) (got : BitVec 5) : Bool :=
  (List.finRange 5).all (fun k =>
    let thr := a.threshold k
    decide (level ≤ thr + 16 ∧ thr ≤ level + 16) ||
      got.getLsbD k == (if k.val = 1 ∨ k.val = 3 then decide (level < thr) else decide (thr < level)))

/-- R730, R731 the FAIL bits of sensing at LB2. -/
def AdcS.lb2Fails (a : AdcS) (codes : List (Nat × Nat)) (cmps : List (BitVec 5)) (dacs : Bool) : BitVec 5 :=
  let near (k c : Nat) : Bool := decide (lb2Level (k / 3) * 16 ≤ c + 128) && decide (c ≤ lb2Level (k / 3) * 16 + 128)
  let at' := codes.zipIdx
  let bad (x : Bool) (i : Nat) : BitVec 5 := if x then BitVec.ofNat 5 (2 ^ i) else 0
  bad (!at'.all (fun x => near x.2 x.1.1)) 0 ||| bad (!at'.all (fun x => near x.2 x.1.2)) 1 |||
    bad (!codes.all (fun x => decide (x.1 ≤ x.2 + 64) && decide (x.2 ≤ x.1 + 64))) 2 |||
    bad (!cmps.zipIdx.all (fun x => a.lb2Cmp (lb2Level x.2) x.1)) 3 ||| bad dacs 4

/-- R320, R732, R733 a test has run its whole length: the pattern of a position test, with HALL the samples of its last state;
four carrier periods of a gate test. -/
def ChR.lbOver (r : ChR) (l : LbRun) : Bool :=
  match l.target with
  | 0 => true
  | 1 => decide (patternLen r.c.posMode ≤ l.made)
  | _ => decide (4 * actPeriod r.c.pwm.period * sixteenth ≤ r.c.ticksWithin r.env.time l.start r.env.t)

/-- R320, R730 to R733 a loop-back test ends by itself. Sensing at LB1 passes its codes through the channel's own correction. -/
def ChR.lbDone (r : ChR) (found : LbFound) : ChR :=
  let r := r.sampleFirst
  match r.c.core.lb with
  | some l =>
    if r.lbOver l then
      let analog := l.target == 0 && l.depth == 2
      match found with
      | .analog codes cmps dacs =>
        if analog && codes.length == 24 && cmps.length == 8 then r.endLb (r.c.adc.lb2Fails codes cmps dacs).toNat 0 else r
      | .digital fails =>
        if analog then r
        else
          let r := r.when (l.target == 0) (fun r => lb1Codes.foldl ChR.lb1Code r)
          let runs := l.target == 1 && r.c.posMode == 3 && decide (r.c.pos.invRun < atLeast1 (fld r.c.pos.cfg 19 16))
          r.endLb (fails ||| l.bad ||| (if runs then 16#5 else 0#5)).toNat 0
    else r
  | none => r

/-- R730, R734, LB_TEST_DONE: the test ends by itself. -/
def execLbTestDone (t : Nat) (n : ChanId) (found : LbFound) (s : State) : Result := s.chCmd t n (fun r => r.lbDone found)

/-! ### Identification (R145 to R149) -/

/-- R145 IDENT is entered: step 1 checks, in the order of the reasons of R148. -/
def ChR.beginIdent (r : ChR) (cause : Nat) : ChR :=
  let par (i : Fin 34) : Nat := actFcu i r.c.fcu.par[i]
  let r := r.core (fun c => { c with ident := some {
    start := r.env.t, rs := c.motorRs, ls := c.motorLs, iFs := par 4, vFs := par 5, rsMeas := none } })
  let r := r.goto .ident cause
  let fail := if r.c.adc.vbus < 1024 then 1 else if r.c.active &&& 0xF ≠ 0 then 2
    else if r.c.posMode ≠ 0 ∧ r.c.pos.still = false then 3 else 0
  if fail = 0 then r else (r.abortIdent fail none).goto .off 0x54

/-- R136 CH_IDENT. -/
def chIdentExec : Exec where
  check s _ d :=
    let n := chanOf d
    firstFail [inStates (fun c => c == .off || c == .ready || c == .wrongMotor) s n, notBasking s, permitted s n, inService s n]
  run s _ d :=
    let n := chanOf d
    let s := s.chan n (fun r => r.beginIdent 0x18)
    if s.chans[n].core.code = .ident then (s, .hold (some 500000000))
    else (s, .now stOk 0 (fld s.chans[n].core.identRs 31 24 * 256))

/-- R136, CH_IDENT. -/
def execChIdent (t : Nat) (q : SqRef) (s : State) : Result := .next (s.runDesc t q 0x18 0 chIdentExec)

/-- R146, R157 RS_MEAS in 0.1 mΩ from the samples of step 3, corrected as slot conversions are (R252); a mean current of 0 or
below gives no value (log 10). -/
def identRs (a : AdcS) (i : IdentRun) (m : List (Nat × Nat × Nat)) (free : Nat) : Nat :=
  let v := m.foldl (fun x (p : Nat × Nat × Nat) => x + a.vbusOf p.1 * p.2.1) 0
  let c := m.foldl (fun (x : Int) (p : Nat × Nat × Nat) => x + a.currentOf false p.2.2) 0
  if c ≤ 0 then (Config.freeInt free 22).toNat % 1048576
  else (rndDiv (v * i.vFs * 100000 : Nat) (65536 * 3 * c.toNat * i.iFs)).toNat

/-- R156 TP in ns, as it acts. -/
def CoreS.identTp (c : CoreS) : Nat := atLeast1 (fld c.identCfg 31 24) * 250
/-- R156 I_TEST in converter codes, as it acts. -/
def CoreS.identI (c : CoreS) : Nat := atLeast1 (fld c.identCfg 13 0)

/-- R145 a pulse of step 5 lasts TP, or less when its current has reached 2 × I_TEST. -/
def Chan.identPulseOk (c : Chan) (p : Nat × Nat × Nat) : Bool :=
  p.2.1 == c.core.identTp || (decide (p.2.1 < c.core.identTp) && decide ((2 * c.core.identI : Int) ≤ c.adc.currentOf false p.2.2))

/-- R146 LS of one pulse in 2^-32 of 0.1 µH, none without current. -/
def pulseLs (a : AdcS) (i : IdentRun) (p : Nat × Nat × Nat) : Option Int :=
  let c := a.currentOf false p.2.2
  if c ≤ 0 then none else some (rndDiv (a.vbusOf p.1 * i.vFs * p.2.1 * 2 ^ 32 : Nat) (30 * c.toNat * i.iFs))

/-- R146, R157 LS_MEAS in 0.1 µH, the mean of the pulses; a pulse without current gives no value (log 10). -/
def identLs (a : AdcS) (i : IdentRun) (m : List (Nat × Nat × Nat)) (free : Nat) : Nat :=
  match m.mapM (pulseLs a i) with
  | some (x :: xs) => (rndDiv ((x :: xs).foldl (· + ·) 0) ((xs.length + 1) * 2 ^ 32)).toNat
  | _ => (Config.freeInt free 23).toNat % 1048576

/-- R147 a measurement lies outside its tolerance. -/
def identOut (profile : Word) (meas : Nat) : Bool :=
  let tol := min (fld profile 31 24) 100
  let nom := fld profile 19 0
  tol ≠ 0 && decide (nom * tol < 100 * ((meas : Int) - nom).natAbs)

/-- R145 step 6: the identification is completed, 73 ms after its start. RS_OUT and LS_OUT compare the measurements before they
saturate (DESIGN CHOICE, log 42). -/
def ChR.identEnds (r : ChR) (i : IdentRun) (rs ls : Nat) : ChR :=
  let ro := identOut i.rs rs
  let lo := identOut i.ls ls
  let pass := !ro && !lo
  let mRs := min rs 1048575
  let mLs := min ls 1048575
  let r := r.core (fun c => { c with
    ident := none
    verified := pass
    identRs := pack [(23, 1, b2n ro), (0, 20, mRs)]
    identLs := pack [(23, 1, b2n lo), (0, 20, mLs)] })
  let r := r.event 0x1012 [u32 16 mRs, u32 20 mLs, u8 24 (b2n ro + 2 * b2n lo), u8 25 0]
  (r.finish [0x18] stOk 0 (b2n ro + 2 * b2n lo)).goto (if pass then .ready else .wrongMotor) (if pass then 0x52 else 0x53)

/-- R145 to R148 what an identification finds: step 3 done at 31 ms; a VBUS code below 1,024; all its steps done at 73 ms. -/
def ChR.identDone (r : ChR) (w : IdentStep) : ChR :=
  match r.c.core.ident with
  | none => r
  | some i =>
    match w with
    | .steady m =>
      if i.start + 31000000 ≤ r.env.t then
        r.core (fun c => { c with ident := some { i with rsMeas := some (identRs r.c.adc i m r.env.free) } })
      else r
    | .bus uv => if r.c.adc.vbusOf uv < 1024 then (r.abortIdent 1 r.rsAtAbort).goto .off 0x54 else r
    | .completed m =>
      match i.rsMeas with
      | some rs =>
        if i.start + 73000000 ≤ r.env.t ∧ m.length = 16 ∧ m.all r.c.identPulseOk = true then
          r.identEnds i rs (identLs r.c.adc i m r.env.free)
        else r
      | none => r

/-- R148, IDENT_DONE. -/
def execIdentDone (t : Nat) (n : ChanId) (w : IdentStep) (s : State) : Result := s.chCmd t n (fun r => r.identDone w)

/-! ### The plug (R140 to R144) -/

/-- R140 a new level of CHn_PLGN whose first sample is at `first` has been stable for 8 samples. -/
def ChR.plugHeld (r : ChR) (first : Nat) : Bool :=
  decide (first ≤ r.env.t) && decide (8 * tickU ≤ r.c.ticksWithin r.env.time first r.env.t)

/-- R140 a qualified deassertion of CHn_PLGN, stamped with its first sample. -/
def ChR.plugFalls (r : ChR) (first : Nat) : ChR :=
  if r.c.core.plugPin && r.plugHeld first then
    let r := r.core (fun c => { c with plugPin := false })
    r.when r.c.core.plugEn (fun r => r.unplug first)
  else r

/-- R140, TAIL_DROP. -/
def execTailDrop (w : Steady) (n : ChanId) (s : State) : Result := s.chCmd w.t n (fun r => r.plugFalls w.first)

/-- R143 a qualified assertion of CHn_PLGN. -/
def ChR.plugRises (r : ChR) (first : Nat) : ChR :=
  if !r.c.core.plugPin && r.plugHeld first then
    r.core (fun c => { c with
      plugPin := true
      debounce := if c.plugEn && c.isUnplugged then some r.env.t else c.debounce })
  else r

/-- R143, PLUG_ASSERTED. -/
def execPlugAsserted (w : Steady) (n : ChanId) (s : State) : Result := s.chCmd w.t n (fun r => r.plugRises w.first)

/-- R143, R132, R710 the debounce completes. -/
def ChR.debounced (r : ChR) : ChR :=
  match r.c.core.debounce with
  | some f =>
    if f + 200000000 ≤ r.env.t then
      let r := (r.core (fun c => { c with isUnplugged := false, debounce := none })).event 0x1011 []
      if r.c.core.code = .unplugged then
        if r.c.profileSet && r.c.autoIdent && !r.env.failed && !r.env.basking then r.beginIdent 0x51 else r.goto .off 0x51
      else r
    else r
  | none => r

/-- R143, PLUGGED. -/
def execPlugged (t : Nat) (n : ChanId) (s : State) : Result := s.chCmd t n ChR.debounced

/-! ### Stopping, retry, STO readback (R132, R448 to R450, R439) -/

/-- R132 STOP_LIMIT has passed in STOPPING. -/
def ChR.stopLimit (r : ChR) : ChR :=
  match r.c.core.stopFrom with
  | some f =>
    if r.c.core.code == .stopping && !r.c.wrongPending && timedOut (f + r.c.stopLimit) r.env.t then r.goto r.c.idleCode 0x21
    else r
  | none => r

/-- R132, STOP_LIMIT_EXPIRED. -/
def execStopLimitExpired (t : Nat) (n : ChanId) (s : State) : Result := s.chCmd t n ChR.stopLimit

/-- R450 a retry to RUN: the release of the gate lanes is due. -/
def ChR.retryRun (r : ChR) : ChR :=
  let late := r.lateForBoundary
  let r := r.pwm (fun p => { p with set := none, setValid := false, duty := {}, released := false, release := true,
                                    releaseLate := late })
  (r.fcu (fun f => { f with startDone := false })).nle NleS.feFresh

/-- R448 RETRY_WAIT has passed. -/
def ChR.retry (r : ChR) : ChR :=
  match r.c.prot.wait with
  | none => r
  | some (from', therm) =>
    if r.c.core.code ≠ .tripped ∨ r.c.core.thermal ∨ r.env.t < from' + r.c.retryWait then r
    else if therm && r.c.active.getLsbD 9 then r
    else if r.c.activeNoPlg ≠ 0 then
      (r.protTrip r.env.t r.c.prot.firstSrc r.c.prot.firstCause r.c.prot.n .locked).goto .locked 0x31
    else
      let new := if !r.c.core.onPll then r.c.idleCode else if r.c.autoRun && r.env.permit then .run else .armed
      let r := (r.event 0x1081 [u8 16 r.c.prot.firstSrc, u8 17 (r.c.retryMax - r.c.prot.nLast), u8 18 new.num]).goto new 0x32
      if new = .armed then r.armedChecks else r.when (new == .run) ChR.retryRun

/-- R448, RETRY_WAIT_EXPIRED. -/
def execRetryWaitExpired (t : Nat) (n : ChanId) (s : State) : Result := s.chCmd t n ChR.retry

/-- R439 source STO: the readback of the gate differs from the request. -/
def ChR.stoReadback (r : ChR) (differs : Bool) : ChR :=
  if differs && !r.c.prot.sto then
    (r.prot (fun p => { p with sto := true })).qualify { src := 6, cause := 0, stamp := r.env.t } []
  else r.prot (fun p => { p with sto := differs })

/-- R439, STO_READBACK_FAULT. -/
def execStoReadbackFault (t : Nat) (n : ChanId) (differs : Bool) (s : State) : Result :=
  s.chCmd t n (fun r => r.stoReadback differs)

/-! ### The loop engine's opcodes (R398 to R401) -/

/-- R398 an entry field: present with its address. -/
def entryField (w : Nat) : Option Nat := if w.testBit 15 then some (w % 1024) else none

/-- R399 the effect of a load. -/
def ChR.nleLoad (r : ChR) (d : Desc) (bs : List Byte) : ChR :=
  let r := r.nle (fun e => { e with loaded := false, store := Cells.setAll 0 e.store (d.num 24 2 % 1024) (words bs) })
  let e (k : Nat) : Option Nat := entryField (d.num (28 + 2 * k) 2)
  if d.byte 26 % 2 = 1 ∧ (e 0).isSome then
    r.nle (fun x => { x with
      loaded := true
      progId := d.num 52 2
      entries := #v[e 0, e 1, e 2, e 3]
      budgets := #v[d.num 36 4, d.num 40 4, d.num 44 4, d.num 48 4] })
  else r

/-- R399 the states in which NLE_LOAD is permitted. -/
def ChCode.loadOk (c : ChCode) : Bool :=
  match c with
  | .off => true
  | .ready => true
  | .unplugged => true
  | .ident => true
  | .wrongMotor => true
  | .locked => true
  | _ => false

/-- R399 NLE_LOAD. -/
def nleLoadExec (buf : Buf) : Exec where
  check s _ d :=
    let a := d.num 24 2 % 1024
    firstFail [failIf (decide (1024 < a + d.length / 4)) stLenRange ((1024 - a) * 4), inStates ChCode.loadOk s (chanOf d)]
  run := withBuf buf fun bs s _ d =>
    let s := s.chan (chanOf d) (fun r => r.nleLoad d bs)
    (s, .now stOk 0 (b2n s.chans[chanOf d].nle.loaded))

/-- R399, NLE_LOAD. -/
def execNleLoad (t : Nat) (q : SqRef) (buf : Buf) (s : State) : Result :=
  .next (s.runDesc t q 0x20 (bufSize buf) (nleLoadExec buf))

/-- R399 the further length check of PSM transfers. -/
def psmFits (d : Desc) : Option Fail :=
  let a := d.num 24 2 % 512
  failIf (decide (512 < a + d.length / 2)) stLenRange ((512 - a) * 2)

/-- R115, R399, R400 the chunks of the channel's transfer that may go now, and how the transfer ends if it has: status and
DETAIL. -/
def State.psmMove (s : State) (p : PortId) (n : ChanId) (stored : Bool) : State × Option Fail :=
  let e := NleS.moveChunks 34 s.chans[n].nle
  match e.job with
  | some j =>
    if j.left = 0 then
      let s := s.chan n (fun r => r.nle (fun _ => { e with job := none }))
      let bs := j.words.flatMap (fun x => leBytes 2 x.toNat)
      if !j.read then (s, some (stOk, 0))
      else if stored then (s.emit p bs.length (.buffer p j.bufAddr bs), some (stOk, 0))
      else (s, some (stDma, 2))
    else (s.chan n (fun r => r.nle (fun _ => e)), none)
  | none => (s, none)

/-- R400 a transfer begins. -/
def State.psmBegin (s : State) (p : PortId) (d : Desc) (stored read : Bool) (ws : List Half) : State × Ending :=
  let n := chanOf d
  let s := s.chan n (fun r => r.nle (fun e => { e with job := some {
    addr := d.num 24 2 % 512, left := d.length / 2, words := ws, read := read, bufAddr := d.bufAddr, first := true } }))
  match s.psmMove p n stored with
  | (s, some (status, detail)) => (s, .now status detail 0)
  | (s, none) => (s, .hold none)

/-- R400 the ring's descriptor `op` is under way and its next chunks go; answers none where it is not under way. -/
def State.psmGoesOn (s : State) (q : SqRef) (op : Nat) (stored : Bool) : Option State :=
  match (s.sqAt q).held with
  | some h =>
    match unitIs h.unit with
    | some (.channel n) =>
      if h.opcode = op then some (match s.psmMove q.port n stored with
        | (s, some (status, detail)) => s.finish h.unit [op] status detail 0
        | (s, none) => s)
      else none
    | _ => none
  | none => none

/-- R399 NLE_PSM_WRITE. -/
def psmWriteExec (buf : Buf) : Exec where
  check _ _ d := psmFits d
  run := withBuf buf fun bs s p d => s.psmBegin p d true false (halves bs)

/-- R399, R400, NLE_PSM_WRITE: the descriptor taken, or the next chunks of the one under way. A WAIT_LIMIT that passes, or the
loss of the port, ends a transfer after the chunks it has made (log 125). -/
def execNlePsmWrite (t : Nat) (q : SqRef) (buf : Buf) (s : State) : Result :=
  .next (((s.at t).psmGoesOn q 0x21 true).getD (s.runDesc t q 0x21 (bufSize buf) (psmWriteExec buf)))

/-- R399 NLE_PSM_READ, into the host's buffer. -/
def psmReadExec (stored : Bool) : Exec where
  check _ _ d := psmFits d
  run s p d := s.psmBegin p d stored true []

/-- R399, R400, NLE_PSM_READ: the descriptor taken, or the next chunks of the one under way (log 125). -/
def execNlePsmRead (t : Nat) (q : SqRef) (stored : Bool) (s : State) : Result :=
  .next (((s.at t).psmGoesOn q 0x22 stored).getD (s.runDesc t q 0x22 0 (psmReadExec stored)))

/-- R401 one delivery of the mailbox, and the HOST trigger. A trigger that waits already takes this delivery. -/
def ChR.mailbox (r : ChR) (cmd : Nat) (ws : List Half) : ChR :=
  let r := r.giveAll 0x250 ((ws.map BitVec.toNat) ++ List.replicate (16 - ws.length) 0)
  let r := r.giveAll 0x260 [ws.length, cmd]
  let r := if r.c.nle.pend[3].isSome then
      r.nle (fun e => { e with orphans := b2n (e.run.any (fun u => u.entry == .host)) })
    else r
  r.trigger .host r.env.t 0

/-- R401 NLE_MAILBOX. -/
def mailboxExec (buf : Buf) : Exec where
  check s _ d :=
    let c := s.chans[chanOf d]
    firstFail [failIf (!c.nle.enabled) stBadState c.core.code.num, failIf c.nle.entries[3].isNone stBusy 1]
  run := withBuf buf fun bs s _ d =>
    (s.chan (chanOf d) (fun r => r.mailbox (d.num 24 2) (halves bs)), .hold (some 10000000))

/-- R401, NLE_MAILBOX. -/
def execNleMailbox (t : Nat) (q : SqRef) (buf : Buf) (s : State) : Result :=
  .next (s.runDesc t q 0x23 (bufSize buf) (mailboxExec buf))

/-- R139, R402, R20 a BIND or UNBIND of the channel. -/
def ChR.rebind (r : ChR) : ChR :=
  let r := if r.c.tb.seqBegan.isSome then (r.stopPll).finish [0x10] stAborted r.c.core.code.num 0 else r
  (r.setpoint 255 (fun _ => 0)).core (fun c => { c with rwlDrop := 0 })

end Sys2Proof.Machine
end

