-- ==== Sys2Proof/Machine/Fixes.lean ====
section
/-! DEFINITION. Position fixes (chapter 12): the ports, acceptance, sources and staleness, and the pose of R487. -/
namespace Sys2Proof.Machine

/-! ### Updates and fields -/

/-- The FPE replaced. -/
def State.onFpe (s : State) (f : FpeS → FpeS) : State := { s with fpe := f s.fpe }

/-- An event of the FPE stamped now. -/
def State.fpeEvent (s : State) (code : Nat) (data : List EvField) : State := s.raiseUnit code fpeUnit s.dtime data

/-- R503 the FPE is bound. -/
def State.fpeBound (s : State) : Bool := (s.ownerOf fpeUnit).isSome

/-- R709 the FPE and the tile cache are out of service. -/
def State.fpeFailed (s : State) : Bool := s.dev.sharedFail.getLsbD 1

/-- R511 PRIO0, PRIO1, PRIO2, first places only. -/
def FpeS.listed (f : FpeS) : List Nat := ([fld f.srcCfg 31 30, fld f.srcCfg 29 28, fld f.srcCfg 27 26].filter (· < 3)).eraseDups

/-- R511 STALE_T as it acts, in ns. -/
def FpeS.staleT (f : FpeS) : Nat := clampNat 10 1000 (fld f.srcCfg 9 0) * 1000000

/-- R487, R510 P: the tick period in ns. -/
def FpeS.period (f : FpeS) : Nat := (rndDiv 1000000000 (clampNat 250 2000 (fld f.ctrl 11 0))).toNat

/-- The source with a number. -/
def FpeS.source (f : FpeS) (k : Nat) : SrcS := f.src.toList.getD k {}

/-- R483 the fresh sources among the listed ones, in rank order. -/
def FpeS.fresh (f : FpeS) : List Nat := f.listed.filter (fun k => (f.source k).fresh)

/-! ### Source selection (R484, R485) -/

/-- R484 the active source changes. -/
def State.setActive (s : State) (k : Nat) : State :=
  if s.fpe.active = k then s
  else (s.onFpe (fun f => { f with active := k })).fpeEvent 0x2002 [u8 16 k, u8 17 s.fpe.active]

/-- R485 the last fresh source has gone: NO_FIX, raised once, with the arrival of its last fix in time. -/
def State.noFix (s : State) (last stamp arrival : Nat) : State :=
  if s.fpe.pose && s.fpe.fresh.isEmpty then
    (s.onFpe (fun f => { f with pose := false })).raiseUnit 0x2003 fpeUnit stamp [u8 16 last, u32 20 arrival]
  else s

/-- One source changed. -/
def State.onSrc (s : State) (k : Fin 3) (f : SrcS → SrcS) : State :=
  s.onFpe fun x => { x with src := x.src.set k (f x.src[k]) }

/-- R483 a source is no longer fresh: its deadline `stamp` has passed, and its last fix in time arrived at `arrival`. -/
def State.goStale (s : State) (k : Fin 3) (stamp arrival : Nat) : State :=
  (s.onSrc k fun x => { x with fresh := false, run := 0, owed := none }).noFix k stamp arrival

/-- R485 the first accepted fix ends NO_FIX and its source becomes active. -/
def State.restoreFix (s : State) (k : Fin 3) (qual : Nat) : State :=
  if s.fpe.pose then s
  else
    ((s.onFpe (fun f => { f with pose := true })).fpeEvent 0x2004 [u8 16 k, u8 17 qual]).setActive k

/-- R62, R63 the declaration of a deadline that a later fix came after: the source goes stale, and that fix makes it fresh
again. -/
def State.owedStale (s : State) (k : Fin 3) (d arrival : Nat) : State :=
  let was := s.fpe.src[k]
  let s := s.goStale k d arrival
  match was.last with
  | some x => if d < x.arrival then (s.onSrc k fun x => { x with fresh := true, run := was.run }).restoreFix k x.qual else s
  | none => s

/-- R61, R62, R483, SOURCE_STALE. -/
def State.sourceStale (s : State) (k : Fin 3) : State :=
  match s.fpe.src[k].owed, s.fpe.src[k].last with
  | some (d, a), _ => if timedOut d s.dtime then s.owedStale k d a else s
  | none, some x =>
    let d := x.arrival + s.fpe.staleT
    if s.fpe.src[k].fresh && timedOut d s.dtime then s.goStale k d x.arrival else s
  | none, none => s

/-- R483, SOURCE_STALE. -/
def execSourceStale (t : Nat) (src : Fin 3) (s : State) : Result := .next ((s.at t).sourceStale src)

/-! ### Accepting a fix (R477 to R482) -/

/-- The unsigned little-endian field of a fix body. -/
def bodyNum (bs : List Byte) (off n : Nat) : Nat := ofBytes ((bs.drop off).take n)
/-- A signed 32-bit field of a fix body. -/
def bodyInt (bs : List Byte) (off : Nat) : Int := toSigned 32 (bodyNum bs off 4)

/-- R480 the fix epoch. -/
def State.fixEpoch (s : State) (arrival : Nat) (bs : List Byte) : Int :=
  if (bodyNum bs 10 2).testBit 3 && s.time.ppsLock then
    let edge : Int := if s.time.ppsStamp ≤ arrival then s.time.ppsStamp
      else (s.time.ppsPrev.find? (fun e => decide (e ≤ arrival))).getD 0
    let e := edge + bodyNum bs 24 4
    if (arrival : Int) < e then e - 1000000000 else e
  else (arrival : Int) - bodyNum bs 20 4 * 1000

/-- R478 QUAL. -/
def bodyQual (bs : List Byte) : Nat := bodyNum bs 10 2 / 32 % 4

/-- R481 the reason to reject a fix, the first that matches. -/
def FpeS.rejectFix (f : FpeS) (k : Fin 3) (arrival : Nat) (epoch : Int) (bs : List Byte) : Option Nat :=
  let hmax := fld f.srcCfg 17 10
  let prev := f.src[k].last
  if bodyQual bs = 0 ∨ bodyQual bs < atLeast1 (fld f.srcCfg 19 18) then some 0
  else if hmax ≠ 0 ∧ hmax * 10 < bodyNum bs 28 2 then some 1
  else if prev.any (fun x => decide (epoch ≤ x.epoch)) then some 2
  else if prev.any (fun x => decide (epoch < x.epoch + 9000000)) then some 3
  else if (f.staleT : Int) < (arrival : Int) - epoch then some 4
  else if f.listed.contains k.val = false then some 5
  else none

/-- sin × 2^64 of an angle in 2^-64 revolution within the first quadrant. -/
def sinQ64 (r : Nat) : Int :=
  let x := r * 2 * piFix / 2 ^ 64
  sinTerms 24 (x * x / 2 ^ 64) x 1 true 0

/-- sin × 2^64 of an angle in 2^-64 revolution. -/
def sinRev (a : Nat) : Int :=
  let r := a % 2 ^ 62
  match a / 2 ^ 62 % 4 with
  | 0 => sinQ64 r
  | 1 => sinQ64 (2 ^ 62 - r)
  | 2 => -(sinQ64 r)
  | _ => -(sinQ64 (2 ^ 62 - r))

/-- cos × 2^64 of an angle in 2^-64 revolution. -/
def cosRev (a : Nat) : Int := sinRev (a + 2 ^ 62)

/-- The greatest angle below a quarter revolution, in 2^-32 revolution, whose tangent is at most `x / y`. -/
def courseAux : Nat → Nat → Nat → Nat → Nat
  | 0, _, _, a => a
  | b + 1, x, y, a =>
    let a' := a + 2 ^ b
    if (y : Int) * sinRev (a' * 2 ^ 32) ≤ (x : Int) * cosRev (a' * 2 ^ 32) then courseAux b x y a' else courseAux b x y a

/-- R482 the course of a displacement, clockwise from grid north, in 2^-32 revolution. -/
def course (de dn : Int) : Nat :=
  let a := courseAux 30 de.natAbs dn.natAbs 0
  let a : Int := if 0 ≤ dn then (a : Int) else (2 ^ 31 : Int) - a
  (Int.emod (if 0 ≤ de then a else -a) (2 ^ 32)).toNat

/-- R477, R482 the fix that a body gives, with what it lacks derived from the previous one. -/
def takeFix (prev : Option Fix) (arrival : Nat) (epoch : Int) (bs : List Byte) : Fix :=
  let flags := bodyNum bs 10 2
  let e := bodyInt bs 0
  let n := bodyInt bs 4
  let heading : Nat :=
    if flags.testBit 0 then bodyNum bs 8 2 * 65536
    else match prev with
      | some x =>
        let d2 := (e - x.east) * (e - x.east) + (n - x.north) * (n - x.north)
        if 10000 ≤ d2 then course (e - x.east) (n - x.north) else x.heading
      | none => 0
  let dt : Nat := match prev with
    | some x => (epoch - x.epoch).toNat
    | none => 1
  let speed : Int :=
    if flags.testBit 1 then bodyInt bs 12 * 65536
    else match prev with
      | some x =>
        let d2 := ((e - x.east) * (e - x.east) + (n - x.north) * (n - x.north)).toNat
        rndDiv ((isqrt (d2 * 2 ^ 32) : Nat) * 1000000000 : Nat) dt
      | none => 0
  let yaw : Int :=
    if flags.testBit 2 then bodyInt bs 16 * 65536
    else match prev with
      | some x => rndDiv (toSigned 32 ((heading + 2 ^ 32 - x.heading) % 2 ^ 32) * 1000000000) dt
      | none => 0
  { east := e, north := n, heading := heading, speed := speed, yaw := yaw, epoch := epoch, arrival := arrival,
    qual := bodyQual bs, hitch := if flags.testBit 4 then some (toSigned 16 (bodyNum bs 30 2)) else none }

/-- R62, R63 the staleness deadline that a fix arriving at `arrival` comes after: declared at once where that is due, else
owed. -/
def State.missDeadline (s : State) (k : Fin 3) (arrival : Nat) : State :=
  match s.fpe.src[k].last, s.fpe.src[k].owed with
  | some x, none =>
    let d := x.arrival + s.fpe.staleT
    if s.fpe.src[k].fresh && decide (d < arrival) then
      if timedOut d s.dtime then s.goStale k d x.arrival else s.onSrc k fun y => { y with owed := some (d, x.arrival), run := 0 }
    else s
  | _, _ => s

/-- R481 a fix offered for acceptance; answers the reason code of a rejection. -/
def State.offerFix (s : State) (k : Fin 3) (arrival : Nat) (bs : List Byte) : State × Option Nat :=
  let s := s.missDeadline k arrival
  let epoch := s.fixEpoch arrival bs
  match s.fpe.rejectFix k arrival epoch bs with
  | some reason =>
    ((s.onFpe (fun f => { f with
        fixReject := satInc 65535 f.fixReject
        src := f.src.set k { f.src[k] with run := 0 } })).raiseLimited 0x2007 fpeUnit 18 [u8 16 k, u8 17 reason],
      some reason)
  | none =>
    let x := s.fpe.src[k]
    let fix := takeFix x.last arrival epoch bs
    let s := s.onFpe (fun f => { f with
      src := f.src.set k { x with last := some fix, prev := x.last, fresh := true, run := satInc 15 x.run } })
    (s.restoreFix k fix.qual, none)

/-! ### Position ports (R473 to R476, R508) -/

/-- One step of the CRC of R475 for one bit. -/
def ccittBit (c : Nat) : Nat := if 32768 ≤ c then (2 * c % 65536) ^^^ 0x1021 else 2 * c

/-- R475 one more byte. -/
def ccittByte (c : Nat) (b : Byte) : Nat :=
  ccittBit (ccittBit (ccittBit (ccittBit (ccittBit (ccittBit (ccittBit (ccittBit (c ^^^ (b.toNat * 256)))))))))

/-- R475 CRC: polynomial 0x1021, initial value 0xFFFF, no reflection, no final inversion. -/
def ccitt (bs : List Byte) : Nat := bs.foldl ccittByte 0xFFFF

/-- R473, R508 EN. -/
def PosPort.en (p : PosPort) : Bool := bitOf p.cfg 31
/-- R508 LB. -/
def PosPort.lb (p : PosPort) : Nat := fld p.cfg 30 29

/-- R476 a frame error. -/
def State.frameError (s : State) (p : Fin 2) (kind : Nat) : State :=
  (s.onFpe (fun f => { f with ports := f.ports.set p { f.ports[p] with
    frameErr := satInc 65535 f.ports[p].frameErr } })).raiseLimited 0x2006 fpeUnit 18 [u8 16 p, u8 17 kind]

/-- R508 a frame received intact in loop-back. -/
def State.lbCount (s : State) (p : Fin 2) : State :=
  s.onFpe (fun f => { f with ports := f.ports.set p { f.ports[p] with lbCnt := satInc 65535 f.ports[p].lbCnt } })

/-- R508, R480 a frame that is whole and intact: counted in loop-back, else its fix is offered. -/
def State.goodFrame (s : State) (p : Fin 2) (body : List Byte) : State :=
  if s.fpe.ports[p].lb ≠ 0 then s.lbCount p
  else if s.fpeBound && !s.fpeFailed then (s.offerFix ⟨p.val, by omega⟩ s.dtime (body.take 40)).1
  else s

/-- R474, R476 the receiver hunts for SYNC and takes frames. After an error it hunts again from the byte after the first SYNC
byte, but it skips a frame of another TYPE as a whole (log 126); bytes of a frame that is not whole wait for the rest. -/
def State.hunt (p : Fin 2) : Nat → List Byte → State → State
  | 0, _, s => s
  | _ + 1, [], s => s
  | k + 1, b :: rest, s =>
    let bs := b :: rest
    let len := (bs.getD 3 0).toNat
    if b ≠ 0xA7#8 ∨ bs.getD 1 0 ≠ 0x4E#8 then State.hunt p k rest s
    else if bs.length < 4 then s
    else if len < 40 ∨ 64 < len then State.hunt p k rest (s.frameError p 2)
    else if bs.length < len + 6 then s
    else if ccitt ((bs.drop 2).take (len + 2)) ≠ bodyNum bs (len + 4) 2 then State.hunt p k rest (s.frameError p 0)
    else State.hunt p k (bs.drop (len + 6)) (if bs.getD 2 0 ≠ 1#8 then s.frameError p 3 else s.goodFrame p ((bs.drop 4).take len))

/-- R473, R474, R476 the bytes of a frame on a port: SYNC, TYPE, LEN, body, CRC. -/
def State.fixFrame (s : State) (p : Fin 2) (bs : List Byte) : State :=
  if s.powered && s.fpe.ports[p].en then State.hunt p bs.length bs s else s

/-- R474, FIX_FRAME. -/
def execFixFrame (t : Nat) (port : Fin 2) (frame : List Byte) (s : State) : Result := .next ((s.at t).fixFrame port frame)

/-- R476 an error that the receiver finds before a frame is whole. -/
def State.portError (s : State) (p : Fin 2) (kind : Nat) : State :=
  if s.powered && s.fpe.ports[p].en then s.frameError p kind else s

/-- R476 kind 4, FRAME_GAP. -/
def execFrameGap (t : Nat) (port : Fin 2) (s : State) : Result := .next ((s.at t).portError port 4)
/-- R476 kinds 1 and 2, FRAMING_ERROR. -/
def execFramingError (t : Nat) (port : Fin 2) (lenBad : Bool) (s : State) : Result :=
  .next ((s.at t).portError port (if lenBad then 2 else 1))
/-- R508 the built-in frame, sent every 10 ms while LB ≠ 0, comes back intact, or its errors come as their own commands. -/
def State.lbFrame (s : State) (p : Fin 2) (intact : Bool) : State :=
  let x := s.fpe.ports[p]
  if s.powered && decide (x.lb ≠ 0) && x.lbAt.all (fun a => decide (a + 10000000 ≤ s.dtime)) then
    let s := s.onFpe (fun f => { f with ports := f.ports.set p { f.ports[p] with lbAt := some s.dtime } })
    if x.en && intact then s.lbCount p else s
  else s

/-- R508, LB_FRAME. -/
def execLbFrame (t : Nat) (port : Fin 2) (intact : Bool) (s : State) : Result := .next ((s.at t).lbFrame port intact)

/-! ### FPE_FIX (R479) -/

/-- R709 the last check of every FPE opcode. -/
def fpeInService (s : State) : Option Fail := failIf s.fpeFailed stBusy 0x0701

/-- R479 FPE_FIX, its fix stamped at `arrival`. -/
def fpeFixExec (arrival : Nat) (buf : Buf) : Exec where
  check s _ d := firstFail [failIf (0 < d.length && d.length < 40) stLenRange 64, fpeInService s]
  run := withBuf buf fun bs s _ d =>
    let (s, r) := s.offerFix 2 arrival (if d.length = 0 then d.param.take 40 else bs.take 40)
    (s, .now stOk 0 (match r with
      | some reason => reason + 1
      | none => 0))

/-- The arrival stamp of the descriptor that ring `q` executes next. -/
def State.nextStamp (s : State) (q : SqRef) : Nat := ((s.nextDesc q).map (·.stamp)).getD 0

/-- R479, FPE_FIX. -/
def execFpeFix (t : Nat) (q : SqRef) (buf : Buf) (s : State) : Result :=
  .next (s.runDesc t q 0x30 (bufSize buf) (fpeFixExec ((s.at t).nextStamp q) buf))

/-! ### Pose (R487) -/

/-- A pose: east and north in 2^-16 mm, heading in 2^-64 revolution. -/
structure Pose where
  e   : Int
  n   : Int
  phi : Nat
  deriving DecidableEq, Repr

/-- A turn by an angle in 2^-64 revolution. -/
def turn (phi : Nat) (d : Int) : Nat := (Int.emod ((phi : Int) + d) (2 ^ 64)).toNat

/-- R487 the formulas: constant speed (2^-16 mm/s) and yaw rate (2^-32 revolution per second) for `d` ns from a pose. -/
def Pose.advance (p : Pose) (speed yaw d : Int) : Pose :=
  let dphi := rndDiv (yaw * 2 ^ 32 * d) 1000000000
  let phi := turn p.phi dphi
  if (yaw.natAbs * d.natAbs) ≤ 683565275576 then
    { e := p.e + rndDiv (speed * d * sinRev p.phi) (1000000000 * 2 ^ 64)
      n := p.n + rndDiv (speed * d * cosRev p.phi) (1000000000 * 2 ^ 64)
      phi := phi }
  else
    { e := p.e + rndQuot (speed * (cosRev p.phi - cosRev phi) * 2 ^ 32) (2 * piFix * yaw)
      n := p.n + rndQuot (speed * (sinRev phi - sinRev p.phi) * 2 ^ 32) (2 * piFix * yaw)
      phi := phi }

/-- R487 the device's deviation from the formulas: free, within `lim` where the advance is at most 1 s (log 10). -/
def poseError (free key : Nat) (d lim : Int) : Int :=
  let x := Config.freeInt free key
  if d.natAbs ≤ 1000000000 then clampInt (-lim) lim x else x

/-- R487 a pose as the device predicts it: within 1 mm and 1 heading unit of the formulas for up to 1 s. -/
def Pose.predict (p : Pose) (free key : Nat) (speed yaw d : Int) : Pose :=
  let q := p.advance speed yaw d
  { e := q.e + poseError free key d 65536
    n := q.n + poseError free (key + 1) d 65536
    phi := turn q.phi (poseError free (key + 2) d (2 ^ 48)) }

/-- The pose that a fix gives at its epoch. -/
def Fix.pose (f : Fix) : Pose := { e := f.east * 65536, n := f.north * 65536, phi := f.heading * 2 ^ 32 }

/-- R487 the pose predicted at `t` from a fix. -/
def Fix.poseAt (f : Fix) (free key : Nat) (t : Int) : Pose := f.pose.predict free key f.speed f.yaw (t - f.epoch)

/-- A value of the device shown in whole units of `2^b`: the nearest one, within one unit of the formula `x` where the
deviation is bounded. -/
def shown (x dev : Int) (b : Nat) : Int :=
  if (dev - x).natAbs ≤ 2 ^ b then
    clampInt (-((2 ^ b - x) / 2 ^ b)) ((x + 2 ^ b) / 2 ^ b) (rndDiv dev (2 ^ b))
  else rndDiv dev (2 ^ b)

end Sys2Proof.Machine
end

