-- ==== Sys2Proof/Machine/SafeIo.lean ====
section
/-! DEFINITION. Safety input pairs, safety output pairs, operator ports and deliberate reset (chapter 16). -/
namespace Sys2Proof.Machine

/-- R621, R656 an event of the safety executive or of its inputs and outputs. -/
def State.seEvent (s : State) (code stamp : Nat) (data : List EvField) : State := s.raiseAll code seUnit stamp data

/-- R777 an event of the safety executive raised for the first occurrence of each second. -/
def State.seLimited (s : State) (code : Nat) (data : List EvField) : State :=
  let (ls, count) := limitHit s.limits seUnit code s.dtime
  let s := { s with limits := ls }
  match count with
  | some k => s.seEvent code s.dtime (data ++ [u16 18 k])
  | none => s

/-- A command that needs the main supply. -/
def State.mainCmd (s : State) (t : Nat) (f : State → State) : Result :=
  let s := s.at t
  .next (if s.powered then f s else s)

/-- The safety input and output functions changed. -/
def State.onIo (s : State) (f : SafeIoS → SafeIoS) : State := { s with io := f s.io }
/-- One input pair changed. -/
def State.onSi (s : State) (p : Fin 24) (f : SiS → SiS) : State := s.onIo fun x => { x with si := x.si.set p (f x.si[p]) }
/-- One output pair changed. -/
def State.onSo (s : State) (q : Fin 8) (f : SoS → SoS) : State := s.onIo fun x => { x with so := x.so.set q (f x.so[q]) }
/-- One operator port changed. -/
def State.onKey (s : State) (k : Fin 6) (f : KeyS → KeyS) : State :=
  s.onIo fun x => { x with keys := x.keys.set k (f x.keys[k]) }

/-! ### Safety inputs (R626 to R634) -/

/-- A field of a 16-bit configuration word. -/
def hfld (w : Half) (hi lo : Nat) : Nat := (w.toNat >>> lo) % 2 ^ (hi + 1 - lo)

/-- R626 MODE as it acts. -/
def SiS.mode (x : SiS) : Nat := if hfld x.cfg 2 0 ≤ 3 then hfld x.cfg 2 0 else 0
/-- R626 TP_EN, forced to 1 in GUARD; nothing pulses in OFF. -/
def SiS.tested (x : SiS) : Bool := x.mode == 1 || (x.mode != 0 && x.cfg.getLsbD 3)
/-- R626 DISC_T as it acts, ns. -/
def SiS.discT (x : SiS) : Nat := clampNat 1 200 (hfld x.cfg 15 8) * 10000000
/-- R626 FILT as it acts, in samples. -/
def SiS.filt (x : SiS) : Nat := atLeast1 (hfld x.cfg 7 4)
/-- R627 SIp_TA and SIp_TB between the test pulses: high in every MODE but OFF. -/
def SiS.feeds (x : SiS) : Bool := x.mode != 0
/-- R629 the safe combination. -/
def SiS.isSafe (x : SiS) : Bool := x.mode != 0 && x.a && (x.b != (x.mode == 3))
/-- R629 the unsafe combination. -/
def SiS.isUnsafe (x : SiS) : Bool := x.mode != 0 && !x.a && (x.b == (x.mode == 3))

/-- R634 the state word. -/
def SiS.word (x : SiS) : Half :=
  BitVec.ofNat 16 (256 * x.mode + 64 * b2n x.startup + 32 * b2n x.testFault + 16 * b2n x.discFault +
    8 * b2n x.disc.isSome + 4 * b2n x.b + 2 * b2n x.a + b2n x.safe)

/-- R656 SI_STATE. -/
def State.siState (s : State) (p : Fin 24) : State :=
  s.seEvent 0x4010 s.dtime [u8 16 p, u8 17 (b2n s.io.si[p].safe), u16 18 s.io.si[p].word.toNat]

/-- R656 SI_FAULT: what is 0 for a discrepancy, 1 for a test pulse. -/
def State.siFault (s : State) (p : Fin 24) (what stamp : Nat) : State :=
  s.seEvent 0x4011 stamp [u8 16 p, u8 17 what, u16 18 s.io.si[p].word.toNat]

/-- R632 both faults clear once the unsafe combination has been qualified and, with test pulses, a test has then passed. -/
def SiS.clearFaults (x : SiS) : SiS := { x with discFault := false, testFault := false }

/-- R630 to R633 a qualified change has been entered in A and B: what follows at its stamp. No combination shows before
both levels have been qualified. -/
def SiS.qualified (x : SiS) (stamp : Nat) : SiS :=
  if !x.seenA || !x.seenB then x
  else
    let intime := match x.disc with
      | some d => decide (stamp ≤ d)
      | none => x.inTime
    if x.isSafe then
      let x := { x with disc := if intime then none else x.disc, inTime := intime }
      let ok := !x.discFault && !x.testFault && x.inTime
      let startup := x.startup && !(ok && x.startUnsafe)
      { x with startup := startup, safe := x.safe || (ok && !startup) }
    else if x.isUnsafe then
      let x := { x with disc := if intime then none else x.disc, inTime := intime, safe := false, sawUnsafe := true,
                        startUnsafe := true }
      if x.tested then x else x.clearFaults
    else { x with safe := false, disc := some (x.disc.getD (stamp + x.discT)) }

/-- R627 the level of SIp_A (or SIp_B) as the pair holds it; none before the first. -/
def SiS.level (x : SiS) (b : Bool) : Option Bool :=
  if b then (if x.seenB then some x.b else none) else (if x.seenA then some x.a else none)

/-- R627 a level of SIp_A (or SIp_B) entered. -/
def SiS.enter (x : SiS) (b level : Bool) : SiS :=
  if b then { x with b := level, seenB := true } else { x with a := level, seenA := true }

/-- R627 the length of a cycle's test window, ns. -/
def SafeIoS.testWindow (x : SafeIoS) : Nat := 30000 + 2000 * x.tpW

/-- R627 the sample of a contact at DTIME `x` is used: it lies in no test window of the cycles that run. -/
def State.siUsed (s : State) (x : Nat) : Bool :=
  let cyc := s.se.img.cycleUs * 1000
  let idle : Bool := s.se.state == .init || s.se.state == .restart || s.se.state == .halted
  idle || cyc == 0 || decide (s.io.testWindow < x % cyc)

/-- R627 FILT consecutive used samples, 100 µs apart, from `first` to now show the level. -/
def State.siFiltered (s : State) (p : Fin 24) (first : Nat) : Bool :=
  let span := s.dtime - first
  let samples := (List.range (min 400 (span / 100000 + 1))).map (fun i => first + 100000 * i)
  decide (first ≤ s.dtime) && span % 100000 == 0 && decide (span < 40000000) && s.siUsed first && s.siUsed s.dtime &&
  (samples.filter s.siUsed).length == s.io.si[p].filt

/-- R624, R627, SI_LEVEL_QUALIFIED: the filter of SIp_A (or SIp_B) qualifies a level at `t`; a pair in OFF holds none. -/
def State.siLevel (s : State) (p : Fin 24) (b level : Bool) : State :=
  let x := s.io.si[p]
  if x.mode == 0 || x.level b == some level then s
  else
    let y := (x.enter b level).qualified s.dtime
    let s := s.onSi p fun _ => y
    if x.safe == y.safe then s else s.siState p

/-- R627, SI_LEVEL_QUALIFIED. -/
def execSiLevelQualified (w : Steady) (p : Fin 24) (b level : Bool) (s : State) : Result :=
  s.mainCmd w.t fun s => if s.siFiltered p w.first then s.siLevel p b level else s

/-- R631, DISC_TIMEOUT: the deadline of a discrepancy has passed. -/
def execDiscTimeout (t : Nat) (p : Fin 24) (s : State) : Result :=
  s.mainCmd t fun s =>
    match s.io.si[p].disc with
    | some d =>
      if timedOut d s.dtime then
        (s.onSi p fun x => { x with disc := none, discFault := true, sawUnsafe := false, inTime := false }).siFault p 0 d
      else s
    | none => s

/-- R628 when the check of step 3 (or of step 5) of the cycle that starts now is made. -/
def State.testAt (s : State) (five : Bool) : Nat := s.dtime + if five then 20000 + 2000 * s.io.tpW else 10000 + 1000 * s.io.tpW

/-- R628, R632 the test pulses of a cycle for one pair; a fault is stamped with the check that failed first. -/
def State.siTest (s : State) (failedA failedB : BitVec 24) (p : Fin 24) : State :=
  let x := s.io.si[p]
  if !x.tested then s
  else if failedA.getLsbD p || failedB.getLsbD p then
    let s := s.onSi p fun x => { x with testFault := true, sawUnsafe := false }
    if x.testFault then s else s.siFault p 1 (s.testAt (!failedA.getLsbD p))
  else if x.sawUnsafe then s.onSi p SiS.clearFaults
  else s

/-- R628 every pair with test pulses. -/
def State.siTests (s : State) (failedA failedB : BitVec 24) : State :=
  (List.finRange 24).foldl (fun s p => s.siTest failedA failedB p) s

/-- R624, R626, R633 a configuration word takes effect; a pair that comes into GUARD starts up, and one that leaves or
enters OFF holds no level. -/
def SiS.configure (x : SiS) (w : Half) : SiS :=
  let y := { x with cfg := w }
  if y.mode = x.mode then y
  else
    let y := if y.mode = 0 ∨ x.mode = 0 then { y with a := false, b := false, seenA := false, seenB := false } else y
    { y with safe := false, disc := none, startup := y.mode == 1, startUnsafe := false }

/-- R624, R656 a pair configured; SI_STATE where SAFE changes with it. -/
def State.siConfigure (s : State) (p : Fin 24) (w : Half) : State :=
  let y := s.io.si[p].configure w
  let s' := s.onSi p fun _ => y
  if s.io.si[p].safe == y.safe then s' else s'.siState p

/-- R625 a restart of the SE's state. -/
def SiS.restart (x : SiS) : SiS := if x.mode = 1 then { x with startup := true, startUnsafe := false } else x

/-! ### Safety outputs (R635 to R638) -/

/-- R635 EN. -/
def SoS.en (x : SoS) : Bool := x.cfg.getLsbD 0
/-- R635 RB_T as it acts, ns. -/
def SoS.rbT (x : SoS) : Nat := atLeast1 (hfld x.cfg 7 2) * 100000
/-- R635 OP_W as it acts, ns. -/
def SoS.opW (x : SoS) : Nat := clampNat 1 250 (hfld x.cfg 15 8) * 2000
/-- R635 OP_PER as it acts, ns. -/
def SoS.opPer (x : SoS) : Nat := clampNat 1 600 x.per.toNat * 100000000

/-- R636, R637 SOq_H (or SOq_L): on with the applied demand, but for its off-pulse. -/
def SoS.drives (x : SoS) (low : Bool) : Bool := x.on && !x.pulse.any (fun p => p.1 == low)

/-- R638 the state word. -/
def SoS.word (x : SoS) : Half :=
  BitVec.ofNat 16 (32 * x.cause + 16 * b2n x.pulse.isSome + 8 * b2n x.fault + 4 * b2n x.rb + 2 * b2n x.ra + b2n x.on)

/-- R608, R614, R636 the applied demand. -/
def State.soWants (s : State) (q : Fin 8) : Bool :=
  let x := s.io.so[q]
  x.demand && x.en && !x.fault && !s.seMasked && !s.dev.seSplit

/-- R636 the applied demand brought up to date; a change ends any off-pulse. -/
def State.soApply (s : State) (q : Fin 8) : State :=
  if s.soWants q == s.io.so[q].on then s
  else s.onSo q fun x => { x with on := s.soWants q, since := s.dtime, pulse := none, pulsed := none }

/-- R636 every pair. -/
def State.soApplyAll (s : State) : State := (List.finRange 8).foldl State.soApply s

/-- R622, R636, R719 SOq_H (or SOq_L) now: low until READY, and once the SE has stopped. -/
def State.soPin (s : State) (q : Fin 8) (low : Bool) : Bool :=
  s.powered && s.dev.phase != .starting && s.io.so[q].drives low

/-- R638 an output fault. -/
def State.soFault (s : State) (q : Fin 8) (cause : Nat) : State :=
  ((s.onSo q fun x => { x with fault := true, cause := cause }).soApply q).seEvent 0x4012 s.dtime [u8 16 q, u8 17 cause]

/-- R637 the readback of a switch (true = low side) is not compared now: its off-pulse runs, or ended less than RB_T ago. -/
def SoS.excused (x : SoS) (low : Bool) (t : Nat) : Bool :=
  x.pulse.any (fun p => p.1 == low) || x.pulsed.any (fun p => p.1 == low && decide (t < p.2 + x.rbT))

/-- R636 the readbacks compared with the applied demand. -/
def State.soCompare (s : State) (q : Fin 8) (ra rb : Bool) : State :=
  let s := s.onSo q fun x => { x with ra := ra, rb := rb }
  let x := s.io.so[q]
  if !x.en || x.fault || s.dev.seSplit || decide (s.dtime < x.since + x.rbT) then s
  else if ra != x.on && !x.excused false s.dtime then s.soFault q 1
  else if rb != x.on && !x.excused true s.dtime then s.soFault q 2
  else s

/-- R638, OUTPUT_FAULT: the readbacks that SOq_RA and SOq_RB show. -/
def execOutputFault (t : Nat) (q : Fin 8) (ra rb : Bool) (s : State) : Result :=
  s.mainCmd t fun s => s.soCompare q ra rb

/-- R637 an off-pulse of a switch falls due at DTIME `t`. -/
def SoS.pulseDue (x : SoS) (low : Bool) (t : Nat) : Bool :=
  let e := t - x.since - (if low then x.opPer / 2 else 0)
  x.on && x.cfg.getLsbD 1 && x.pulse.isNone && decide (x.opPer ≤ e) && e % x.opPer == 0

/-- R637, OFF_PULSE. -/
def execOffPulse (t : Nat) (q : Fin 8) (low : Bool) (s : State) : Result :=
  s.mainCmd t fun s =>
    if s.io.so[q].pulseDue low s.dtime then s.onSo q fun x => { x with pulse := some (low, s.dtime) } else s

/-- R637, OFF_PULSE_END: the tested readback at the end of the pulse. -/
def execOffPulseEnd (t : Nat) (q : Fin 8) (readback : Bool) (s : State) : Result :=
  s.mainCmd t fun s =>
    match s.io.so[q].pulse with
    | some (low, from') =>
      if s.dtime < from' + s.io.so[q].opW then s
      else
        let s := s.onSo q fun x => { x with
          pulse := none
          pulsed := some (low, s.dtime)
          ra := if low then x.ra else readback
          rb := if low then readback else x.rb }
        if readback then s.soFault q (if low then 4 else 3) else s
    | none => s

/-- R624, R635 configuration words of an output pair take effect. -/
def SoS.configure (x : SoS) (word1 : Bool) (w : Half) : SoS := if word1 then { x with per := w } else { x with cfg := w }

/-! ### Deliberate reset (R653, R654) -/

/-- R656 SE_RESET. -/
def State.resetEvent (s : State) (source result ms : Nat) : State :=
  s.seEvent 0x4020 s.dtime [u8 16 source, u8 17 result, u32 20 ms]

/-- R655 one more request ignored or refused. -/
def State.refuseReset (s : State) (source result ms : Nat) : State :=
  (s.onIo fun x => { x with refused := satInc 65535 x.refused }).resetEvent source result ms

/-- R653, R654 a press or an interval of `ns` ends at `stamp`: a request, an ignored one, or one outside the limits. -/
def State.resetRequest (s : State) (source stamp ns : Nat) : State :=
  let ms := ns / 1000000
  if ns < 100000000 ∨ 5000000000 < ns then s.resetEvent source 2 ms
  else if s.se.state = .run then
    s.onIo fun x => { x with requests := x.requests ++ [{ source := source, stamp := stamp, ms := ms }] }
  else s.refuseReset source 3 ms

/-- R610, R654 requests that no cycle will judge. -/
def State.dropRequests (s : State) : State :=
  let rs := s.io.requests
  rs.foldl (fun s r => s.refuseReset r.source 3 r.ms) (s.onIo fun x => { x with requests := [] })

/-- R638 the output faults that a deliberate reset clears: those whose readbacks both read 0. -/
def SoS.clears (x : SoS) : Bool := x.fault && !x.ra && !x.rb

/-- R654 one request applied at a cycle start in RUN. -/
def State.judge (s : State) (r : ResetReq) : State :=
  let some' := s.io.so.toList.any SoS.clears
  let late := s.se.faultAt.head?.any (fun f => decide (r.stamp < f))
  let unlock := s.se.lockout && !late
  let s := s.onIo fun x => { x with so := x.so.map fun o => if o.clears then { o with fault := false, cause := 0 } else o }
  if s.se.lockout && late then s.refuseReset r.source 4 r.ms
  else if unlock || some' then
    ({ s.onIo (fun x => { x with resets := satInc 65535 x.resets }) with
      se := { s.se with lockout := false } }).resetEvent r.source 0 r.ms
  else s.refuseReset r.source 1 r.ms

/-- R654 every waiting request, oldest first. -/
def State.judgeResets (s : State) : State :=
  let rs := s.io.requests
  rs.foldl State.judge (s.onIo fun x => { x with requests := [] })

/-! ### Operator ports (R648 to R652) -/

/-- R648 TYPE as it acts. -/
def KeyS.type (x : KeyS) : Nat := if hfld x.cfg 1 0 = 3 then 0 else hfld x.cfg 1 0
/-- R648 THR as it acts. -/
def KeyS.thr (x : KeyS) : Nat := atLeast1 (hfld x.cfg 7 4)
/-- R648 HOLD_T as it acts, ns. -/
def KeyS.holdT (x : KeyS) : Nat := atLeast1 (hfld x.cfg 15 8) * 100000000
/-- R648 the RESET role. -/
def KeyS.isReset (x : KeyS) : Bool := x.type == 1 && x.cfg.getLsbD 2
/-- R648, R652 the WAKE bit of a contact key. -/
def KeyS.wakes (x : KeyS) : Bool := x.type == 1 && x.cfg.getLsbD 3

/-- R651 the state word at DTIME `t`. -/
def KeyS.word (x : KeyS) (t : Nat) : Half :=
  let dur := match x.press with
    | some p => min 255 ((t - p) / 100000000)
    | none => 0
  BitVec.ofNat 16 (256 * dur + 8 * b2n x.isReset + 4 * b2n x.fault + 2 * b2n x.held + b2n x.press.isSome)

/-- R651 a press is qualified. -/
def State.press (s : State) (k : Fin 6) : State :=
  let x := s.io.keys[k]
  if x.press.isSome || x.fault then s
  else (s.onKey k fun x => { x with press := some s.dtime, held := false, run := 0 }).seEvent 0x4030 s.dtime [u8 16 k]

/-- R651 a press has lasted HOLD_T: stamped with that instant. -/
def State.hold (s : State) (k : Fin 6) : State :=
  match s.io.keys[k].press with
  | some p =>
    let at' := p + s.io.keys[k].holdT
    if !s.io.keys[k].held && decide (at' ≤ s.dtime) then
      (s.onKey k fun x => { x with held := true }).seEvent 0x4031 at' [u8 16 k]
    else s
  | none => s

/-- R651, R653 a release is qualified; a hold that came before it is reported first. -/
def State.release (s : State) (k : Fin 6) : State :=
  let s := s.hold k
  let x := s.io.keys[k]
  match x.press with
  | none => s
  | some p =>
    let s := (s.onKey k fun x => { x with press := none, held := false, run := 0, moved := s.dtime }).seEvent 0x4032 s.dtime
      [u8 16 k, u32 20 ((s.dtime - p) / 1000000)]
    if x.isReset && !x.fault then s.resetRequest k s.dtime (s.dtime - p) else s

/-- R649 the level of a contact key is qualified now: 20 consecutive samples, 1 ms apart, have shown it since `first`. -/
def State.keyQualified (s : State) (k : Fin 6) (first : Nat) : Bool :=
  s.io.keys[k].type == 1 && s.dtime == first + 19000000

/-- R649, R651, KEY_PRESS: a contact key's low level is qualified. -/
def execKeyPress (w : Steady) (k : Fin 6) (s : State) : Result :=
  s.mainCmd w.t fun s => if s.keyQualified k w.first then s.press k else s

/-- R649, R651, KEY_RELEASE: a contact key's high level is qualified. -/
def execKeyRelease (w : Steady) (k : Fin 6) (s : State) : Result :=
  s.mainCmd w.t fun s => if s.keyQualified k w.first then s.release k else s

/-- R651, KEY_HOLD: a press has lasted HOLD_T. -/
def execKeyHold (t : Nat) (k : Fin 6) (s : State) : Result :=
  s.mainCmd t fun s => s.hold k

/-- R649, R650 a key's FAULT set or cleared; a faulty key reads released. -/
def State.keyFault (s : State) (k : Fin 6) (fault : Bool) : State :=
  if s.io.keys[k].fault == fault then s
  else
    (s.onKey k fun x => if fault then { x with fault := true, press := none, held := false, run := 0 }
      else { x with fault := false }).seEvent 0x4033 s.dtime [u8 16 k, u8 17 (b2n (!fault))]

/-- R649, KEY_DRIVE_PULSE: Kk_S at the end of the drive pulse, one every 10 ms. -/
def execKeyDrivePulse (t : Nat) (k : Fin 6) (sense : Bool) (s : State) : Result :=
  s.mainCmd t fun s =>
    if s.io.keys[k].type == 1 && decide (s.io.keys[k].due ≤ s.dtime) then
      (s.onKey k fun x => { x with due := s.dtime + 10000000 }).keyFault k (!sense)
    else s

/-- R650 the baseline after a count: the mean of the first eight, then one count a second toward the count while the key is
released. -/
def KeyS.baseline (x : KeyS) (count t : Nat) : KeyS :=
  match x.base with
  | none =>
    let early := count :: x.early
    if early.length < 8 then { x with early := early }
    else { x with early := [], base := some (early.foldl (· + ·) 0), moved := t }
  | some b =>
    if x.press.isSome || t < x.moved + 1000000000 then x
    else { x with base := some (if b < 8 * count then min (b + 8) (8 * count) else max (b - 8) (8 * count)), moved := t }

/-- R650 a count of a touch key: two in a row beyond the limit make a press or a release. -/
def State.touch (s : State) (k : Fin 6) (count : Nat) : State :=
  let x := s.io.keys[k]
  match x.base with
  | none => s.onKey k fun x => x.baseline count s.dtime
  | some b =>
    let beyond := if x.press.isSome then decide (b * (100 - x.thr) < 800 * count)
      else decide (800 * count < b * (100 - 2 * x.thr))
    let s := s.onKey k fun x => (if beyond then { x with run := x.run + 1 } else { x with run := 0 }).baseline count s.dtime
    if s.io.keys[k].run < 2 then s else if x.press.isSome then s.release k else s.press k

/-- R650 a count taken: beyond the scale it sets FAULT. -/
def State.counted (s : State) (k : Fin 6) (count : Nat) : State :=
  if count = 0 ∨ Config.touchFull ≤ count then s.keyFault k true else (s.keyFault k false).touch k count

/-- R650, TOUCH_MEASUREMENT: one every 5 ms. -/
def execTouchMeasurement (t : Nat) (k : Fin 6) (count : Nat) (s : State) : Result :=
  s.mainCmd t fun s =>
    if s.io.keys[k].type == 2 && decide (s.io.keys[k].due ≤ s.dtime) then
      (s.onKey k fun x => { x with due := s.dtime + 5000000 }).counted k count
    else s

/-- R624, R648 a configuration word takes effect. -/
def KeyS.configure (x : KeyS) (w : Half) : KeyS :=
  let y := { x with cfg := w, early := [], base := none, run := 0 }
  if y.type = x.type then y else { y with press := none, held := false, fault := false, due := 0 }

/-- R652 the always-on domain copies the WAKE bits. -/
def State.copyWake (s : State) : State :=
  let bit (k : Fin 6) : Nat := if s.io.keys[k].wakes then 2 ^ k.val else 0
  { s with aon := { s.aon with wake := BitVec.ofNat 6 ((List.finRange 6).foldl (fun a k => a + bit k) 0) } }

end Sys2Proof.Machine
end

