-- ==== Sys2Proof/Machine/Pst.lean ====
section
/-! DEFINITION. Pyrras safe transfer: consumed and produced frames of the 16 slots, their watchdogs, and the transports
that bring a frame (R639 to R647, R558). -/
namespace Sys2Proof.Machine

/-- One slot changed. -/
def State.onPst (s : State) (k : Fin 16) (f : PstS → PstS) : State :=
  s.onIo fun x => { x with pst := x.pst.set k (f x.pst[k]) }

/-- A slot by number. -/
def pstSlot (k : Nat) : Fin 16 := ⟨k % 16, Nat.mod_lt _ (by decide)⟩

/-- R641 RX_TP as it acts. -/
def PstS.rxTp (p : PstS) : Nat := if hfld p.cfg[4] 1 0 = 3 then 0 else hfld p.cfg[4] 1 0
/-- R641 TX_TP as it acts. -/
def PstS.txTp (p : PstS) : Nat := if hfld p.cfg[4] 3 2 = 3 then 0 else hfld p.cfg[4] 3 2
/-- R641 RX_PORT admits a port. -/
def PstS.admits (p : PstS) (port : PortId) : Bool := p.cfg[4].getLsbD (4 + port.val)
/-- R641 RST_EN. -/
def PstS.rstEn (p : PstS) : Bool := p.cfg[4].getLsbD 8
/-- R641 RX_PLEN as it acts. -/
def PstS.plen (p : PstS) : Nat := min 48 p.cfg[5].toNat / 2 * 2
/-- R641 WD_MS as it acts, ns. -/
def PstS.wd (p : PstS) : Nat := atLeast1 p.cfg[2].toNat * 1000000

/-- STATE codes of R645. -/
def PstCode.num : PstCode → Nat
  | .off => 0
  | .resync => 1
  | .ok => 2

/-- R640 CRC over the bytes before it, for a connection. -/
def pstCrc (conn : Nat) (bs : List Byte) : Nat := (bs.foldl crcByte (0xFFFFFFFF ^^^ (conn * 0x10001))) ^^^ 0xFFFFFFFF

/-- R639 a number of a frame. -/
def pstNum (bs : List Byte) (i n : Nat) : Nat := ofBytes ((bs.drop i).take n)

/-- R639, R646 the SEQ after another: 65,535 is followed by 1. -/
def seqAfter (q : Nat) : Nat := if q = 65535 then 1 else q + 1

/-- R642 (a − STAMP) − o_ref in 10^-9 µs, modulo 2^32 µs as a signed value. -/
def PstS.drift (p : PstS) (stamp arrival : Nat) : Int :=
  let m : Int := 4294967296 * 1000000000
  let d := Int.emod ((arrival : Int) * 1000000 - (stamp : Int) * 1000000000 - p.oRef) m
  if d < m / 2 then d else d - m

/-- R642 the outcome of a consumed frame, as R647 numbers it: 0 accepted, 1 LENGTH, 2 ID, 3 CRC, 4 DUPLICATE, 5 SEQ_FAULT,
6 TIME_FAULT. -/
def PstS.outcome (p : PstS) (bs : List Byte) (arrival : Nat) : Nat :=
  let seq := pstNum bs 2 2
  let stamp := pstNum bs 4 4
  let dt := (stamp + 4294967296 - p.stamp) % 4294967296
  if bs.length < 12 + p.plen then 1
  else if pstNum bs 0 2 ≠ p.cfg[0].toNat ∨ seq = 0 then 2
  else if pstCrc (pstNum bs 0 2) (bs.take (8 + p.plen)) ≠ pstNum bs (8 + p.plen) 4 then 3
  else if p.state = .resync ∧ p.count = 0 then 0
  else if seq = p.seq then 4
  else if seq ≠ seqAfter p.seq then 5
  else if dt = 0 ∨ 2147483648 ≤ dt then 6
  else if p.cfg[3].toNat ≠ 0 ∧ (p.cfg[3].toNat : Int) * 1000 * 1000000000 < p.drift stamp arrival then 6
  else 0

/-- R656 PST_CONN: a slot's state has changed. -/
def State.pstConn (s : State) (k : Fin 16) (cause stamp : Nat) : State :=
  s.seEvent 0x4019 stamp [u8 16 k, u8 17 s.io.pst[k].state.num, u8 18 cause]

/-- R643 a slot enters RESYNC with count 0. -/
def PstS.resync (p : PstS) : PstS := { p with state := .resync, count := 0, deadline := none, resetFrom := none, late := [] }

/-- R643 a fault of a slot: cause 1 SEQ_FAULT, 2 TIME_FAULT, 3 watchdog. -/
def State.pstFault (s : State) (k : Fin 16) (cause stamp : Nat) : State :=
  let p := s.io.pst[k]
  match p.state with
  | .ok => (s.onPst k fun p => { p.resync with
      seqFault := p.seqFault || cause == 1, timeFault := p.timeFault || cause == 2,
      timeout := p.timeout || cause == 3 }).pstConn k cause stamp
  | _ => s.onPst k fun p => { p with count := 0, deadline := none }

/-- R642 what an accepted frame leaves in its slot; `first` = it starts the count. -/
def PstS.accept (p : PstS) (bs : List Byte) (arrival : Nat) (first : Bool) : PstS :=
  let stamp := pstNum bs 4 4
  let ref := (arrival : Int) * 1000000 - (stamp : Int) * 1000000000
  let oRef := if first then ref else p.oRef + min (p.drift stamp arrival) (((arrival - p.arrival) * 200 : Nat) : Int)
  { p with
    seq := pstNum bs 2 2
    stamp := stamp
    oRef := oRef
    arrival := arrival
    deadline := some (arrival + p.wd)
    payload := (bs.drop 8).take p.plen
    new := p.new || p.state == .ok
    accepted := (p.accepted + 1) % 65536
    count := if p.state == .resync then p.count + 1 else p.count }

/-- R653 the RESET bit of a payload. -/
def payloadReset (bs : List Byte) : Bool := decide (2 ≤ bs.length) && (bs.getD 1 0).getLsbD 7

/-- R653 the RESET interval of a slot in OK after an accepted frame. -/
def State.pstReset (s : State) (k : Fin 16) (arrival : Nat) : State :=
  let p := s.io.pst[k]
  if !p.rstEn then s
  else if payloadReset p.payload then
    s.onPst k fun p => { p with resetFrom := some (p.resetFrom.getD arrival) }
  else match p.resetFrom with
    | some f => (s.onPst k fun p => { p with resetFrom := none }).resetRequest (16 + k) arrival (arrival - f)
    | none => s

/-- R642, R643 a consumed frame is checked and taken; answers its outcome. -/
def State.pstNow (s : State) (k : Fin 16) (bs : List Byte) (arrival : Nat) : State × Nat :=
  let p := s.io.pst[k]
  let o := p.outcome bs arrival
  match o with
  | 0 =>
    let wasOk := p.state == .ok
    let s := s.onPst k fun p => p.accept bs arrival (p.count == 0 && !wasOk)
    if wasOk then (s.pstReset k arrival, 0)
    else if 3 ≤ s.io.pst[k].count then ((s.onPst k fun p => { p with state := .ok }).pstConn k 4 arrival, 0)
    else (s, 0)
  | 5 => (s.pstFault k 1 arrival, 5)
  | 6 => (s.pstFault k 2 arrival, 6)
  | _ =>
    ((s.onPst k fun p => { p with disc := true, discarded := satInc 65535 p.discarded }).seLimited 0x401A
      [u8 16 k, u8 17 (if o = 4 then 5 else o)], o)

/-- Frames taken one after another. -/
def State.pstFeed (s : State) (k : Fin 16) (fs : List (List Byte × Nat)) : State :=
  fs.foldl (fun s f => (s.pstNow k f.1 f.2).1) s

/-- R62, R63, R643 the watchdog of a slot has expired at its deadline, and the frames that came after it are taken. -/
def State.pstExpire (s : State) (k : Fin 16) (d : Nat) : State :=
  ((s.onPst k fun p => { p with late := [] }).pstFault k 3 d).pstFeed k s.io.pst[k].late

/-- R61, R62, R643, PST_WATCHDOG_TIMEOUT. -/
def execPstWatchdogTimeout (t : Nat) (k : Fin 16) (s : State) : Result :=
  s.mainCmd t fun s =>
    match s.io.pst[k].deadline with
    | some d => if timedOut d s.dtime then s.pstExpire k d else s
    | none => s

/-- R60 to R63, R642, R643 a consumed frame. One that arrives after the watchdog's deadline does not cancel its expiry: it is
taken after that, and waits for it where the expiry may not be declared yet. Its outcome is the one it will have. -/
def State.pstTake (s : State) (k : Fin 16) (bs : List Byte) (arrival : Nat) : State × Nat :=
  match s.io.pst[k].deadline with
  | some d =>
    if d < arrival then
      let after := (s.pstExpire k d).pstNow k bs arrival
      if timedOut d s.dtime then after
      else (s.onPst k fun p => { p with late := p.late ++ [(bs, arrival)] }, after.2)
    else
      let (s', o) := s.pstNow k bs arrival
      if s'.io.pst[k].deadline = some d then (s', o)
      else ((s'.onPst k fun p => { p with late := [] }).pstFeed k s.io.pst[k].late, o)
  | none => s.pstNow k bs arrival

/-- R560, R642 a CAN FD frame of a PST receive object reaches its slot. -/
def State.pstFromCan (s : State) (slot : Nat) (bs : List Byte) : State :=
  let k := pstSlot slot
  if s.io.pst[k].rxTp = 1 then (s.pstTake k bs s.dtime).1 else s

/-- R558, CAN_FRAME_RECEIVED. -/
def execCanFrameReceived (t : Nat) (k : CanId) (sof : Nat) (frame : CanFrame) (dmaFail : Option Nat) (s : State) : Result :=
  s.canCmd t fun s => s.canHeard k sof frame dmaFail State.pstFromCan

/-- R567, CAN_TX_DONE. -/
def execCanTxDone (t : Nat) (k : CanId) (tdc dmaFail : Option Nat) (s : State) : Result :=
  s.canCmd t fun s => s.canEnded k tdc dmaFail State.pstFromCan

/-- R645 the STATE codes of SE_STATUS that PST_SEND admits. -/
def SeCode.takesPst (c : SeCode) : Bool :=
  match c with
  | .run => true
  | .restart => true
  | .debug => true
  | .split => true
  | _ => false

/-- The codes of SE_STATUS.STATE (R619). -/
def SeCode.num : SeCode → Nat
  | .init => 0
  | .run => 1
  | .restart => 2
  | .halted => 3
  | .debug => 4
  | .split => 5

/-- R647 PST_SEND, with the arrival stamp of its descriptor. -/
def pstSendExec (arrival : Nat) (buf : Buf) : Exec where
  check s port d :=
    let k := d.byte 24
    let p := s.io.pst[pstSlot k]
    firstFail [
      failIf (!s.se.state.takesPst) stBadState s.se.state.num,
      failIf s.dev.seSplit stRejected 4,
      failIf (15 < k || p.rxTp ≠ 2 || !p.admits port) stBadState 0x0401]
  run := withBuf buf fun bs s _ d =>
    let (s, o) := s.pstTake (pstSlot (d.byte 24)) (bs.take d.length) arrival
    (s, .now stOk 0 o)

/-- R647, PST_SEND. -/
def execPstSend (t : Nat) (q : SqRef) (buf : Buf) (s : State) : Result :=
  .next (s.runDesc t q 0x50 (bufSize buf) (pstSendExec ((s.at t).nextStamp q) buf))

/-! ### Produced frames (R646) -/

/-- R646 the shortest CAN FD data length that holds `n` bytes, as a DLC. -/
def fdDlc (n : Nat) : Fin 16 :=
  if n ≤ 12 then 9 else if n ≤ 16 then 10 else if n ≤ 20 then 11 else if n ≤ 24 then 12
  else if n ≤ 32 then 13 else if n ≤ 48 then 14 else 15

/-- R639, R640 a frame of a connection. -/
def pstFrame (conn seq stamp : Nat) (vals : List Half) : List Byte :=
  let body := leBytes 2 conn ++ leBytes 2 seq ++ leBytes 4 stamp ++ vals.flatMap (fun v => leBytes 2 v.toNat)
  body ++ leBytes 4 (pstCrc conn body)

/-- R560, R646 a produced frame made pending in the slot's transmit object; false where no valid object serves the slot, or
the object's previous frame is on the bus. -/
def State.pstToCan (s : State) (k : Fin 16) (bs : List Byte) : State × Bool :=
  match s.pstServer k 2 with
  | none => (s, false)
  | some (c, i) =>
    if s.can[c].onBus == some i then (s, false)
    else
      let o := s.can[c].objs[i]
      let dlc := fdDlc bs.length
      let f : CanFrame := {
        id := BitVec.ofNat 29 (fld o.id 28 0), ide := bitOf o.id 29, rtr := false, fdf := true, brs := bitOf o.cfg 10,
        esi := false, dlc := dlc, data := bs ++ List.replicate (dlcLen true dlc.val - bs.length) 0 }
      (s.onCan c (fun c => c.onObj i (fun o => { o with
        pend := some { frame := f, waiter := none, abort := false, attempts := 0, sof := 0 } })), true)

/-- R646 the frame that a release produces for a slot. -/
def State.pstProduce (s : State) (k : Fin 16) (vals : List Half) : State :=
  let p := s.io.pst[k]
  if p.txTp = 0 then s
  else
    let seq := seqAfter p.txSeq
    let bs := pstFrame p.cfg[1].toNat seq (s.dtime / 1000) vals
    let s := s.onPst k fun p => { p with txSeq := seq, txLen := bs.length }
    if p.txTp = 1 then
      let (s, sent) := s.pstToCan k bs
      if sent then s else s.onPst k fun p => { p with unsent := satInc 255 p.unsent }
    else (s.onPst k fun p => { p with txFrame := bs }).seEvent 0x4018 s.dtime [u8 16 k, u16 18 seq, u8 20 bs.length]

/-! ### Status, configuration, restart (R624, R625, R645) -/

/-- R645 the receive status word. -/
def PstS.status (p : PstS) : Half :=
  BitVec.ofNat 16 (512 * b2n (payloadReset p.payload) + 256 * b2n p.disc + 128 * b2n p.timeout + 64 * b2n p.timeFault +
    32 * b2n p.seqFault + 16 * b2n p.new + 4 * (if p.state = .ok then 3 else p.count) + p.state.num)

/-- R593, R645 a slot as the input latch takes it. -/
def PstS.latch (p : PstS) : PstLatch :=
  { status := p.status, vals := if p.state = .ok then halves p.payload else [] }

/-- R645 the flags since the latch begin anew. -/
def PstS.latched (p : PstS) : PstS :=
  { p with disc := false, timeout := false, timeFault := false, seqFault := false, new := false }

/-- R16, R641 the bits of a configuration word that are not reserved. -/
def pstMask (w : Fin 8) : Half :=
  match w.val with
  | 4 => 0x01FF#16
  | 6 => 0
  | 7 => 0
  | _ => 0xFFFF#16

/-- R16, R624, R641, R643 a configuration word takes effect; its reserved bits stay 0. -/
def State.pstConfigure (s : State) (k : Fin 16) (w : Fin 8) (v : Half) : State :=
  let s := s.onPst k fun p => { p with cfg := p.cfg.set w (v &&& pstMask w) }
  let p := s.io.pst[k]
  if p.rxTp = 0 ∧ p.state ≠ .off then (s.onPst k fun p => { p.resync with state := .off }).pstConn k 0 s.dtime
  else if p.rxTp ≠ 0 ∧ p.state = .off then (s.onPst k fun p => { p.resync with payload := [] }).pstConn k 0 s.dtime
  else s

/-- R625, R646 a restart of the SE's state: the slot returns to RESYNC, and its first frame carries SEQ 1. -/
def State.pstRestart (s : State) (k : Fin 16) : State :=
  let p := s.io.pst[k]
  let s := s.onPst k fun p => { p with txSeq := 0 }
  match p.state with
  | .ok => (s.onPst k PstS.resync).pstConn k 0 s.dtime
  | .resync => s.onPst k PstS.resync
  | .off => s

end Sys2Proof.Machine
end

