-- ==== Sys2Proof/Machine/Se.lean ====
section
/-! DEFINITION. The safety executive: image, cycles, the two instances, comparison, release, faults, debugging
(chapter 15). -/
namespace Sys2Proof.Machine

/-- The safety executive changed. -/
def State.onSe (s : State) (f : SeS → SeS) : State := { s with se := f s.se }

/-- R621 a STATE change, with its event; HALTED leaves no cycle to judge waiting resets (R610, R654). -/
def State.seEnter (s : State) (c : SeCode) : State :=
  if s.se.state = c then s
  else
    let old := s.se.state
    let s := s.onSe fun e => { e with state := c }
    let s := s.seEvent 0x4001 s.dtime [u8 16 c.num, u8 17 old.num, u8 18 s.se.imgErr]
    if c = .halted then s.dropRequests else s

/-! ### Safe-torque-off (R608, R611) -/

/-- R608, R611 a request line of the channel's gate asserts. -/
def State.stoWanted (s : State) (n : ChanId) : Bool :=
  s.seMasked || (!s.dev.seSplit && (s.se.bit 0x1410 n || s.se.stoB.getLsbD n))

/-- R611 the request lines of one channel; a fault demands type STO (R607), a release the released STO_OFF. -/
def State.stoChan (s : State) (fault : Bool) (n : ChanId) : State :=
  if s.stoWanted n then s.onChan n (fun r => r.stoRequest (!fault && s.se.bit 0x1418 n))
  else if s.chans[n].core.stoActive then s.onChan n ChR.stoRelease
  else s

/-- R611 the request lines of every channel. -/
def State.applySto (s : State) (fault : Bool) : State := (List.finRange 128).foldl (fun s n => s.stoChan fault n) s

/-! ### Image (R587, R588, R590) -/

/-- R590 the PSM as the image leaves it. -/
def SeImg.load (i : SeImg) (split : Bool) : Cells 16 :=
  if split then Cells.ofList 0 0 i.psm else Cells.ofList 0 0 i.psm ++ Cells.ofList 0 0x800 (i.psm.map (fun v => -v))

/-- R587, R588 the section's checks: its IMG_ERR code, or the image and its control store. -/
def seCheck (split : Bool) (sec : Option (List Byte)) : Nat ⊕ (SeImg × Nat × Cells 32) :=
  match sec with
  | none => .inl 1
  | some bs =>
    let num (i n : Nat) : Nat := ofBytes ((bs.drop i).take n)
    let code := num 24 2
    let psm := num 26 2
    let body := bs.drop 32
    if bs.length < 32 ∨ num 0 4 ≠ 0x53450001 then .inl 1
    else if crc32c (bs.take 28 ++ body) ≠ num 28 4 then .inl 2
    else if num 8 4 < 250 ∨ 10000 < num 8 4 ∨ code = 0 ∨ 16384 < code ∨ (if split then 4096 else 2048) < psm ∨
        code ≤ num 16 2 ∨ (split = true ∧ code ≤ num 18 2) then .inl 3
    else if num 8 4 * 1000 < 2 * num 12 4 + 15000 then .inl 4
    else
      let i : SeImg := {
        progId := num 4 2, debugEn := (num 6 2).testBit 0, cycleUs := num 8 4, budget := num 12 4, entry := num 16 2,
        entryY := num 18 2, psm := (halves (body.drop (4 * code))).take psm }
      .inr (i, num 20 4, Cells.ofList 0 0 ((words body).take code))

/-- R586 to R590, R707 step 5 the SE section of the image in use is loaded; none where no bank is usable. -/
def State.seLoad (s : State) (sec : Option (List Byte)) : State :=
  match seCheck s.dev.seSplit sec with
  | .inl err => ((s.onSe fun e => { e with imgErr := err }).seEnter .halted).applySto true
  | .inr (i, speed, code) => s.onSe fun e => { e with
      img := i, stoSpeed := speed, store := code, psm := i.load s.dev.seSplit, armed := true, first := true }

/-! ### Addresses (R589, R604, R623) -/

/-- R604, R623 the input words. -/
def seInput (a : Nat) : Bool :=
  (decide (0x1000 ≤ a) && decide (a ≤ 0x1404)) || (decide (0x1440 ≤ a) && decide (a ≤ 0x1445)) ||
  (decide (0x1448 ≤ a) && decide (a ≤ 0x144F))

/-- R604, R623 the output words. -/
def seOutput (a : Nat) : Bool :=
  (decide (0x1410 ≤ a) && decide (a ≤ 0x1427)) || a == 0x1430 || (decide (0x1480 ≤ a) && decide (a ≤ 0x1497)) ||
  (decide (0x14A0 ≤ a) && decide (a ≤ 0x14AF)) || (decide (0x14B0 ≤ a) && decide (a ≤ 0x14B5)) || a == 0x14B8 ||
  (decide (0x1500 ≤ a) && decide (a ≤ 0x157F))

/-- R589 the address that an instance forms: B and Y flip bit 11. -/
def sePhys (second : Bool) (a : Nat) : Nat := if second then a ^^^ 0x800 else a

/-- R589 the I/O word of a formed address, as A numbers it; none for the PSM. -/
def seIo (phys : Nat) : Option Nat := if phys < 0x1000 then none else some (0x1000 + phys % 0x800)

/-- R589 an address that A or X may not form. -/
def seBad (second : Bool) (a : Nat) : Bool := !second && (a / 0x800 % 2 == 1)

/-- R594 an input word that instance B reads; the 32-bit ones are negated as a whole. -/
def SeS.negInput (e : SeS) (a : Nat) : Half :=
  let pair (lo : Nat) : Half :=
    let v := (Cells.get 0 e.latch lo).toNat + 65536 * (Cells.get 0 e.latch (lo + 1)).toNat
    BitVec.ofNat 16 ((4294967296 - v) / (if a = lo then 1 else 65536))
  if a < 0x1400 ∧ a % 8 = 5 then pair a
  else if a < 0x1400 ∧ a % 8 = 6 then pair (a - 1)
  else if a = 0x1400 ∨ a = 0x1402 then pair a
  else if a = 0x1401 ∨ a = 0x1403 then pair (a - 1)
  else -(Cells.get 0 e.latch a)

/-- R604 an output word that an instance reads and has not written in this run; B reads STO_REQ from its own line. -/
def SeS.heldWord (e : SeS) (mir : Bool) (a : Nat) : Half :=
  let v := if mir && decide (0x1410 ≤ a) && decide (a ≤ 0x1417) then
      (e.stoB >>> (16 * (a - 0x1410))).setWidth 16
    else Cells.get 0 e.released a
  if mir then -v else v

/-- R589, R594, R604 a data word as the executing instance reads it. -/
def SeS.read (e : SeS) (u : SeRun) (mir : Bool) (a : Nat) : Half :=
  let p := sePhys u.second a
  match seIo p with
  | none => Cells.get 0 e.psm p
  | some io =>
    if seInput io then (if mir then e.negInput io else Cells.get 0 e.latch io)
    else if seOutput io then
      (slotGet (if u.second then u.b else u.a).words io).getD (e.heldWord mir io)
    else 0

/-- R418, R589, R596 the executing instance as its instructions see it. -/
def State.seEng (s : State) (u : SeRun) : EngCfg :=
  let mir := u.second && !s.dev.seSplit
  { w := 13, pcw := 14, se := true, mir := mir, rd := s.se.read u mir, badR := seBad u.second
    badW := fun a => seBad u.second a || (seIo (sePhys u.second a)).any seInput }

/-! ### Outputs and comparison (R595, R598 to R601) -/

/-- R595 one bit of the CRC-8 with polynomial 0x2F. -/
def crc8Step (c : Byte) : Byte := if c.getLsbD 7 then (c <<< 1) ^^^ 0x2F#8 else c <<< 1

/-- R595 the CRC-8 of some bytes, from 0xFF. -/
def crc8 (bs : List Byte) : Byte := bs.foldl (fun c b => (List.range 8).foldl (fun c _ => crc8Step c) (c ^^^ b)) 0xFF#8

/-- R595 the check code of a delay-buffer entry: over its address, then its value, most significant byte first. It is a
function of the entry, so that State holds the entry alone; that the stored code no longer fits is the operand of causes 10
and 11. -/
def entryCode (addr : Nat) (v : Half) : Byte :=
  crc8 [BitVec.ofNat 8 (addr % 8192 / 256), BitVec.ofNat 8 addr, BitVec.ofNat 8 (v.toNat / 256), BitVec.ofNat 8 v.toNat]

/-- One output of an instance: its kind and target, and its value words. -/
abbrev SeOutput := SeKind × List Half

/-- The entries of the delay buffer that an output takes (R599). -/
def outEntries (o : SeOutput) : List SeOut := o.2.map fun v => { kind := o.1, value := v }

/-- R598 two values are equal under the transform. -/
def seEqual (a b : Half) : Bool := a + b == 0 || (a == 0x8000 && b == 0x7FFF) || (a == 0x7FFF && b == 0x8000)

/-- R600 B's entries against A's: what is left of A's, or the cause of the mismatch. -/
def seMatch : List SeOut → List SeOut → List SeOut ⊕ Nat
  | left, [] => .inl left
  | [], _ :: _ => .inr 3
  | a :: left, b :: bs =>
    if a.kind ≠ b.kind then .inr 3
    else if seEqual a.value b.value then seMatch left bs
    else match a.kind with
      | .chkpt _ _ => .inr 2
      | _ => .inr 1

/-- R599, R602 an output entered among what an instance has issued. -/
def SeIssued.put (x : SeIssued) (o : SeOutput) : SeIssued :=
  let x := { x with outs := (outEntries o).reverse ++ x.outs, issued := x.issued + 1 }
  match o with
  | (.word a, v :: _) => { x with words := slotSet a (some v) x.words }
  | (.pair q, v :: _) => { x with pairs := slotSet q (some v) x.pairs }
  | (.pst k, vs) => { x with frames := x.frames.filter (fun f => f.slot != k) ++ [{ slot := k, vals := vs }] }
  | _ => x

/-- R431 the words that PSTR stores. -/
def State.pstrWords (s : State) (g : EngCfg) (k ea len : Nat) : List (Nat × Half) :=
  let l := s.se.latchPst[pstSlot k]
  let neg (v : Half) : Half := if g.mir then -v else v
  (g.block ea (len + 1)).zip (neg l.status :: (List.range len).map (fun i => neg (l.vals.getD i 0)))

/-- The data words that an instruction stores. -/
def State.seWrites (s : State) (g : EngCfg) (p : Plan) : List (Nat × Half) :=
  match p.act with
  | .pstr k ea len => p.writes ++ s.pstrWords g k ea len
  | _ => p.writes

/-- R599 the outputs that an instruction issues. -/
def seOutputs (second : Bool) (ws : List (Nat × Half)) (act : EngAct) : List SeOutput :=
  ws.filterMap (fun w => match seIo (sePhys second w.1) with
    | some io => if seOutput io then some (.word io, [w.2]) else none
    | none => none) ++
  match act with
  | .chkpt id vals => [(.chkpt id vals.length, vals)]
  | .siow q v => [(.pair q, [v])]
  | .psts k vals => [(.pst k, vals)]
  | _ => []

/-- R599, R600 outputs issued by the instance that runs: the run after them, or class, cause and (for a checkpoint) id of
the fault. -/
def SeRun.issue (u : SeRun) (split : Bool) (os : List SeOutput) : SeRun ⊕ (Nat × Nat × Option Nat) :=
  let es := os.flatMap outEntries
  if u.second && !split then
    match seMatch u.left es with
    | .inl left => .inl { u with left := left, b := os.foldl SeIssued.put u.b }
    | .inr cause => .inr (1, cause, match os with
        | (.chkpt id _, _) :: _ => if cause = 2 then some id else none
        | _ => none)
  else if 1024 < u.a.outs.length + (if split then u.b.outs.length else 0) + es.length then .inr (3, 19, none)
  else if u.second then .inl { u with b := os.foldl SeIssued.put u.b }
  else .inl { u with a := os.foldl SeIssued.put u.a }

/-! ### Release (R602, R612, R624) -/

/-- R592 the deadline of the cycle that began at `start`. -/
def SeS.deadline (e : SeS) (start : Nat) : Nat := start + e.img.cycleUs * 1000 - 5000

/-- R604 a 32-bit group of released words. -/
def SeS.group (e : SeS) (base g : Nat) : Nat :=
  (Cells.get 0 e.released (base + 2 * g)).toNat + 65536 * (Cells.get 0 e.released (base + 2 * g + 1)).toNat

/-- R624 one configuration word takes effect. -/
def State.seConfigure (s : State) (w : Nat × Half) : State :=
  let a := w.1
  let v := w.2
  if h : 0x1480 ≤ a ∧ a < 0x1498 then
    let p : Fin 24 := ⟨a - 0x1480, by omega⟩
    s.siConfigure p v
  else if h : 0x14A0 ≤ a ∧ a < 0x14B0 then
    let q : Fin 8 := ⟨(a - 0x14A0) / 2, by omega⟩
    s.onSo q fun x => x.configure (a % 2 == 1) v
  else if h : 0x14B0 ≤ a ∧ a < 0x14B6 then
    let k : Fin 6 := ⟨a - 0x14B0, by omega⟩
    s.onKey k fun x => x.configure v
  else if a = 0x14B8 then s.onIo fun x => { x with tpW := clampNat 10 100 (hfld v 7 0) }
  else if 0x1500 ≤ a ∧ a < 0x1580 then
    s.pstConfigure (pstSlot ((a - 0x1500) / 8)) ⟨a % 8, Nat.mod_lt _ (by decide)⟩ v
  else s

/-- R612, R621 SE_STO for a group of 32 channels whose released requests changed. -/
def State.stoEvent (s : State) (old : SeS) (g : Nat) : State :=
  let was := old.group 0x1410 g
  let now := s.se.group 0x1410 g
  if was = now then s else s.seEvent 0x4003 s.dtime [u8 16 g, u32 20 now, u32 24 (Nat.xor was now)]

/-- R602 STO_REQ released from B, the second request line. -/
def stoLine (old : BitVec 128) (ws : List (Nat × Half)) : BitVec 128 :=
  ws.foldl (fun (x : BitVec 128) (w : Nat × Half) =>
    if 0x1410 ≤ w.1 ∧ w.1 ≤ 0x1417 then
      let sh := 16 * (w.1 - 0x1410)
      (x &&& ~~~((65535#128) <<< sh)) ||| (BitVec.setWidth 128 (-w.2) <<< sh)
    else x) old

/-- R614 STO_REQ and STO_OFF are dropped in split mode. -/
def splitDrops (w : Nat × Half) : Bool := decide (0x1410 ≤ w.1) && decide (w.1 ≤ 0x141F)

/-- R604, R621 SE_USER for a released EVT_OUT word. -/
def State.evtOut (s : State) (ws : List (Nat × Half)) (y : Bool) : State :=
  match slotGet ws 0x1430 with
  | some v => s.seEvent 0x4040 s.dtime [u16 16 v.toNat, u8 18 (b2n y)]
  | none => s

/-- R618 the slack of a cycle noted. -/
def State.seSlack (s : State) (u : SeRun) : State :=
  if s.se.state = .debug then s
  else
    let slack : Int := (s.se.deadline u.start : Int) - s.dtime
    (s.onSe fun e => { e with
      lastSlack := slack
      slacks := (s.dtime, slack) :: e.slacks.filter (fun x => decide (s.dtime < x.1 + 1000000000)) }).noteSlack
      slack (s.se.deadline u.start - u.start) true

/-- R602 the cycle's outputs released together, and the cycle over. -/
def State.seRelease (s : State) (u : SeRun) : State :=
  let old := s.se
  let split := s.dev.seSplit
  let ws := if split then (u.a.words ++ u.b.words).filter (fun w => !splitDrops w) else u.a.words
  let s := s.onSe fun e => { e with
    run := none
    released := ws.foldl (fun m w => Cells.set 0 m w.1 w.2) e.released
    stoB := if split then e.stoB else stoLine e.stoB u.b.words }
  let s := if old.firstNow then ((ws.foldl State.seConfigure s).onIo fun x => { x with configured := true }).copyWake else s
  let s := if split then s else u.a.pairs.foldl (fun s p =>
    s.onSo ⟨p.1 % 8, Nat.mod_lt _ (by decide)⟩ fun x => { x with demand := p.2.getLsbD 0 }) s
  let s := (s.soApplyAll).applySto false
  let s := (List.range 4).foldl (fun s g => s.stoEvent old g) s
  let s := (s.evtOut u.a.words false).evtOut (if split then u.b.words else []) true
  let s := u.a.frames.foldl (fun s f => s.pstProduce (pstSlot f.slot) f.vals) s
  s.seSlack u

/-! ### Faults (R606 to R610, R614) -/

/-- R607 the reaction: lockout, output pairs off, an STO request of type STO on every channel. -/
def State.seReact (s : State) : State := ((s.onSe fun e => { e with lockout := true }).soApplyAll).applySto true

/-- R590, R609, R625 the SE's state restarted. -/
def State.seRestart (s : State) : State :=
  let s := s.onSe fun e => { e with
    psm := e.img.load s.dev.seSplit, regsA := {}, regsB := {}, tested := false, dbgLog := [], dbgNext := [] }
  let s := s.onIo fun x => { x with
    si := x.si.map SiS.restart
    so := x.so.map fun o => { o with demand := false } }
  ((List.finRange 16).foldl State.pstRestart s).soApplyAll

/-- R610 three faults within 10 s. -/
def thirdFault (ts : List Nat) : Bool :=
  match ts with
  | [c, _, a] => decide (c ≤ a + 10000000000)
  | _ => false

/-- R591 the second run of a cycle begins: B at ENTRY, Y at ENTRY_Y. -/
def State.seSecond (s : State) (u : SeRun) : State :=
  let pc := if s.dev.seSplit then s.se.img.entryY else s.se.img.entry
  s.onSe fun e => { e with
    run := some { u with second := true, left := u.a.outs.reverse }
    regsB := { e.regsB with pc := pc % 16384 } }

/-- R614 a run of split mode abandoned: the other executive carries on. -/
def State.seAbandon (s : State) (u : SeRun) : State :=
  if u.second then (s.onSe fun e => { e with yStop := true }).seRelease { u with b := {} }
  else (s.onSe fun e => { e with xStop := true }).seSecond { u with a := {}, xStopped := true }

/-- R606 to R610, R614 a fault of the instance that runs. -/
def State.seFault (s : State) (cls cause where' stamp : Nat) : State :=
  match s.se.run with
  | none => s
  | some u =>
    let s := s.onSe fun e => { e with
      fClass := cls, fCause := cause, fInst := u.second, fWhere := where' % 16384, faults := satInc 65535 e.faults
      faultAt := (stamp :: e.faultAt).take 3 }
    let s := s.seEvent 0x4002 stamp
      [u8 16 cls, u8 17 cause, u8 18 (b2n u.second), u16 20 where', u32 24 (s.se.cycle - 1)]
    if s.dev.seSplit then s.seAbandon u
    else
      let s := (s.onSe fun e => { e with run := none }).seReact
      if thirdFault s.se.faultAt then s.seEnter .halted else (s.seEnter .restart).seRestart

/-- The PC of the instance that runs. -/
def SeS.pcOf (e : SeS) (u : SeRun) : Nat := (if u.second then e.regsB else e.regsA).pc

/-! ### Debugger writes (R615, R616) -/

/-- R615, R616 a write applied to an instance: `second` B or Y, `mir` transformed under R596. -/
def SeS.poke (e : SeS) (second mir : Bool) (target : DbgTarget) (value : Nat) : SeS :=
  let v16 : Half := BitVec.ofNat 16 value
  let v16 := if mir then -v16 else v16
  let regs (f : RegsS → RegsS) : SeS := if second then { e with regsB := f e.regsB } else { e with regsA := f e.regsA }
  let rev {n : Nat} (i : Fin n) : Fin n := if mir then i.rev else i
  match target with
  | .d r => regs fun x => { x with d := x.d.set (rev r) v16 }
  | .acc a =>
    let v : BitVec 40 := if mir then -(BitVec.ofNat 40 value) else BitVec.ofNat 40 value
    regs fun x => { x with acc := x.acc.set (rev a) v }
  | .ix n => regs fun x => { x with ix := x.ix.set (rev n) (value % 8192) }
  | .pc => regs fun x => { x with pc := value % 16384 }
  | .psm a => { e with psm := Cells.set 0 e.psm (sePhys second a) v16 }
  | .breakpoint i => { e with breaks := e.breaks.set i (if value < 16384 then some value else none) }

/-- R616 B applies the writes logged at its present instruction count. -/
def SeS.replay (e : SeS) (count : Nat) : SeS :=
  (e.dbgLog.filter (fun w => w.count == count)).foldl (fun e w => e.poke true true w.target w.value) e

/-- R616 the replay after the run has changed; only instance B replays, what was written while it ran at its END. -/
def State.seReplay (s : State) : State :=
  match s.se.run with
  | some u => if u.second && !s.dev.seSplit then s.onSe fun e => e.replay u.countB else s
  | none => s

/-! ### Execution (R591, R597, R601) -/

/-- R34, R592 the cycle is late: a program-class fault stamped with its deadline. -/
def State.seLate (s : State) (u : SeRun) : State :=
  let d := s.se.deadline u.start
  (s.noteSlack ((d : Int) - (u.overAt.getD s.dtime)) (d - u.start) true).seFault 3 18 (s.se.pcOf u) d

/-- R591, R601, R592 END of the run in progress; one after the deadline waits for the declaration that the cycle is late (R62). -/
def State.seEnd (s : State) (u : SeRun) : State :=
  if !u.second then (s.onSe fun e => { e with xStop := false }).seSecond u
  else if s.se.state ≠ .debug ∧ s.se.deadline u.start < s.dtime then
    let u := { u with overAt := some s.dtime }
    if timedOut (s.se.deadline u.start) s.dtime then s.seLate u else s.onSe fun e => { e with run := some u }
  else if !s.dev.seSplit && (u.countA != u.countB || u.a.issued != u.b.issued || !u.left.isEmpty) then
    s.seFault 1 4 (s.se.pcOf u) s.dtime
  else (s.onSe fun e => { e with yStop := false }).seRelease u

/-- R431, R614 PSTS and PSTR are exceptions in split mode. -/
def EngAct.splitBad (a : EngAct) : Bool :=
  match a with
  | .psts _ _ => true
  | .pstr _ _ _ => true
  | _ => false

/-- One more instruction of the executing instance. -/
def SeRun.tick (u : SeRun) : SeRun :=
  if u.second then { u with countB := u.countB + 1 } else { u with countA := u.countA + 1 }

/-- R597 an instruction's effect applied: outputs, data words, registers. -/
def State.seApply (s : State) (u : SeRun) (g : EngCfg) (p : Plan) : State :=
  let split := s.dev.seSplit
  let ws := s.seWrites g p
  let act := match p.act with
    | .siow _ _ => if split then EngAct.none else p.act
    | a => a
  match u.issue split (seOutputs u.second ws act) with
  | .inr (cls, cause, id) => s.seFault cls cause (id.getD (s.se.pcOf u)) s.dtime
  | .inl u =>
    let u := u.tick
    let regs := match p.act with
      | .sior d q => g.setBits p.regs d (s.se.latchSi[q % 24]'(Nat.mod_lt _ (by decide)))
      | _ => p.regs
    let s := s.onSe fun e => { e with
      run := some u
      regsA := if u.second then e.regsA else regs
      regsB := if u.second then regs else e.regsB
      dbgPass := if u.second && !split then e.dbgPass else false
      psm := ws.foldl (fun m w =>
        let a := sePhys u.second w.1
        if a < 0x1000 then Cells.set 0 m a w.2 else m) e.psm }
    match p.act with
    | .finish => (s.seReplay.seEnd u).seReplay
    | _ => s.seReplay

/-- R586, R595, R606 the word at the PC executed. -/
def State.seRun (s : State) (u : SeRun) (f : EngFault) : State :=
  let regs := if u.second then s.se.regsB else s.se.regsA
  let g := s.seEng u
  if f.parity then s.seFault 3 17 regs.pc s.dtime
  else match f.compare.filter (fun c => decide (8 ≤ c) && decide (c ≤ 11)) with
    | some c => s.seFault 2 c regs.pc s.dtime
    | none => match g.plan regs (Cells.get 0 s.se.store regs.pc) with
      | none => s.seFault 3 16 regs.pc s.dtime
      | some p =>
        if s.dev.seSplit && p.act.splitBad then s.seFault 3 16 regs.pc s.dtime else s.seApply u g p

/-- R615 the debugger acts on the run in progress: instance A, or either executive in split mode. -/
def State.dbgReach (s : State) (u : SeRun) : Bool := s.se.attached && (!u.second || s.dev.seSplit)

/-- R615 the run in progress stands at a breakpoint that it may not pass. -/
def State.atBreak (s : State) (u : SeRun) : Bool :=
  !s.se.dbgPass && s.se.breaks.toList.any (fun b => b == some (s.se.pcOf u))

/-- R420, R597 the word at the PC executed under the row of opcode `op`: nothing happens when no run executes, when the
word names another instruction, or while the debugger holds the run. -/
def State.seInstr (s : State) (op : Nat) (f : EngFault) : State :=
  match s.se.run with
  | none => s
  | some u =>
    let x := Cells.get 0 s.se.store (s.se.pcOf u)
    if u.overAt.isSome || (listedOp (opOf x) && opOf x != op) then s
    else if s.dbgReach u && (s.se.dbgHalt || s.atBreak u) then s
    else s.seRun u f

/-! ### Cycle start (R591 to R593, R605) -/

/-- R605 the record of a channel. -/
def recWords (c : Chan) (bad : Bool) : List Half :=
  let a := c.adc
  let st := c.core.code.num + 16 * b2n (c.core.stoActive != c.prot.sto) +
    32 * b2n (c.core.code == .safe && c.core.stoActive && c.core.stoAsc) + 64 * b2n (a.seN != 0) + 128 * b2n (c.posMode != 0) +
    256 * b2n a.seSnap.uncertain + 512 * b2n a.seSnap.still + 1024 * b2n a.seSnap.down
  let iv (v : Int) : Half := if bad || a.seN == 0 then 0 else BitVec.ofInt 16 v
  let spd := signedBits 32 a.seSnap.speed
  [if bad then 0 else BitVec.ofNat 16 st, if bad then 0 else BitVec.ofNat 16 a.seN, iv a.seMax, iv a.seMin, iv a.seLast,
   BitVec.ofNat 16 spd, BitVec.ofNat 16 (spd / 65536), BitVec.ofNat 16 a.seSnap.count]

/-- R593, R604, R605 the input latch. -/
def State.seLatch (s : State) (recErr : BitVec 128) : State :=
  let e := s.se
  let t := s.dtime
  let recs := (List.finRange 128).flatMap fun (n : Fin 128) => recWords s.chans[n] (recErr.getLsbD n)
  let cyc := [BitVec.ofNat 16 e.cycle, BitVec.ofNat 16 (e.cycle / 65536), BitVec.ofNat 16 t, BitVec.ofNat 16 (t / 65536),
    BitVec.ofNat 16 (b2n e.lockout + 2 * b2n e.first)]
  { s with
    se := { e with
      latch := Cells.ofList 0 0x1000 (recs ++ cyc) ++ Cells.ofList 0 0x1440 (s.io.keys.toList.map (fun k => k.word t)) ++
        Cells.ofList 0 0x1448 (s.io.so.toList.map SoS.word)
      latchSi := s.io.si.map SiS.word
      latchPst := s.io.pst.map PstS.latch }
    io := { s.io with pst := s.io.pst.map PstS.latched }
    chans := s.chans.map fun c => { c with adc := { c.adc with seN := 0, seMax := 0, seMin := 0, seLast := 0 } } }

/-- R605 SE_REC_ERR for every record whose check code fails. -/
def State.recErrors (s : State) (recErr : BitVec 128) : State :=
  (List.finRange 128).foldl (fun s (n : Fin 128) => if recErr.getLsbD n then s.seLimited 0x4004 [u8 16 n] else s) s

/-- R591, R609, R617 whether a cycle starts now. -/
def State.seStarts (s : State) : Bool :=
  let e := s.se
  e.run.isNone && s.dev.phase != .shutdown && decide (e.img.cycleUs ≠ 0) && s.dtime % (e.img.cycleUs * 1000) == 0 &&
  (match e.state with
    | .init => e.armed
    | .run => true
    | .restart => e.tested
    | .halted => false
    | .debug => true
    | .split => true)

/-- R609, R614, R617 the state in which a cycle runs. -/
def State.seRunState (s : State) : SeCode := if s.se.attached then .debug else if s.dev.seSplit then .split else .run

/-- R638, R654 what a cycle start does before the latch: resets judged, readbacks compared. -/
def State.seBefore (s : State) (x : SeInputs) : State :=
  let s := s.onIo fun i => { i with so := Vector.ofFn fun (q : Fin 8) =>
    { i.so[q] with ra := x.ra.getLsbD q, rb := x.rb.getLsbD q } }
  let locked := s.se.lockout
  let s := if s.se.state = .run then (s.judgeResets).soApplyAll else s
  let s := if locked = s.se.lockout then s else s.applySto false
  (List.finRange 8).foldl (fun s q => s.soCompare q (x.ra.getLsbD q) (x.rb.getLsbD q)) s

/-- R591 a cycle starts; the test pulses (R628) follow the latch. -/
def State.seCycle (s : State) (x : SeInputs) : State :=
  let s := (s.onSe fun e => { e with armed := false, tested := false, first := e.first || e.state == .restart })
  let s := (s.seEnter s.seRunState).seBefore x
  let s := ((s.seLatch x.recErr).recErrors x.recErr).siTests x.testsA x.testsB
  let s := s.onSe fun e => { e with
    firstNow := e.first
    first := false
    cycle := e.cycle + 1
    dbgLog := e.dbgNext
    dbgNext := []
    dbgCount := e.dbgNext.length
    dbgFull := false
    regsA := { e.regsA with pc := e.img.entry % 16384 }
    run := some { second := false, start := s.dtime, countA := 0, countB := 0, a := {}, b := {}, left := [], xStopped := false } }
  match x.fault.filter (fun c => decide (8 ≤ c) && decide (c ≤ 11)) with
  | some c => s.seFault 2 c s.se.img.entry s.dtime
  | none => s

/-- R591, SE_CYCLE_START. -/
def execSeCycleStart (t : Nat) (x : SeInputs) (s : State) : Result :=
  s.mainCmd t fun s => if s.seStarts then s.seCycle x else s

/-- R592, LATE_CYCLE. -/
def execLateCycle (t : Nat) (s : State) : Result :=
  s.mainCmd t fun s =>
    match s.se.run with
    | some u =>
      if s.se.state ≠ .debug ∧ timedOut (s.se.deadline u.start) s.dtime = true then s.seLate u else s
    | none => s

/-- R609, R610, RESTART_TEST. -/
def execRestartTest (t : Nat) (pass : Bool) (s : State) : Result :=
  s.mainCmd t fun s =>
    if s.se.state ≠ .restart then s
    else if pass then s.onSe fun e => { e with tested := true }
    else s.seEnter .halted

/-! ### Debugging (R615 to R617) -/

/-- R621 SE_DEBUG. -/
def State.dbgEvent (s : State) (what : Nat) : State := s.seEvent 0x4005 s.dtime [u8 16 what, u16 18 (s.se.cycle - 1)]

/-- R615, R610, R736, SE_DEBUG: the access instruction is in force, and the debugger attaches, but not in HALTED, which only
a main power-up leaves. -/
def execSeDebug (t : Nat) (s : State) : Result :=
  s.mainCmd t fun s =>
    let s := { s with jtag := { s.jtag with ir := if s.se.img.debugEn then .seDebug else .bypass } }
    if s.se.img.debugEn && !s.se.attached && s.se.state != .halted then
      let s := s.onSe fun e => { e with first := e.first || e.state == .restart, attached := true, run := none, dbgHalt := false, dbgPass := false, dbgLog := [],
                                        dbgNext := [], dbgCount := 0, dbgFull := false }
      ((if s.dev.seSplit then s else s.seReact).seEnter .debug).dbgEvent 0
    else s

/-- R617, DEBUG_DETACH: RUN follows at the next cycle start. -/
def execDebugDetach (t : Nat) (s : State) : Result :=
  s.mainCmd t fun s =>
    if s.se.attached then
      (s.onSe fun e => { e with attached := false, dbgHalt := false, breaks := Vector.replicate 8 none }).dbgEvent 1
    else s

/-- R615, DEBUG_HALT. -/
def execDebugHalt (t : Nat) (s : State) : Result :=
  s.mainCmd t fun s => if s.se.attached then s.onSe fun e => { e with dbgHalt := true } else s

/-- R615, DEBUG_RESUME. -/
def execDebugResume (t : Nat) (s : State) : Result :=
  s.mainCmd t fun s =>
    if s.se.attached && s.se.dbgHalt then s.onSe fun e => { e with dbgHalt := false, dbgPass := true } else s

/-- R615, DEBUG_STEP: one instruction of the halted instance. -/
def execDebugStep (t : Nat) (f : EngFault) (s : State) : Result :=
  s.mainCmd t fun s =>
    match s.se.run with
    | some u => if s.dbgReach u && s.se.dbgHalt then s.seRun u f else s
    | none => s

/-- R615, BREAKPOINT_HIT. -/
def execBreakpointHit (t : Nat) (s : State) : Result :=
  s.mainCmd t fun s =>
    match s.se.run with
    | some u => if s.dbgReach u && s.atBreak u then s.onSe fun e => { e with dbgHalt := true } else s
    | none => s

/-- R616 a write to instance A: applied and logged with A's instruction count, or refused while the log is full. Between the
cycles it goes to the next cycle's log; a PC write is then without effect, for A starts at ENTRY (R591). -/
def State.dbgWrite (s : State) (target : DbgTarget) (value : Nat) : State :=
  if 256 ≤ s.se.dbgCount then
    if s.se.dbgFull then s else (s.onSe fun e => { e with dbgFull := true }).dbgEvent 2
  else
    let runs := s.se.run.isSome
    let w : DbgWrite := { count := s.se.run.elim 0 (·.countA), target := target, value := value }
    s.onSe fun e => { e.poke false false target value with
      dbgCount := e.dbgCount + 1
      dbgLog := if runs then e.dbgLog ++ [w] else e.dbgLog
      dbgNext := if runs || target == .pc then e.dbgNext else e.dbgNext ++ [w] }

/-- R615, R616, DEBUGGER_WRITE. -/
def execDebuggerWrite (t : Nat) (target : DbgTarget) (value : Nat) (s : State) : Result :=
  s.mainCmd t fun s =>
    if !s.se.attached then s
    else match target with
      | .breakpoint _ => s.onSe fun e => e.poke false false target value
      | _ =>
        if s.dev.seSplit then s.onSe fun e => e.poke (e.run.any (·.second)) false target value
        else s.dbgWrite target value

/-! ### Registers (R618 to R620, R655) -/

/-- R618 a slack in whole µs, as 16 bits. -/
def slackUs (x : Int) : Nat := clampNat 0 65535 (x / 1000).toNat

/-- R612 the gate readbacks of 32 channels. -/
def State.stoRb (s : State) (g : Nat) : Nat :=
  (List.finRange 128).foldl (fun (a : Nat) (n : Fin 128) =>
    if n.val / 32 = g ∧ (s.chans[n].core.stoActive != s.chans[n].prot.sto) = true then a + 2 ^ (n.val % 32) else a) 0

/-- R618 to R620 a word of the SE block, at an offset from 0x04_0000 below 0x8000. -/
def State.readSe (s : State) (off : Nat) : Word :=
  let e := s.se
  if 0x4000 ≤ off then (Cells.get 0 e.psm ((off - 0x4000) / 4)).setWidth 32
  else match off with
    | 0x00 => pack [(9, 3, e.imgErr), (8, 1, b2n e.yStop), (7, 1, b2n e.xStop), (6, 1, b2n e.img.debugEn),
        (5, 1, b2n s.dev.seSplit), (4, 1, b2n e.lockout), (0, 4, e.state.num)]
    | 0x04 => pack [(16, 16, e.img.progId), (0, 16, e.img.cycleUs)]
    | 0x08 => BitVec.ofNat 32 e.img.budget
    | 0x0C =>
      let live := e.slacks.filter (fun x => decide (s.dtime < x.1 + 1000000000))
      pack [(16, 16, slackUs e.lastSlack), (0, 16, match live with
        | [] => 0
        | x :: xs => slackUs (xs.foldl (fun m y => min m y.2) x.2))]
    | 0x10 => BitVec.ofNat 32 e.cycle
    | 0x14 => BitVec.ofNat 32 (e.cycle / 2 ^ 32)
    | 0x18 => pack [(30, 2, e.fClass), (24, 6, e.fCause), (23, 1, b2n e.fInst), (0, 14, e.fWhere)]
    | 0x1C => BitVec.ofNat 32 e.faults
    | 0x100 => pack [(0, 20, e.stoSpeed)]
    | _ =>
      let g := off / 4 % 4
      if off / 16 = 2 then BitVec.ofNat 32 (e.group 0x1410 g)
      else if off / 16 = 3 then BitVec.ofNat 32 (e.group 0x1418 g)
      else if off / 16 = 4 then BitVec.ofNat 32 (e.group 0x1420 g)
      else if off / 16 = 5 then BitVec.ofNat 32 (s.stoRb g)
      else 0

/-- R655 a word of the safety input and output registers, at an offset from 0x04_8000. -/
def State.readSafeIo (s : State) (off : Nat) : Word :=
  let x := s.io
  let two (hi lo : Half) : Word := pack [(16, 16, hi.toNat), (0, 16, lo.toNat)]
  let i := off / 4
  if !x.configured then 0
  else if h : i < 24 then two x.si[i].cfg x.si[i].word
  else if h : 0x20 ≤ i ∧ i < 0x28 then two (x.so[i - 0x20]'(by omega)).cfg (x.so[i - 0x20]'(by omega)).word
  else if h : 0x28 ≤ i ∧ i < 0x30 then ((x.so[i - 0x28]'(by omega)).per).setWidth 32
  else if h : 0x30 ≤ i ∧ i < 0x36 then two (x.keys[i - 0x30]'(by omega)).cfg ((x.keys[i - 0x30]'(by omega)).word s.dtime)
  else if i = 0x38 then BitVec.ofNat 32 x.tpW
  else if i = 0x39 then pack [(16, 16, x.refused), (0, 16, x.resets)]
  else if h : 0x40 ≤ i ∧ i < 0x50 then ((s.se.latchPst[i - 0x40]'(by omega)).status).setWidth 32
  else if h : 0x50 ≤ i ∧ i < 0x60 then
    pack [(16, 16, (x.pst[i - 0x50]'(by omega)).discarded), (0, 16, (x.pst[i - 0x50]'(by omega)).accepted)]
  else if h : 0x60 ≤ i ∧ i < 0x70 then
    let p := x.pst[i - 0x60]'(by omega)
    pack [(24, 8, p.unsent), (16, 8, p.txLen), (0, 16, p.txSeq)]
  else if h : 0x80 ≤ i ∧ i < 0x100 then
    let p := x.pst[(i - 0x80) / 8]'(by omega)
    (p.cfg[(i - 0x80) % 8]'(by omega)).setWidth 32
  else if h : 0x400 ≤ i ∧ i < 0x500 then
    let p := x.pst[(i - 0x400) / 16]'(by omega)
    BitVec.ofNat 32 (ofBytes ((p.txFrame.drop (4 * ((i - 0x400) % 16))).take 4))
  else 0

end Sys2Proof.Machine
end

