-- ==== Sys2Proof/Machine/Engine.lean ====
section
/-! DEFINITION. The instructions of the engines as commands (R420, R431): the next instruction of a channel's run, or of
the safety executive's, executed under its row. -/
namespace Sys2Proof.Machine

/-- The word at the PC of an engine executed under the row of opcode `op` (R372, R583). -/
def State.engine (s : State) (t : Nat) (e : Eng) (op : Nat) (f : EngFault) : Result :=
  match e with
  | .ch n => s.chCmd t n (ChR.instr op f)
  | .se => s.mainCmd t fun s => s.seInstr op f

/-- R420, NOP. -/
def execNleNop (t : Nat) (e : Eng) (f : EngFault) (s : State) : Result := s.engine t e 0x01 f
/-- R420, END. -/
def execEndRun (t : Nat) (e : Eng) (f : EngFault) (s : State) : Result := s.engine t e 0x02 f
/-- R420, JMP. -/
def execJmp (t : Nat) (e : Eng) (f : EngFault) (s : State) : Result := s.engine t e 0x03 f
/-- R420, JAL. -/
def execJal (t : Nat) (e : Eng) (f : EngFault) (s : State) : Result := s.engine t e 0x04 f
/-- R420, JR. -/
def execJr (t : Nat) (e : Eng) (f : EngFault) (s : State) : Result := s.engine t e 0x05 f
/-- R420, BEQ. -/
def execBeq (t : Nat) (e : Eng) (f : EngFault) (s : State) : Result := s.engine t e 0x06 f
/-- R420, BNE. -/
def execBne (t : Nat) (e : Eng) (f : EngFault) (s : State) : Result := s.engine t e 0x07 f
/-- R420, BLT. -/
def execBlt (t : Nat) (e : Eng) (f : EngFault) (s : State) : Result := s.engine t e 0x08 f
/-- R420, BGE. -/
def execBge (t : Nat) (e : Eng) (f : EngFault) (s : State) : Result := s.engine t e 0x09 f
/-- R420, BCZ. -/
def execBcz (t : Nat) (e : Eng) (f : EngFault) (s : State) : Result := s.engine t e 0x0A f
/-- R420, LOOP. -/
def execLoop (t : Nat) (e : Eng) (f : EngFault) (s : State) : Result := s.engine t e 0x0B f
/-- R420, BBS. -/
def execBbs (t : Nat) (e : Eng) (f : EngFault) (s : State) : Result := s.engine t e 0x0C f
/-- R420, BBC. -/
def execBbc (t : Nat) (e : Eng) (f : EngFault) (s : State) : Result := s.engine t e 0x0D f
/-- R420, LD. -/
def execLd (t : Nat) (e : Eng) (f : EngFault) (s : State) : Result := s.engine t e 0x10 f
/-- R420, ST. -/
def execSt (t : Nat) (e : Eng) (f : EngFault) (s : State) : Result := s.engine t e 0x11 f
/-- R420, LDI. -/
def execLdi (t : Nat) (e : Eng) (f : EngFault) (s : State) : Result := s.engine t e 0x12 f
/-- R420, MOV. -/
def execMov (t : Nat) (e : Eng) (f : EngFault) (s : State) : Result := s.engine t e 0x13 f
/-- R420, LDA. -/
def execLda (t : Nat) (e : Eng) (f : EngFault) (s : State) : Result := s.engine t e 0x14 f
/-- R420, STA. -/
def execSta (t : Nat) (e : Eng) (f : EngFault) (s : State) : Result := s.engine t e 0x15 f
/-- R420, LIX. -/
def execLix (t : Nat) (e : Eng) (f : EngFault) (s : State) : Result := s.engine t e 0x16 f
/-- R420, AIX. -/
def execAix (t : Nat) (e : Eng) (f : EngFault) (s : State) : Result := s.engine t e 0x17 f
/-- R420, MIX. -/
def execMix (t : Nat) (e : Eng) (f : EngFault) (s : State) : Result := s.engine t e 0x18 f
/-- R420, DSET. -/
def execDset (t : Nat) (e : Eng) (f : EngFault) (s : State) : Result := s.engine t e 0x19 f
/-- R420, SINCOS. -/
def execSincos (t : Nat) (e : Eng) (f : EngFault) (s : State) : Result := s.engine t e 0x1A f
/-- R420, ALU. -/
def execAlu (t : Nat) (e : Eng) (f : EngFault) (s : State) : Result := s.engine t e 0x20 f
/-- R420, ADDI. -/
def execAddi (t : Nat) (e : Eng) (f : EngFault) (s : State) : Result := s.engine t e 0x21 f
/-- R420, ANDI. -/
def execAndi (t : Nat) (e : Eng) (f : EngFault) (s : State) : Result := s.engine t e 0x22 f
/-- R420, ORI. -/
def execOri (t : Nat) (e : Eng) (f : EngFault) (s : State) : Result := s.engine t e 0x23 f
/-- R420, XORI. -/
def execXori (t : Nat) (e : Eng) (f : EngFault) (s : State) : Result := s.engine t e 0x24 f
/-- R420, SHIFT. -/
def execShift (t : Nat) (e : Eng) (f : EngFault) (s : State) : Result := s.engine t e 0x25 f
/-- R420, MUL. -/
def execMul (t : Nat) (e : Eng) (f : EngFault) (s : State) : Result := s.engine t e 0x26 f
/-- R420, MULI. -/
def execMuli (t : Nat) (e : Eng) (f : EngFault) (s : State) : Result := s.engine t e 0x27 f
/-- R420, MAC. -/
def execMac (t : Nat) (e : Eng) (f : EngFault) (s : State) : Result := s.engine t e 0x30 f
/-- R420, AOP. -/
def execAop (t : Nat) (e : Eng) (f : EngFault) (s : State) : Result := s.engine t e 0x31 f
/-- R420, RACC. -/
def execRacc (t : Nat) (e : Eng) (f : EngFault) (s : State) : Result := s.engine t e 0x32 f
/-- R420, PI. -/
def execPi (t : Nat) (e : Eng) (f : EngFault) (s : State) : Result := s.engine t e 0x33 f
/-- R420, CHKPT. -/
def execChkpt (t : Nat) (e : Eng) (f : EngFault) (s : State) : Result := s.engine t e 0x38 f
/-- R420, SIOR. -/
def execSior (t : Nat) (e : Eng) (f : EngFault) (s : State) : Result := s.engine t e 0x39 f
/-- R420, SIOW. -/
def execSiow (t : Nat) (e : Eng) (f : EngFault) (s : State) : Result := s.engine t e 0x3A f
/-- R420, PSTS. -/
def execPsts (t : Nat) (e : Eng) (f : EngFault) (s : State) : Result := s.engine t e 0x3B f
/-- R420, PSTR. -/
def execPstr (t : Nat) (e : Eng) (f : EngFault) (s : State) : Result := s.engine t e 0x3C f

end Sys2Proof.Machine
end

