-- ==== Sys2Proof/Machine/Raster.lean ====
section
/-! DEFINITION. The coverage raster (chapter 13): grid, directory, tile cache, samples, marking, write-back, faults. -/
namespace Sys2Proof.Machine

/-! ### Updates and fields -/

/-- The raster replaced. -/
def State.onRaster (s : State) (f : RasterS → RasterS) : State := s.onFpe (fun x => { x with raster := f x.raster })

/-- R547 CELL_C. -/
def RasterS.cellC (r : RasterS) : Nat := fld r.ctrl 19 16
/-- R519 the cell size in mm. -/
def RasterS.cell (r : RasterS) : Nat := 2 ^ r.cellC
/-- R546 DIR_W. -/
def RasterS.dirW (r : RasterS) : Nat := fld r.dirDim 27 16
/-- R546 DIR_H. -/
def RasterS.dirH (r : RasterS) : Nat := fld r.dirDim 11 0
/-- R515 the window's base address. -/
def RasterS.base (r : RasterS) : Nat := r.winHi.toNat * 2 ^ 32 + r.winLo.toNat
/-- R520 bytes of the directory area. -/
def RasterS.dirArea (r : RasterS) : Nat := (r.dirW * r.dirH * 8 + 16383) / 16384 * 16384
/-- R515 bytes of the window. -/
def RasterS.winBytes (r : RasterS) : Nat := fld r.winSize 18 0 * 16384
/-- R518 the raster is ready. -/
def RasterS.ready (r : RasterS) : Bool := r.enable && !r.fault
/-- R515 the port whose host memory holds the window. -/
def State.rasterPort (s : State) : PortId := s.eventPort fpeUnit

/-- R516 the configuration checks: the lowest failing code, 0 when all pass. -/
def RasterS.configErr (r : RasterS) : Nat :=
  let ext (o : Word) (n : Nat) : Bool := decide ((2147483647 : Int) < o.toInt + n * 256 * r.cell)
  if r.cellC < 4 ∨ 10 < r.cellC then 1
  else if fld r.winSize 18 0 = 0 ∨ 262144 < fld r.winSize 18 0 ∨ 2 ^ 64 < r.base + r.winBytes then 2
  else if r.dirW = 0 ∨ 2048 < r.dirW ∨ r.dirH = 0 ∨ 2048 < r.dirH ∨ r.winBytes < r.dirArea then 3
  else if ext r.originE r.dirW || ext r.originN r.dirH then 4
  else 0

/-! ### The cache -/

/-- The dirty lines of a tile, lowest first. -/
def Tile.dirty (x : Tile) : List (Fin 32) :=
  (List.finRange 32).filter fun k => match x.cov[k].st with
    | .dirty _ => true
    | _ => false

/-- Every dirty line, by slot and line. -/
def RasterS.dirty (r : RasterS) : List (Fin 32 × Fin 32) :=
  (List.finRange 32).flatMap fun i => match r.slots[i] with
    | some x => x.dirty.map (fun k => (i, k))
    | none => []

/-- A slot's tile changed. -/
def RasterS.onSlot (r : RasterS) (i : Fin 32) (f : Tile → Tile) : RasterS :=
  { r with slots := r.slots.set i (r.slots[i].map f) }

/-- The slot that holds a tile. -/
def RasterS.find (r : RasterS) (col row : Nat) : Option (Fin 32) :=
  (List.finRange 32).find? fun i => r.slots[i].any (fun x => x.col == col && x.row == row)

/-- R517, R543 the cache and the mark queue are emptied; what is lost is counted. -/
def RasterS.discard (r : RasterS) : RasterS :=
  { r with
    linesLost := min 65535 (r.linesLost + r.dirty.length)
    swathLost := min 65535 (r.swathLost + r.queue.length)
    slots := Vector.replicate 32 none
    waits := []
    queue := [] }

/-- R538 every slot is freed and the mark queue emptied. -/
def RasterS.empty (r : RasterS) : RasterS :=
  { r with slots := Vector.replicate 32 none, waits := [], queue := [] }

/-- R543 a fault: code 0 = read, 1 = write, 2 = port down. -/
def State.rasterFails (s : State) (code kind ofs : Nat) : State :=
  if s.fpe.raster.enable && !s.fpe.raster.fault then
    (s.onRaster (fun r => { r.discard with fault := true })).fpeEvent 0x2010 [u8 16 code, u8 17 kind, u32 20 ofs]
  else s

/-- R543, RASTER_FAULT. -/
def execRasterFault (t : Nat) (write : Bool) (kind ofs : Nat) (s : State) : Result :=
  .next ((s.at t).rasterFails (b2n write) kind ofs)

/-- R543 an access is due: it goes ahead, or the port is down and the raster faults. -/
def State.rasterAccess (s : State) (ofs : Nat) (f : State → State) : State :=
  if s.fpe.raster.fault then s
  else if s.ports[s.rasterPort].link == .l0 then f s else s.rasterFails 2 0 ofs

/-- R66, R515 a read of the window. -/
def State.rasterReads (s : State) (ofs len : Nat) : State := s.request s.rasterPort .raster (s.fpe.raster.base + ofs) len

/-- R522, R526 the window offsets of the lines of a present tile that are not valid, the coverage plane first. -/
def Tile.lacks (x : Tile) : List Nat :=
  match x.entry with
  | .present o =>
    (List.finRange 32).filterMap (fun k => if x.cov[k].st = .invalid then some (o + 256 * k.val) else none) ++
    (List.finRange 32).filterMap (fun k => if x.exc[k].isNone then some (o + 8192 + 256 * k.val) else none)
  | _ => []

/-- R520 the window offset of a tile's directory entry. -/
def RasterS.entryOfs (r : RasterS) (col row : Nat) : Nat := (row * r.dirW + col) * 8

/-- R543 the window offset of the access that is pending, of the tile fetch requested first. -/
def RasterS.pendingOfs (r : RasterS) : Option Nat :=
  let fs := (r.slots.toList.filterMap id).filter (fun x => x.fetch.isSome)
  match fs with
  | [] => none
  | x :: xs =>
    let y := xs.foldl (fun a b => if b.fetch.getD 0 < a.fetch.getD 0 then b else a) x
    some (y.lacks.headD (r.entryOfs y.col y.row))

/-- R124, R543 the owner's port goes down: an access that is pending finds it so. -/
def State.rasterPortDown (s : State) (p : PortId) : State :=
  if s.ownerOf fpeUnit = some p then
    match s.fpe.raster.pendingOfs with
    | some ofs => s.rasterFails 2 0 ofs
    | none => s
  else s

/-! ### Write-back (R532, R533) -/

/-- R532 the window offset of a coverage line. -/
def Tile.lineOfs (x : Tile) (k : Fin 32) : Nat :=
  match x.entry with
  | .present o => o + 256 * k.val
  | _ => 0

/-- R532 a line written as it stands; it is CLEAN. -/
def State.writeLine (s : State) (i k : Fin 32) : State :=
  match s.fpe.raster.slots[i] with
  | none => s
  | some x =>
    let r := s.fpe.raster
    (s.emit s.rasterPort 256 (.rasterLine s.rasterPort (r.base + x.lineOfs k) (leBytes 256 x.cov[k].bits.toNat))).onRaster
      (fun r => { r.onSlot i (fun y => { y with cov := y.cov.set k { y.cov[k] with st := .clean } }) with
        wbLines := (r.wbLines + 1) % 2 ^ 32 })

/-- The window offset of a line of a slot. -/
def RasterS.lineOfs (r : RasterS) (i k : Fin 32) : Nat := (r.slots[i].map (fun x => x.lineOfs k)).getD 0

/-- R532 to R534 lines written in order, until one fails: how many were written, and whether all were. -/
def State.writeLines (s : State) (fail : Option RasFail) : List (Fin 32 × Fin 32) → Nat → State × Nat × Bool
  | [], n => (s, n, true)
  | (i, k) :: ls, n =>
    let ofs := s.fpe.raster.lineOfs i k
    if fail.any (fun f => f.after == n) then (s.rasterFails 1 ((fail.map (·.kind)).getD 0) ofs, n, false)
    else if s.ports[s.rasterPort].link != .l0 then (s.rasterFails 2 0 ofs, n, false)
    else (s.writeLine i k).writeLines fail ls (n + 1)

/-- R533, WRITE_BACK_DUE. -/
def execWriteBackDue (t : Nat) (col row : Nat) (line : Fin 32) (s : State) : Result :=
  let s := s.at t
  let r := s.fpe.raster
  .next (match r.find col row with
    | some i =>
      if s.powered && r.paused.isNone && r.dirty.contains (i, line) then
        s.rasterAccess (r.lineOfs i line) (fun s => s.writeLine i line)
      else s
    | none => s)

/-! ### Samples (R519, R522 to R525) -/

/-- R519 the cell of a point in whole mm. -/
def RasterS.cellOf (r : RasterS) (e n : Int) : Int × Int :=
  (Int.fdiv (e - r.originE.toInt) r.cell, Int.fdiv (n - r.originN.toInt) r.cell)

/-- R519 the tile of a cell, inside the directory. -/
def RasterS.tileOf (r : RasterS) (i j : Int) : Option (Nat × Nat) :=
  let col := Int.fdiv i 256
  let row := Int.fdiv j 256
  if 0 ≤ col ∧ col < r.dirW ∧ 0 ≤ row ∧ row < r.dirH then some (col.toNat, row.toNat) else none

/-- What a sample reads. -/
inductive SampleRd where
  | blocked
  | clear
  | late
  deriving DecidableEq, Repr

/-- R524 a sample in a missing tile. -/
def RasterS.missRead (r : RasterS) : SampleRd := if bitOf r.ctrl 26 then .clear else .blocked

/-- R522 line and bit within the line of a cell of a tile. -/
def lineBit (u v : Nat) : Fin 32 × Nat := (⟨v / 8 % 32, Nat.mod_lt _ (by decide)⟩, 256 * (v % 8) + u)

/-- R496, R524, R525 what a sample at a point in whole mm reads. -/
def RasterS.sample (r : RasterS) (e n : Int) : SampleRd :=
  let (i, j) := r.cellOf e n
  match r.tileOf i j with
  | none => r.missRead
  | some (col, row) =>
    if r.fault then r.missRead
    else match (r.find col row).bind (fun k => r.slots[k]) with
      | none => .late
      | some x =>
        match x.entry with
        | .awaited => .late
        | .missing => r.missRead
        | .present _ =>
          let (k, b) := lineBit (Int.emod i 256).toNat (Int.emod j 256).toNat
          match x.cov[k].st, x.exc[k] with
          | .invalid, _ => .late
          | _, none => .late
          | _, some ex => if x.cov[k].bits.getLsbD b || ex.getLsbD b then .blocked else .clear

/-! ### Tile requests (R526 to R528) -/

/-- R526 the tile's coverage lines are all valid. -/
def Tile.covValid (x : Tile) : Bool := x.cov.toList.all (fun l => l.st != .invalid)

/-- R526 something of the tile has still to arrive. -/
def Tile.wants (x : Tile) : Bool :=
  match x.entry with
  | .awaited => true
  | .missing => false
  | .present _ => !x.covValid || x.exc.toList.any Option.isNone

/-- R528 the slot that a request takes: an empty one, else the least recently used one whose tile holds no point of the
tick at `instant`, and while the raster is paused no dirty line either. -/
def RasterS.victim (r : RasterS) (instant : Nat) : Option (Fin 32) :=
  match (List.finRange 32).find? (fun i => r.slots[i].isNone) with
  | some i => some i
  | none =>
    let ok := (List.finRange 32).filter fun i => r.slots[i].any fun x =>
      decide (x.holds < instant) && (r.paused.isNone || x.dirty.isEmpty)
    let age (i : Fin 32) : Nat := (r.slots[i].map (·.used)).getD 0
    match ok with
    | [] => none
    | i :: is => some (is.foldl (fun b k => if age k < age b then k else b) i)

/-- R526 an empty slot's tile, its fetch requested. -/
def RasterS.newTile (r : RasterS) (col row used holds : Nat) : Tile :=
  { col := col, row := row, entry := .awaited, cov := Vector.replicate 32 {}, exc := Vector.replicate 32 none,
    fetch := some r.fetchNo, used := used, holds := holds }

/-- R528 a request given a slot, or none. -/
def State.placeTile (s : State) (instant col row holds : Nat) : Option State :=
  match s.fpe.raster.victim instant with
  | none => none
  | some i =>
    let (s, _, ok) := s.writeLines none ((s.fpe.raster.dirty).filter (fun l => l.1 == i)) 0
    some (if ok = false then s
      else s.rasterAccess (s.fpe.raster.entryOfs col row) fun s =>
        (s.rasterReads (s.fpe.raster.entryOfs col row) 8).onRaster (fun r => { r with
          slots := r.slots.set i (some (r.newTile col row instant holds))
          fetchNo := r.fetchNo + 1 }))

/-- R527 one tile requested at the tick at `instant`. -/
def State.requestTile (s : State) (instant : Nat) (holds : List (Nat × Nat)) (c : Nat × Nat) : State :=
  let r := s.fpe.raster
  if r.ready = false then s
  else
    let h := if holds.contains c then instant else 0
    match r.find c.1 c.2 with
    | some i =>
      match r.slots[i] with
      | some x =>
        if x.fetch.isNone && x.wants then
          s.rasterAccess (x.lacks.headD 0) fun s =>
            (x.lacks.foldl (fun s o => s.rasterReads o 256) s).onRaster (fun r =>
              { r.onSlot i (fun x => { x with fetch := some r.fetchNo }) with fetchNo := r.fetchNo + 1 })
        else s
      | none => s
    | none =>
      match s.placeTile instant c.1 c.2 h with
      | some s => s.onRaster (fun r => { r with waits := r.waits.filter (fun w => w != c) })
      | none =>
        if r.waits.contains c then s
        else
          let s := s.onRaster (fun r => { r with waits := r.waits ++ [c] })
          s.raiseLimited 0x2015 fpeUnit 18 [u8 16 s.fpe.raster.waits.length]

/-- R528 the tiles that the tick uses. -/
def RasterS.touch (r : RasterS) (instant : Nat) (wanted holds : List (Nat × Nat)) : RasterS :=
  { r with slots := r.slots.map fun o => o.map fun x =>
      { x with
        used := if wanted.contains (x.col, x.row) then instant else x.used
        holds := if holds.contains (x.col, x.row) then instant else x.holds } }

/-- R527 the requests of a tick: those of its samples first. -/
def State.requestTiles (s : State) (instant : Nat) (first all holds : List (Nat × Nat)) : State :=
  let wanted := (first ++ all).eraseDups
  let s := s.onRaster (fun r => r.touch instant wanted holds)
  wanted.foldl (fun s c => s.requestTile instant holds c) s

/-- R528, CACHE_WAIT_END: the oldest waiting request obtains a slot. -/
def State.cacheWaitEnd (s : State) : State :=
  match s.fpe.raster.waits with
  | [] => s
  | c :: cs =>
    let drop (s : State) : State := s.onRaster (fun r => { r with waits := cs })
    if (s.fpe.raster.find c.1 c.2).isSome then drop s
    else match s.placeTile s.fpe.lastTick c.1 c.2 0 with
      | some s => drop s
      | none => s

/-- R528, CACHE_WAIT_END. -/
def execCacheWaitEnd (t : Nat) (s : State) : Result :=
  let s := s.at t
  .next (if s.powered && s.fpe.raster.ready then s.cacheWaitEnd else s)

/-! ### Marking (R529 to R531) -/

/-- A point of the grid in 2^-16 mm. -/
abbrev Pt := Int × Int

/-- Twice the signed area of a triangle. -/
def cross (a b c : Pt) : Int := (b.1 - a.1) * (c.2 - a.2) - (b.2 - a.2) * (c.1 - a.1)

/-- R529 a point lies inside a triangle or on its boundary. -/
def inTriangle (a b c p : Pt) : Bool :=
  let d := cross a b p
  let e := cross b c p
  let f := cross c a p
  let box (x y z v : Int) : Bool := decide (min x (min y z) ≤ v) && decide (v ≤ max x (max y z))
  ((decide (0 ≤ d) && decide (0 ≤ e) && decide (0 ≤ f)) || (decide (d ≤ 0) && decide (e ≤ 0) && decide (f ≤ 0))) &&
  box a.1 b.1 c.1 p.1 && box a.2 b.2 c.2 p.2

/-- R529 the left and right ends of a tool point's width. -/
def Tip.ends (x : Tip) (w : Nat) : Pt × Pt :=
  let de := rndDiv (w * x.re) (2 ^ 17)
  let dn := rndDiv (w * x.rn) (2 ^ 17)
  ((x.e - de, x.n - dn), (x.e + de, x.n + dn))

/-- R529 the four corners A0, B0, A1, B1. -/
def Swath.corners (w : Swath) : Pt × Pt × Pt × Pt :=
  let (a0, b0) := w.p0.ends w.w
  let (a1, b1) := w.p1.ends w.w
  (a0, b0, a1, b1)

/-- R529 a point lies in the swath. -/
def Swath.covers (w : Swath) (p : Pt) : Bool :=
  let (a0, b0, a1, b1) := w.corners
  inTriangle a0 b0 b1 p || inTriangle a0 b1 a1 p

/-- R519 the centre of a cell. -/
def RasterS.centre (r : RasterS) (i j : Int) : Pt :=
  ((r.originE.toInt + i * r.cell) * 65536 + r.cell * 32768, (r.originN.toInt + j * r.cell) * 65536 + r.cell * 32768)

/-- The cell columns or rows whose centres may lie between two coordinates, as first and one past the last. -/
def RasterS.span (r : RasterS) (origin : Word) (lo hi : Int) : Int × Int :=
  (Int.fdiv (lo - origin.toInt * 65536) (r.cell * 65536), Int.fdiv (hi - origin.toInt * 65536) (r.cell * 65536) + 1)

/-- The cell columns and rows that a swath's corners enclose. -/
def RasterS.bounds (r : RasterS) (w : Swath) : (Int × Int) × (Int × Int) :=
  let (a, b, c, d) := w.corners
  (r.span r.originE (min (min a.1 b.1) (min c.1 d.1)) (max (max a.1 b.1) (max c.1 d.1)),
   r.span r.originN (min (min a.2 b.2) (min c.2 d.2)) (max (max a.2 b.2) (max c.2 d.2)))

/-- Integers from `lo` up to but not including `hi`. -/
def intRange (lo hi : Int) : List Int := (List.range (hi - lo).toNat).map (fun (k : Nat) => lo + (k : Int))

/-- R529 the cells of a tile that a swath covers, as column and row within the tile. -/
def RasterS.cellsIn (r : RasterS) (w : Swath) (col row : Int) : List (Nat × Nat) :=
  let ((i0, i1), (j0, j1)) := r.bounds w
  (intRange (max i0 (256 * col)) (min i1 (256 * col + 256))).flatMap fun i =>
    ((intRange (max j0 (256 * row)) (min j1 (256 * row + 256))).filter (fun j => w.covers (r.centre i j))).map fun j =>
      ((i - 256 * col).toNat, (j - 256 * row).toNat)

/-- R529 the tiles that a swath reaches. -/
def RasterS.reached (r : RasterS) (w : Swath) : List (Int × Int) :=
  let ((i0, i1), (j0, j1)) := r.bounds w
  ((intRange (Int.fdiv i0 256) (Int.fdiv i1 256 + 1)).flatMap fun c =>
    (intRange (Int.fdiv j0 256) (Int.fdiv j1 256 + 1)).map fun d => (c, d)).filter
    fun c => !(r.cellsIn w c.1 c.2).isEmpty

/-- R529 bits set in a line; a line that changes becomes DIRTY. -/
def CovLine.mark (l : CovLine) (t : Nat) (m : BitVec 2048) : CovLine :=
  if l.bits ||| m = l.bits then l
  else { bits := l.bits ||| m
         st := match l.st with
           | .dirty d => .dirty d
           | _ => .dirty t }

/-- The cells of one line as its bits. -/
def lineMask (cells : List (Nat × Nat)) (k : Nat) : BitVec 2048 :=
  (cells.filter (fun c => c.2 / 8 == k)).foldl (fun m c => m ||| BitVec.twoPow 2048 (256 * (c.2 % 8) + c.1)) 0

/-- R529 cells of a tile marked. -/
def Tile.mark (x : Tile) (t : Nat) (cells : List (Nat × Nat)) : Tile :=
  { x with cov := Vector.ofFn (fun (k : Fin 32) => x.cov[k].mark t (lineMask cells k.val)) }

/-- R531 the mark queue takes one more entry, or the swath is lost. -/
def State.queueSwath (s : State) (w : Swath) (col row : Nat) : State :=
  if s.fpe.raster.queue.length < 1024 then
    s.onRaster (fun r => { r with queue := r.queue ++ [{ col := col, row := row, sw := w }] })
  else
    (s.onRaster (fun r => { r with swathLost := satInc 65535 r.swathLost })).raiseLimited 0x2013 fpeUnit 18 [u8 16 w.ch]

/-- R524, R531 one tile of a swath: marked, queued or lost, or missing (second component). -/
def State.markTile (s : State) (w : Swath) (c : Int × Int) : State × Bool :=
  let r := s.fpe.raster
  match r.tileOf (256 * c.1) (256 * c.2) with
  | none => (s, true)
  | some (col, row) =>
    match r.find col row with
    | none => (s.queueSwath w col row, false)
    | some k => match r.slots[k] with
      | none => (s.queueSwath w col row, false)
      | some x =>
        if x.entry = .missing then (s, true)
        else if x.covValid then
          (s.onRaster (fun r => r.onSlot k (fun y => y.mark s.dtime (r.cellsIn w c.1 c.2))), false)
        else (s.queueSwath w col row, false)

/-- R529 a swath handed to the raster. -/
def State.markSwath (s : State) (w : Swath) : State :=
  if s.fpe.raster.ready = false then s
  else
    let (s, miss) := (s.fpe.raster.reached w).foldl
      (fun (a : State × Bool) c => let (s, m) := a.1.markTile w c; (s, a.2 || m)) (s, false)
    if miss then s.onRaster (fun r => { r with missCnt := satInc 65535 r.missCnt }) else s

/-- R531 the queued swaths of a tile, applied in queue order or found to reach a missing tile. -/
def RasterS.applyQueue (r : RasterS) (i : Fin 32) (t : Nat) : RasterS :=
  match r.slots[i] with
  | none => r
  | some x =>
    let mine := r.queue.filter (fun q => q.col == x.col && q.row == x.row)
    let rest := r.queue.filter (fun q => !(q.col == x.col && q.row == x.row))
    if x.entry == .missing then
      { r with queue := rest, missCnt := min 65535 (r.missCnt + mine.length) }
    else if x.covValid then
      { r.onSlot i (fun y => mine.foldl (fun y q => y.mark t (r.cellsIn q.sw q.col q.row)) y) with queue := rest }
    else r

/-! ### Tile fetches (R520, R521, R526) -/

/-- R521 the reason a PRESENT entry is invalid. -/
def RasterS.entryErr (r : RasterS) (col row : Nat) (lo hi : Word) : Option Nat :=
  let ofs := fld lo 31 14 * 16384
  if ofs < r.dirArea then some 0
  else if r.winBytes < ofs + 16384 then some 1
  else if fld hi 15 0 ≠ col ∨ fld hi 31 16 ≠ row then some 2
  else none

/-- R526 at most 8 fetches are outstanding: the slot's is among the first 8. -/
def RasterS.outstanding (r : RasterS) (x : Tile) : Bool :=
  match x.fetch with
  | some o => decide ((r.slots.toList.filter (fun y => y.any (fun z => z.fetch.any (fun p => decide (p < o))))).length < 8)
  | none => false

/-- R526 the fetch ends when nothing is missing any more. -/
def Tile.settleFetch (x : Tile) : Tile := if x.wants then x else { x with fetch := none }

/-- R520, R526 data of a tile arrives. -/
def State.tileData (s : State) (i : Fin 32) (x : Tile) (got : TileData) : State :=
  let put (s : State) (f : Tile → Tile) : State :=
    s.onRaster (fun r => (r.onSlot i (fun y => (f y).settleFetch)).applyQueue i s.dtime)
  match got, x.entry with
  | .entry lo hi, .awaited =>
    let s := s.countRd s.rasterPort 8
    if bitOf lo 0 = false then put s (fun y => { y with entry := .missing })
    else match s.fpe.raster.entryErr x.col x.row lo hi with
      | some why =>
        (put (s.onRaster (fun r => { r with dirErr := satInc 65535 r.dirErr })) (fun y => { y with entry := .missing })).fpeEvent
          0x2011 [u16 16 x.col, u16 18 x.row, u8 20 why]
      | none =>
        let e : EntrySt := .present (fld lo 31 14 * 16384)
        put (({ x with entry := e } : Tile).lacks.foldl (fun s o => s.rasterReads o 256) s) (fun y => { y with entry := e })
  | .line k bits, .present _ =>
    let s := s.countRd s.rasterPort 256
    if h : k.val < 32 then
      put s (fun y => if y.cov[k.val].st = .invalid then
        { y with cov := y.cov.set k.val { st := .clean, bits := bits } } else y)
    else put s (fun y => { y with exc := y.exc.set (k.val - 32) (some bits) })
  | _, _ => s

/-- R526, TILE_FETCH_DONE. -/
def execTileFetchDone (t : Nat) (col row : Nat) (got : TileData) (s : State) : Result :=
  let s := s.at t
  let r := s.fpe.raster
  .next (match (r.find col row).bind (fun k => (r.slots[k]).map (fun x => (k, x))) with
    | some (k, x) => if s.powered && r.ready && r.outstanding x then s.tileData k x got else s
    | none => s)

/-! ### Pausing (R539 to R542) -/

/-- R541 RESUME, first half: every CLEAN coverage line becomes INVALID. -/
def RasterS.invalidateClean (r : RasterS) : RasterS :=
  { r with slots := r.slots.map fun o => o.map fun x =>
      { x with cov := x.cov.map fun l => if l.st = .clean then { l with st := .invalid } else l } }

/-- R541 each dirty line merged with the host's and written back; answers the number merged and whether all were. -/
def State.mergeLines (s : State) (host : List (BitVec 2048)) (fail : Option RasFail) :
    List (Fin 32 × Fin 32) → Nat → State × Nat × Bool
  | [], n => (s, n, true)
  | (i, k) :: ls, n =>
    let ofs := s.fpe.raster.lineOfs i k
    let kind := (fail.map (·.kind)).getD 0
    if fail.any (fun f => f.after == 2 * n) then (s.rasterFails 0 kind ofs, n, false)
    else if s.ports[s.rasterPort].link != .l0 then (s.rasterFails 2 0 ofs, n, false)
    else
      let s := ((s.rasterReads ofs 256).countRd s.rasterPort 256).onRaster (fun r => r.onSlot i (fun x => 
        { x with cov := x.cov.set k { x.cov[k] with bits := x.cov[k].bits ||| host.getD n 0 } }))
      if fail.any (fun f => f.after == 2 * n + 1) then (s.rasterFails 1 kind ofs, n, false)
      else (s.writeLine i k).mergeLines host fail ls (n + 1)

/-- R541 the resume of a paused raster. -/
def State.rasterResume (s : State) (host : List (BitVec 2048)) (fail : Option RasFail) : State × Nat × Bool :=
  let s := s.onRaster RasterS.invalidateClean
  let (s, n, ok) := s.mergeLines host fail s.fpe.raster.dirty 0
  (if ok then s.onRaster (fun r => { r with paused := none }) else s, n, ok)

/-- R547 PAUSE_T in ns. -/
def RasterS.pauseT (r : RasterS) : Nat := clampNat 10 10000 (fld r.ctrl 15 0) * 1000000

/-- R542, RASTER_PAUSE_LIMIT. -/
def execRasterPauseLimit (t : Nat) (host : List (BitVec 2048)) (fail : Option RasFail) (s : State) : Result :=
  let s := s.at t
  .next (match s.fpe.raster.paused with
    | some f =>
      if s.powered && s.fpe.raster.ready && decide (f + s.fpe.raster.pauseT ≤ s.dtime) then
        let (s, n, ok) := s.rasterResume host fail
        if ok then s.fpeEvent 0x2014 [u32 20 n] else s
      else s
    | none => s)

/-! ### The descriptors (R534, R536, R539) -/

/-- How a raster operation ends: OK with its result, or DMA_ERROR (R543), DETAIL 1 for a read and 2 for a write. -/
def rasterEnd (ok : Bool) (detail result : Nat) : Ending := if ok then .now stOk 0 result else .now stDma detail 0

/-- R534, R536 the checks. -/
def rasterChecks (s : State) : Option Fail :=
  firstFail [failIf (!s.fpe.raster.ready) stBadState 0x0210, failIf s.fpe.raster.paused.isSome stBadState 0x0211,
    fpeInService s]

/-- R534 RASTER_FLUSH. -/
def rasterFlushExec (fail : Option RasFail) : Exec where
  check s _ _ := rasterChecks s
  run s _ _ :=
    let (s, n, ok) := s.writeLines fail s.fpe.raster.dirty 0
    (s, rasterEnd ok 2 n)

/-- R534, RASTER_FLUSH. -/
def execRasterFlush (t : Nat) (q : SqRef) (fail : Option RasFail) (s : State) : Result :=
  .next (s.runDesc t q 0x34 0 (rasterFlushExec fail))

/-- R536 whether a cached tile lies in the range of an invalidation. -/
def inRange (d : Desc) (x : Tile) : Bool :=
  (d.byte 24).testBit 0 || (decide (d.num 28 2 ≤ x.col) && decide (x.col ≤ d.num 32 2) &&
    decide (d.num 30 2 ≤ x.row) && decide (x.row ≤ d.num 34 2))

/-- R536 RASTER_INVALIDATE: the dirty lines of the tiles in the range written back and their slots freed. -/
def rasterInvalidateExec (fail : Option RasFail) : Exec where
  check s _ _ := rasterChecks s
  run s _ d :=
    let hit (r : RasterS) (i : Fin 32) : Bool := r.slots[i].any (inRange d)
    let r := s.fpe.raster
    let dropped := ((List.finRange 32).filter (hit r)).length
    let (s, _, ok) := s.writeLines fail (r.dirty.filter (fun l => hit r l.1)) 0
    let s := if ok then s.onRaster (fun r => { r with
      slots := r.slots.map (fun o => if o.any (inRange d) then none else o) }) else s
    (s, rasterEnd ok 2 dropped)

/-- R536, RASTER_INVALIDATE. -/
def execRasterInvalidate (t : Nat) (q : SqRef) (fail : Option RasFail) (s : State) : Result :=
  .next (s.runDesc t q 0x33 0 (rasterInvalidateExec fail))

/-- R543 DETAIL of a failed resume: 1 where a read failed, 2 where a write did. -/
def mergeDetail (fail : Option RasFail) : Nat := if fail.any (fun f => f.after % 2 == 0) then 1 else 2

/-- R539 to R541 RASTER_PAUSE. -/
def rasterPauseExec (host : List (BitVec 2048)) (fail : Option RasFail) : Exec where
  check s _ _ := firstFail [failIf (!s.fpe.raster.ready) stBadState 0x0210, fpeInService s]
  run s _ d :=
    match d.byte 24 == 1, s.fpe.raster.paused with
    | true, none =>
      let (s, n, ok) := s.writeLines fail s.fpe.raster.dirty 0
      (if ok then s.onRaster (fun r => { r with paused := some s.dtime }) else s, rasterEnd ok 2 n)
    | false, some _ =>
      let (s, n, ok) := s.rasterResume host fail
      (s, rasterEnd ok (mergeDetail fail) n)
    | _, _ => (s, .now stOk 0 0)

/-- R539, RASTER_PAUSE. -/
def execRasterPause (t : Nat) (q : SqRef) (host : List (BitVec 2048)) (fail : Option RasFail) (s : State) : Result :=
  .next (s.runDesc t q 0x35 0 (rasterPauseExec host fail))

/-! ### Registers (R516, R517, R544 to R548) -/

/-- R516 ENABLE = 1 written while the FPE is IDLE: `r` holds the new CTRL fields. -/
def RasterS.tryEnable (r : RasterS) : RasterS :=
  if r.configErr ≠ 0 then { r with enable := false, cfgErr := r.configErr }
  else { r.empty with enable := true, cfgErr := 0, late := 0, dirErr := 0, swathLost := 0, linesLost := 0, missCnt := 0,
                      wbLines := 0 }

/-- R516, R517, R547 a write of RASTER.CTRL. -/
def State.writeRasterCtrl (s : State) (v : Word) : State :=
  s.onRaster fun r =>
    let mask : Word := if r.enable then 0x0700FFFF#32 else 0x070FFFFF#32
    let r' := { r with ctrl := merge r.ctrl v mask }
    if s.fpe.state != .idle then r'
    else if bitOf v 31 then (if r.enable then r' else r'.tryEnable)
    else if r.enable then { r'.discard with enable := false, paused := none, fault := false }
    else r'

/-- R517, R546 a write of one of the raster registers at offset 0x100 and above in the FPE block. -/
def State.writeRaster (s : State) (off : Nat) (v : Word) : State :=
  let whole (s : State) (f : RasterS → RasterS) : State := if s.fpe.raster.enable then s else s.onRaster f
  match off with
  | 0x100 => s.writeRasterCtrl v
  | 0x104 => whole s (fun r => { r with winLo := v &&& 0xFFFFC000#32 })
  | 0x108 => whole s (fun r => { r with winHi := v })
  | 0x10C => whole s (fun r => { r with winSize := v &&& 0x7FFFF#32 })
  | 0x110 => whole s (fun r => { r with dirDim := v &&& 0x0FFF0FFF#32 })
  | 0x114 => whole s (fun r => { r with originE := v })
  | 0x118 => whole s (fun r => { r with originN := v })
  | _ => s

/-- R546 to R548 a read of a raster register. -/
def RasterS.read (r : RasterS) (off : Nat) : Word :=
  let cached := (r.slots.toList.filter Option.isSome).length
  match off with
  | 0x100 => r.ctrl ||| pack [(31, 1, b2n r.enable), (30, 1, b2n r.paused.isSome), (29, 1, b2n r.fault)]
  | 0x104 => r.winLo
  | 0x108 => r.winHi
  | 0x10C => r.winSize
  | 0x110 => r.dirDim
  | 0x114 => r.originE
  | 0x118 => r.originN
  | 0x11C => pack [(31, 1, b2n r.ready), (28, 3, r.cfgErr), (22, 6, cached), (11, 11, r.queue.length), (0, 11, r.dirty.length)]
  | 0x120 => pack [(16, 16, r.dirErr), (0, 16, r.late)]
  | 0x124 => pack [(16, 16, r.linesLost), (0, 16, r.swathLost)]
  | 0x128 => pack [(0, 16, r.missCnt)]
  | 0x12C => BitVec.ofNat 32 r.wbLines
  | 0x130 => (List.finRange 32).foldl (fun w (i : Fin 32) => if r.slots[i].isSome then w ||| BitVec.twoPow 32 i.val else w) 0
  | _ => 0

/-- R544 a chameleon change of the FPE. -/
def RasterS.rebind (r : RasterS) : RasterS := { r.empty with enable := false, paused := none, fault := false }

end Sys2Proof.Machine
end

