-- ==== Sys2Proof/Machine/Fpe.lean ====
section
/-! DEFINITION. The field position engine (chapter 12): implement models, decisions, deliveries, ticks, modes and
registers. -/
namespace Sys2Proof.Machine

/-- The code of a state of the FPE (R513). -/
def FpeCode.num : FpeCode → Nat
  | .idle => 0
  | .running => 1
  | .stopping => 2

/-- R503 the FPE is running: in RUNNING or STOPPING. -/
def FpeS.isRunning (f : FpeS) : Bool := f.state != .idle

/-- R505 a change of FPE state. -/
def State.fpeGoto (s : State) (c : FpeCode) (cause : Nat) : State :=
  (s.onFpe (fun f => { f with state := c })).fpeEvent 0x2001 [u8 16 c.num, u8 17 cause]

/-- The channels whose record has ENABLE = 1 (R493). -/
def FpeS.enabled (f : FpeS) : List ChanId := (List.finRange 128).filter (fun n => f.geo[n].enable)

/-! ### Implement models (R489 to R492) -/

/-- The tractor's motion and the implement at a tick (R490): hitch velocity in the tractor frame in 2^-16 mm/s, both yaw
rates in 2^-64 rad/s, both headings in 2^-64 revolution. -/
structure Motion where
  vf  : Int
  vr  : Int
  om  : Int
  omi : Int
  phi : Nat
  phiI : Nat
  deriving DecidableEq, Repr

/-- R490 the yaw rate of a fix in 2^-64 rad/s. -/
def yawRate (yaw : Int) : Int := rndDiv (2 * piFix * yaw) (2 ^ 32)

/-- A length in mm times a rate in 2^-64 rad/s, as 2^-16 mm/s. -/
def lever (om : Int) (mm : Int) : Int := rndDiv (om * mm) (2 ^ 48)

/-- An angle difference in 2^-64 revolution as a signed number. -/
def signedRev (a b : Nat) : Int := toSigned 64 ((a + 2 ^ 64 - b) % 2 ^ 64)

/-- The components of a tractor-frame vector along the implement's g and r_I (R489), in the same unit. -/
def intoImpl (gamma : Nat) (f r : Int) : Int × Int :=
  if gamma = 0 then (f, r)
  else (rndDiv (cosRev gamma * f + sinRev gamma * r) (2 ^ 64), rndDiv (cosRev gamma * r - sinRev gamma * f) (2 ^ 64))

/-- R489, R490 the motion of tractor and implement, with the implement at heading `phiI` before this tick's update. -/
def Impl.motion (m : Impl) (speed yaw : Int) (phi phiI : Nat) : Motion :=
  let om := yawRate yaw
  let vf := speed - lever om m.hy
  let vr := lever om m.hx
  if m.trailed then
    let (_, lat) := intoImpl ((phiI + 2 ^ 64 - phi) % 2 ^ 64) vf vr
    { vf := vf, vr := vr, om := om, omi := rndDiv (lat * 2 ^ 48) (clampNat 500 50000 m.tongue), phi := phi, phiI := phiI }
  else { vf := vf, vr := vr, om := om, omi := om, phi := phi, phiI := phi }

/-- The angle turned at a rate in 2^-64 rad/s in `d` ns, in 2^-64 revolution. -/
def swept (om : Int) (d : Nat) : Int := rndDiv (om * d * 2 ^ 64) (2000000000 * piFix)

/-- R490 the implement heading after a tick of period `h` ns. -/
def Motion.step (m : Motion) (trailed : Bool) (h : Nat) : Motion :=
  if trailed then { m with phiI := turn m.phiI (swept m.omi h) } else m

/-- R492 FPE_SPEED of a record. -/
def Motion.speed (m : Motion) (x y : Int) : Int :=
  let (vg, vl) := intoImpl ((m.phiI + 2 ^ 64 - m.phi) % 2 ^ 64) m.vf m.vr
  let lim : Int := 2 ^ 56
  let a := clampInt (-lim) lim (vg - lever m.omi y)
  let b := clampInt (-lim) lim (vl + lever m.omi x)
  let mag := rndDiv (isqrt (a * a + b * b).toNat : Nat) 65536
  sat32 (if a < 0 then -mag else mag)

/-- R489, R492 a point at (x, y16) of the implement frame (x in mm, y in 2^-16 mm), the implement at heading `phiI`, in
2^-16 mm. -/
def toolPoint (m : Impl) (p : Pose) (phiI : Nat) (x y16 : Int) : Pt :=
  let sf := sinRev p.phi
  let cf := cosRev p.phi
  let si := sinRev phiI
  let ci := cosRev phiI
  (p.e + rndDiv ((m.hx * sf + m.hy * cf + x * si) * 65536 + y16 * ci) (2 ^ 64),
   p.n + rndDiv ((m.hx * cf - m.hy * sf + x * ci) * 65536 - y16 * si) (2 ^ 64))

/-! ### Look-ahead and decision (R495 to R498) -/

/-- What a tick computation works from. -/
structure TickIn where
  free   : Nat
  pose   : Pose
  speed  : Int
  yaw    : Int
  motion : Motion
  impl   : Impl
  deriving DecidableEq, Repr

/-- R495 tractor pose and implement heading advanced by a lead of `l` ms; `key` tells the free values of this advance. -/
def TickIn.lead (k : TickIn) (key l : Nat) : Pose × Nat :=
  let p := k.pose.predict k.free key k.speed k.yaw (l * 1000000 : Nat)
  (p, if k.impl.trailed then turn k.motion.phiI (swept k.motion.omi (l * 1000000)) else p.phi)

/-- R496 number of samples. -/
def sampleCount (r : RasterS) (width : Nat) : Nat := min 32 (max 1 ((width + r.cell - 1) / r.cell))

/-- R519 a point rounded to whole mm. -/
def wholeMm (p : Pt) : Int × Int := (rndDiv p.1 65536, rndDiv p.2 65536)

/-- R496 the sample points of a record at a look-ahead point, in whole mm. -/
def TickIn.samples (k : TickIn) (r : RasterS) (g : GeoRec) (at' : Pose × Nat) : List (Int × Int) :=
  let n := sampleCount r g.width
  (List.range n).map fun (i : Nat) =>
    let y := rndDiv ((g.y * (2 * (n : Int)) + (g.width : Int) * (2 * (i : Int) + 1 - (n : Int))) * 65536) (2 * n)
    wholeMm (toolPoint k.impl at'.1 at'.2 g.x y)

/-- R496, R525 the blocked fraction in %, none where a late sample keeps the channel as it is; and the late samples. -/
def RasterS.fraction (r : RasterS) (ps : List (Int × Int)) : Option Nat × Nat :=
  let rd := ps.map (fun p => r.sample p.1 p.2)
  let late := rd.count .late
  let act := fld r.ctrl 25 24
  let f := 100 * (rd.count .blocked + (if act = 1 then late else 0)) / ps.length
  (if late ≠ 0 ∧ act ≠ 1 ∧ act ≠ 2 then none else some f, late)

/-- R497 the decision of a channel, and the late samples it met. -/
def FpeS.verdict (f : FpeS) (g : GeoRec) (prev stop : Bool) (fOn fOff : Option Nat × Nat) : Bool × Nat :=
  if f.state == .stopping then (false, 0)
  else if stop then (false, 0)
  else if g.forced = 1 then (true, 0)
  else if g.forced = 2 then (false, 0)
  else if !f.pose then (bitOf f.ctrl 21 && prev, 0)
  else if prev then ((match fOff.1 with
    | none => true
    | some x => decide (x < g.offThr)), fOff.2)
  else ((match fOn.1 with
    | none => false
    | some x => decide (x ≤ g.onThr)), fOn.2)

/-- R492, R495 to R498 one enabled channel at a tick: its row, its late samples, its sample points and its other points. -/
def TickIn.row (k : TickIn) (f : FpeS) (n : ChanId) : TickRow × Nat × List (Int × Int) × List (Int × Int) :=
  let g := f.geo[n]
  let speed := k.motion.speed g.x g.y
  let tip := toolPoint k.impl k.pose k.motion.phiI g.x (g.y * 65536)
  let pOn := k.lead (1000 + 8 * n.val) g.lOn
  let pOff := k.lead (1004 + 8 * n.val) g.lOff
  let sOn := k.samples f.raster g pOn
  let sOff := k.samples f.raster g pOff
  let (on, late) := f.verdict g f.rows[n].on (decide (speed < 0)) (f.raster.fraction sOn) (f.raster.fraction sOff)
  ({ ch := n, on := on, stop := decide (speed < 0), speed := speed,
     tip := { e := tip.1, n := tip.2, re := rndDiv (cosRev k.motion.phiI) (2 ^ 32), rn := rndDiv (-(sinRev k.motion.phiI)) (2 ^ 32) } },
   late, sOn ++ sOff,
   [wholeMm tip, wholeMm (toolPoint k.impl pOn.1 pOn.2 g.x (g.y * 65536)),
    wholeMm (toolPoint k.impl pOff.1 pOff.2 g.x (g.y * 65536))])

/-! ### Geometry taken (R493, R502) -/

/-- R493 a geometry descriptor takes effect at the start of a tick computation. -/
def State.takeGeometry (s : State) : State :=
  match s.fpe.geoWait with
  | none => s
  | some w =>
    let old := s.fpe.geo
    let s := s.onFpe fun f =>
      let new : Vector GeoRec 128 := Vector.ofFn (fun (n : Fin 128) =>
        if w.first ≤ n.val then w.recs.getD (n.val - w.first) f.geo[n] else f.geo[n])
      let gone := (List.finRange 128).filter (fun n => old[n].enable && !new[n].enable)
      { f with
        geo := new
        impl := w.impl.getD f.impl
        geoWait := none
        owed := if f.isRunning then ((f.owed ++ gone).eraseDups).filter (fun n => !new[n].enable) else []
        rows := Vector.ofFn (fun (n : Fin 128) => if gone.contains n then {} else f.rows[n]) }
    s.finish fpeUnit [0x31] stOk 0 0

/-! ### A tick computation (R484 to R499) -/

/-- R484 the active source is chosen at a tick. -/
def State.chooseSource (s : State) : State :=
  let f := s.fpe
  match f.fresh with
  | [] => s.noFix f.active s.dtime (((f.source f.active).last.map (·.arrival)).getD 0)
  | best :: _ =>
    if f.fresh.contains f.active = false then s.setActive best
    else
      let above := f.fresh.takeWhile (fun k => k != f.active)
      match above.find? (fun k => decide (atLeast1 (fld f.srcCfg 23 20) ≤ (f.source k).run)) with
      | some k => s.setActive k
      | none => s

/-- R487 the fix a tick at `instant` uses, with its source. -/
def FpeS.tickFix (f : FpeS) (instant : Nat) : Option (Nat × Fix) :=
  let x := f.source f.active
  match x.last with
  | some g => if g.arrival ≤ instant then some (f.active, g) else
      (match x.prev with
        | some p => some (f.active, p)
        | none => f.inUse)
  | none => f.inUse

/-- The pose before any fix has been accepted: the origin at rest (log 16). -/
def noFixYet : Fix :=
  { east := 0, north := 0, heading := 0, speed := 0, yaw := 0, epoch := 0, arrival := 0, qual := 0, hitch := none }

/-- R488 the jump of a newly used fix from the pose predicted of it, in mm: above JUMP_MAX or not. -/
def FpeS.jump (f : FpeS) (free : Nat) (old new : Fix) : Option Nat :=
  let p := old.poseAt free 103 new.epoch
  let de := p.e - new.east * 65536
  let dn := p.n - new.north * 65536
  let d2 := (de * de + dn * dn).toNat
  let lim := atLeast1 (fld f.ctrl 20 12) * 10 * 65536
  if lim * lim < d2 then some (rndDiv (isqrt d2 : Nat) 65536).toNat else none

/-- The tiles of points in whole mm that lie in the directory. -/
def RasterS.tilesOf (r : RasterS) (ps : List (Int × Int)) : List (Nat × Nat) :=
  (ps.filterMap fun p => let (i, j) := r.cellOf p.1 p.2; r.tileOf i j).eraseDups

/-- R527 the tiles within 16 cells of points in whole mm. -/
def RasterS.tilesNear (r : RasterS) (ps : List (Int × Int)) : List (Nat × Nat) :=
  (ps.flatMap fun p =>
    let (i, j) := r.cellOf p.1 p.2
    [r.tileOf i j, r.tileOf (i - 16) (j - 16), r.tileOf (i - 16) (j + 16), r.tileOf (i + 16) (j - 16),
      r.tileOf (i + 16) (j + 16)].filterMap id).eraseDups

/-- R525 a tick met late samples. -/
def State.noteLate (s : State) (n : Nat) : State :=
  if n = 0 then s
  else (s.onRaster (fun r => { r with late := satInc 65535 r.late })).raiseLimited 0x2012 fpeUnit 18 [u8 16 (min 255 n)]

/-- R490, R491 the implement at this tick: its motion, and JACKKNIFE. -/
def State.tickImplement (s : State) (fix : Fix) (fresh : Bool) (phi : Nat) : State × Motion × Bool :=
  let f := s.fpe
  let start : Nat := match fresh, fix.hitch, f.phiI with
    | true, some h, _ => turn phi (h * 2 ^ 48)
    | _, _, some p => p
    | _, _, none => phi
  let m := (f.impl.motion fix.speed fix.yaw phi start).step f.impl.trailed f.period
  let gamma := signedRev m.phiI m.phi
  let jack := if f.jack then decide ((14564 * 2 ^ 48 : Int) ≤ gamma.natAbs) else decide (2 ^ 62 < gamma.natAbs)
  (s.onFpe (fun f => { f with phiI := if f.pose then some m.phiI else f.phiI }), m, jack)

/-- R487 a tick computation starts for the tick at `instant`. -/
def State.startTick (s : State) (instant : Nat) : State :=
  let s := s.takeGeometry.chooseSource
  let f := s.fpe
  let used := f.tickFix instant
  let fix := (used.map (·.2)).getD noFixYet
  let fresh := used.isSome && used != f.inUse
  let jump : Option Nat := match fresh, f.inUse with
    | true, some old => f.jump s.freeCtr old.2 fix
    | _, _ => none
  let s := s.onFpe (fun f => { f with inUse := used, lastTick := instant })
  let s := match jump with
    | some mm => s.fpeEvent 0x2005 [u8 16 f.active, u32 20 mm]
    | none => s
  let d := (instant : Int) - fix.epoch
  let exact := fix.pose.advance fix.speed fix.yaw (if used.isSome then d else 0)
  let pose := if used.isSome then fix.poseAt s.freeCtr 100 instant else exact
  let (s, m, jack) := s.tickImplement fix fresh pose.phi
  let f := s.fpe
  let k : TickIn := { free := s.freeCtr, pose := pose, speed := fix.speed, yaw := fix.yaw, motion := m, impl := f.impl }
  let rows := f.enabled.map (fun n => k.row f n)
  let s := if f.isRunning then
      let r := f.raster
      let samples := rows.flatMap (fun x => x.2.2.1)
      let points := rows.flatMap (fun x => x.2.2.2)
      (s.noteLate ((rows.map (fun x => x.2.1)).sum)).requestTiles instant (r.tilesOf samples)
        (rows.flatMap (fun x => r.tilesNear (x.2.2.2 ++ x.2.2.1))) (r.tilesOf (points ++ samples))
    else s
  s.onFpe fun f => { f with tick := some {
    instant := instant
    deadline := instant + f.period
    active := f.isRunning
    noMark := jump.isSome || jack
    jack := jack
    valid := f.pose
    src := f.active
    qual := fix.qual
    east := shown exact.e pose.e 16
    north := shown exact.n pose.n 16
    heading := (Int.emod (shown exact.phi (exact.phi + signedRev pose.phi exact.phi) 48) 65536).toNat
    heading2 := (Int.emod (rndDiv m.phiI (2 ^ 48)) 65536).toNat
    speed := rndDiv fix.speed 65536
    gamma := if f.impl.trailed then rndDiv (signedRev m.phiI m.phi) (2 ^ 48) else 0
    rows := rows.map (fun x => x.1) } }

/-! ### Deliveries and marking (R499 to R502) -/

/-- R500, R381 a delivery to a channel, which triggers SLOW. -/
def State.fpeDeliver (s : State) (n : ChanId) (on stop forced : Bool) (speed : Int) (instant : Nat) : State :=
  s.chan n fun r =>
    (r.giveAll 0x248 ((b2n on + 2 * b2n stop + 4 * b2n forced) :: (sLong speed ++ long instant))).trigger .slow instant 0

/-- R501 a record written for another epoch of its channel; FPE_CH_STALE once per record write. -/
def State.staleRecord (s : State) (n : ChanId) : State × Bool :=
  let g := s.fpe.geo[n]
  let e := (s.unitOf n.val).epoch
  if g.epoch = 0 ∨ g.epoch = e then (s, false)
  else if g.told then (s, true)
  else
    ((s.onFpe (fun f => { f with geo := f.geo.set n { g with told := true } })).fpeEvent 0x200B
      [u8 16 n.val, u16 18 g.epoch, u16 20 e], true)

/-- R499 the ON intervals after a decision at `instant`; intervals that can no longer matter are dropped. -/
def RowS.decided (r : RowS) (on : Bool) (instant : Nat) : List (Nat × Option Nat) :=
  let live := r.hist.filter (fun h => match h.2 with
    | some e => decide (instant < e + 2000000000)
    | none => true)
  match on, live with
  | true, (_, none) :: _ => live
  | true, _ => (instant, none) :: live
  | false, (a, none) :: hs => (a, some instant) :: hs
  | false, _ => live

/-- R499 APPLYING at `instant`. -/
def applying (g : GeoRec) (hist : List (Nat × Option Nat)) (instant : Nat) : Bool :=
  hist.any fun h => decide (h.1 + g.lOn * 1000000 ≤ instant) &&
    (match h.2 with
      | some e => decide (instant < e + g.lOff * 1000000)
      | none => true)

/-- R499 to R501 one channel at the end of an in-time tick while the FPE runs. -/
def State.tickRow (s : State) (k : TickRun) (x : TickRow) : State :=
  let (s, stale) := s.staleRecord x.ch
  let g := s.fpe.geo[x.ch]
  let old := s.fpe.rows[x.ch]
  let hist := old.decided x.on k.instant
  let apply := applying g hist k.instant
  let s := s.onFpe (fun f => { f with
    rows := f.rows.set x.ch { on := x.on, apply := apply, hist := hist, tip := some x.tip } })
  let s := match old.tip with
    | some p0 =>
      if apply && g.mark && !x.stop && k.valid && !k.noMark && !stale then
        s.markSwath { ch := x.ch, w := max g.width s.fpe.raster.cell, p0 := p0, p1 := x.tip }
      else s
    | none => s
  if stale then s else s.fpeDeliver x.ch x.on x.stop (g.forced ≠ 0) x.speed k.instant

/-- R502 the last delivery of a record that has lost ENABLE. -/
def State.lastDelivery (s : State) (instant : Nat) (n : ChanId) : State :=
  let (s, stale) := s.staleRecord n
  if stale then s else s.fpeDeliver n false false false 0 instant

/-- A tick computation's tool points kept for the next tick. -/
def State.keepTips (s : State) (k : TickRun) : State :=
  s.onFpe fun f => { f with rows := k.rows.foldl (fun (v : Vector RowS 128) (x : TickRow) =>
    v.set x.ch { v[x.ch] with tip := some x.tip }) f.rows }

/-- R505 the FPE stops. -/
def State.fpeStop (s : State) (cause : Nat) : State :=
  if s.fpe.state == .running then
    (s.onFpe (fun f => { f with stopAt := s.dtime, stopCause := cause })).fpeGoto .stopping cause
  else s

/-- R506 LATE_RUN reaches LATE_MAX while the FPE is running. -/
def State.fpeHalt (s : State) (instant : Nat) : State :=
  let s := s.fpeEvent 0x2009 [u8 16 s.fpe.lateRun]
  let s := s.onFpe (fun f => { f with rows := f.rows.map (fun r => { r with on := false, hist := r.decided false instant }) })
  let s := s.fpe.enabled.foldl (fun s n =>
    let (s, stale) := s.staleRecord n
    if stale then s else s.fpeDeliver n false false (s.fpe.geo[n].forced ≠ 0) 0 instant) s
  s.fpeStop 1

/-- R506 LATE_MAX as it acts. -/
def FpeS.lateMax (f : FpeS) : Nat := atLeast1 (fld f.ctrl 26 24)

/-- R506 a late or skipped tick. -/
def State.tickLate (s : State) (instant : Nat) : State :=
  let before := s.fpe.lateRun
  let s := (s.onFpe (fun f => { f with tickLate := satInc 65535 f.tickLate, lateRun := satInc 7 f.lateRun })).raiseLimited
    0x2008 fpeUnit 18 [u8 16 (satInc 7 before)]
  if s.fpe.isRunning && decide (before < s.fpe.lateMax) && decide (s.fpe.lateMax ≤ s.fpe.lateRun) then s.fpeHalt instant
  else s

/-- R509 the registers take the results of a completed tick. -/
def FpeS.commit (f : FpeS) (k : TickRun) : FpeS :=
  { f with
    tick := none
    srcShown := k.src
    qual := k.qual
    poseE := k.east
    poseN := k.north
    hdg := k.heading
    hdgI := k.heading2
    poseSpd := k.speed
    gamma := k.gamma
    jack := k.jack }

/-- R491 JACKKNIFE changes at a completed tick. -/
def State.noteJack (s : State) (k : TickRun) (before : Bool) : State :=
  if k.jack = before then s else s.fpeEvent 0x200A [u8 16 (b2n (!k.jack)), i16 18 k.gamma]

/-- R500, R506 a tick computation ends. -/
def State.tickDone (s : State) (k : TickRun) : State :=
  let s := s.noteSlack ((k.deadline : Int) - s.dtime) (k.deadline - k.instant) true
  let s := (s.onFpe (fun f => f.commit k)).noteJack k s.fpe.jack
  if k.deadline < s.dtime then (s.keepTips k).tickLate k.instant
  else
    let s := s.onFpe (fun f => { f with lateRun := 0 })
    if k.active && s.fpe.isRunning then
      let s := k.rows.foldl (fun s x => s.tickRow k x) s
      let owed := s.fpe.owed
      owed.foldl (fun s n => s.lastDelivery k.instant n) (s.onFpe (fun f => { f with owed := [] }))
    else s.keepTips k

/-! ### Ticks (R487, R504, R506) -/

/-- R504 a RUN completes at the first tick instant after it. -/
def State.runCompletes (s : State) (instant : Nat) : State :=
  match s.fpe.runAt with
  | some a => if a < instant then (s.onFpe (fun f => { f with runAt := none })).finish fpeUnit [0x32] stOk 0 0 else s
  | none => s

/-- R506 a tick's computation is due: it starts, or waits for the one in progress. -/
def State.tickDue (s : State) (instant : Nat) : State :=
  if s.fpe.tick.isSome then
    match s.fpe.wait with
    | none => s.onFpe (fun f => { f with wait := some instant })
    | some w => if w = instant then s else (s.tickLate w).onFpe (fun f => { f with wait := some instant })
  else s.startTick instant

/-- R487, R504 at a tick instant RUN completes, and 250 ns after it the computation starts. -/
def State.fpeTick (s : State) : State :=
  let instant := s.dtime / s.fpe.period * s.fpe.period
  if s.powered && s.fpeBound && !s.fpeFailed then
    let s := s.runCompletes instant
    if s.fpe.lastTick < instant ∧ instant + 250 ≤ s.dtime then s.tickDue instant else s
  else s

/-- R487, FPE_TICK. -/
def execFpeTick (t : Nat) (s : State) : Result := .next (s.at t).fpeTick

/-- R500, R506 the computation in progress ends, and the tick that waits starts or is skipped. -/
def State.fpeTickDone (s : State) : State :=
  match s.fpe.tick with
  | none => s
  | some k =>
    let s := s.tickDone k
    match s.fpe.wait with
    | none => s
    | some w =>
      let s := s.onFpe (fun f => { f with wait := none })
      if s.dtime < w + s.fpe.period then s.startTick w
      else (s.onFpe (fun f => { f with lastTick := w })).tickLate w

/-- R500, FPE_TICK_DONE. -/
def execFpeTickDone (t : Nat) (s : State) : Result :=
  let s := s.at t
  .next (if s.powered then s.fpeTickDone else s)

/-! ### Modes (R503 to R507) -/

/-- R504 FPE_MODE. -/
def fpeModeExec : Exec where
  check s _ d :=
    if d.byte 24 = 1 then
      match s.fpe.state with
      | .idle => firstFail [
          failIf s.fpe.enabled.isEmpty stBadState 0x0201,
          failIf s.fpe.listed.isEmpty stBadState 0x0202,
          failIf (!s.fpe.raster.ready) stBadState 0x0203,
          fpeInService s]
      | .stopping => firstFail [some (stBadState, 0x0204)]
      | .running => fpeInService s
    else fpeInService s
  run s _ d :=
    if d.byte 24 = 1 then
      if s.fpe.state = .idle then
        let s := s.onFpe (fun f => { f with
          rows := f.rows.map (fun r => { tip := r.tip })
          phiI := none
          owed := []
          runAt := some s.dtime
          raster := f.raster.empty })
        (s.fpeGoto .running 0, .hold none)
      else (s, .now stOk 0 0)
    else if s.fpe.state = .running then (s.fpeStop 0, .hold (some 5000000000))
    else (s, .now stOk 0 0)

/-- R504, FPE_MODE. -/
def execFpeMode (t : Nat) (q : SqRef) (s : State) : Result := .next (s.runDesc t q 0x32 0 fpeModeExec)

/-- R505 the longest L_OFF of the enabled records, ns. -/
def FpeS.longestOff (f : FpeS) : Nat := (f.enabled.map (fun n => f.geo[n].lOff)).foldl max 0 * 1000000

/-- R505, R535 the end of STOPPING: the raster is written back and the FPE enters IDLE. -/
def State.fpeStopDone (s : State) (host : List (BitVec 2048)) (fail : Option RasFail) : State :=
  let (s, _, _) := if s.fpe.raster.paused.isSome && s.fpe.raster.ready then s.rasterResume host fail else (s, 0, true)
  let (s, _, _) := if s.fpe.raster.ready then s.writeLines (if s.fpe.raster.paused.isSome then none else fail) s.fpe.raster.dirty 0
    else (s, 0, true)
  let s := s.onFpe (fun f => { f with
    owed := []
    runAt := none
    rows := f.rows.map (fun r => { r with on := false, apply := false }) })
  (s.fpeGoto .idle s.fpe.stopCause).finish fpeUnit [0x32] stOk 0 0

/-- R505, FPE_STOP_DONE: L_OFF has passed, or the power fails (R719). -/
def execFpeStopDone (t : Nat) (host : List (BitVec 2048)) (fail : Option RasFail) (s : State) : Result :=
  let s := s.at t
  .next (if s.powered && s.fpe.state == .stopping &&
      (s.dev.phase == .powerFail || decide (s.fpe.stopAt + s.fpe.longestOff ≤ s.dtime)) then
    s.fpeStopDone host fail else s)

/-- R507 the owner's port goes down with DOWN_ACT = 1. -/
def State.fpePortDown (s : State) (p : PortId) (stop : Bool) : State :=
  if s.ownerOf fpeUnit = some p ∧ stop = true then s.fpeStop 2 else s

/-- R503, R544 a chameleon change of the FPE. -/
def State.fpeRebind (s : State) : State :=
  s.onFpe fun f => { f with
    state := .idle, tick := none, wait := none, runAt := none, geoWait := none, owed := [], raster := f.raster.rebind }

/-! ### FPE_GEOMETRY (R493, R494) -/

/-- R494 a channel record. -/
def geoRec (bs : List Byte) : GeoRec :=
  let off := if bodyNum bs 19 1 = 0 then 1 else min 100 (bodyNum bs 19 1)
  let flags := bodyNum bs 15 1
  { x := bodyInt bs 0
    y := bodyInt bs 4
    width := bodyNum bs 8 2
    lOn := min 2000 (bodyNum bs 10 2)
    lOff := min 2000 (bodyNum bs 12 2)
    forced := min 2 (bodyNum bs 14 1)
    enable := flags.testBit 0
    mark := flags.testBit 1
    epoch := bodyNum bs 16 2
    onThr := if off ≤ min 100 (bodyNum bs 18 1) then off - 1 else min 100 (bodyNum bs 18 1)
    offThr := off
    told := false }

/-- R493 the records of a buffer. -/
def geoRecs : Nat → List Byte → List GeoRec
  | 0, _ => []
  | n + 1, bs => geoRec (bs.take 32) :: geoRecs n (bs.drop 32)

/-- R493 FPE_GEOMETRY: it completes at the first tick computation that starts after it. -/
def fpeGeometryExec (buf : Buf) : Exec where
  check s _ d := firstFail [
    failIf (128 < d.byte 24 + d.length / 32) stLenRange (if 127 < d.byte 24 then 0 else (128 - d.byte 24) * 32),
    fpeInService s]
  run := withBuf buf fun bs s _ d =>
    let impl : Option Impl :=
      if (d.byte 25).testBit 0 then
        some { trailed := d.byte 28 == 1, hx := toSigned 32 (d.num 32 4), hy := toSigned 32 (d.num 36 4),
               tongue := clampNat 500 50000 (d.num 40 4) }
      else none
    (s.onFpe (fun f => { f with geoWait := some { first := d.byte 24, recs := geoRecs (d.length / 32) bs, impl := impl } }),
      .hold none)

/-- R493, FPE_GEOMETRY. -/
def execFpeGeometry (t : Nat) (q : SqRef) (buf : Buf) (s : State) : Result :=
  .next (s.runDesc t q 0x31 (bufSize buf) (fpeGeometryExec buf))

/-! ### Registers (R508 to R513) -/

/-- R508 to R512 a write of one of the FPE's own registers. -/
def State.writeFpe (s : State) (off : Nat) (v : Word) : State :=
  let port (p : Fin 2) : State := s.onFpe fun f =>
    let mask : Word := if f.state == .idle then 0xE0007FFF#32 else 0x80007FFF#32
    let cfg := merge f.ports[p].cfg v mask
    { f with ports := f.ports.set p { f.ports[p] with
      cfg := cfg, lbAt := if fld cfg 30 29 = 0 then none else f.ports[p].lbAt } }
  match off with
  | 0x000 => s.onFpe (fun f => { f with
      ctrl := merge f.ctrl v (if f.isRunning then 0x073FF000#32 else 0x073FFFFF#32) })
  | 0x004 => s.onFpe (fun f => { f with srcCfg := v &&& 0xFCFFFFFF#32 })
  | 0x008 => port 0
  | 0x00C => port 1
  | _ => if 0x100 ≤ off then s.writeRaster off v else s

/-- Word `k` of a bit per channel. -/
def channelBits (k : Nat) (f : ChanId → Bool) : Word :=
  (List.finRange 128).foldl (fun w (n : ChanId) =>
    if n.val / 32 = k ∧ f n = true then w ||| BitVec.twoPow 32 (n.val % 32) else w) 0

/-- R509 to R513 a read of a register of the FPE block. -/
def FpeS.read (f : FpeS) (off : Nat) : Word :=
  if 0x100 ≤ off then f.raster.read off
  else match off with
  | 0x000 => f.ctrl
  | 0x004 => f.srcCfg
  | 0x008 => f.ports[0].cfg
  | 0x00C => f.ports[1].cfg
  | 0x010 => pack [(30, 2, f.state.num), (29, 1, b2n f.pose), (26, 2, f.srcShown), (24, 2, f.qual), (21, 3, f.lateRun),
      (20, 1, b2n f.jack), (19, 1, b2n f.impl.trailed), (0, 16, signedBits 16 f.gamma)]
  | 0x014 => pack [(16, 16, f.ports[1].frameErr), (0, 16, f.ports[0].frameErr)]
  | 0x018 => pack [(0, 16, f.fixReject)]
  | 0x01C => pack [(0, 16, f.tickLate)]
  | 0x020 => BitVec.ofInt 32 f.poseE
  | 0x024 => BitVec.ofInt 32 f.poseN
  | 0x028 => pack [(16, 16, f.hdgI), (0, 16, f.hdg)]
  | 0x02C => BitVec.ofInt 32 f.poseSpd
  | 0x030 => channelBits 0 (fun n => f.rows[n].on)
  | 0x034 => channelBits 1 (fun n => f.rows[n].on)
  | 0x038 => channelBits 2 (fun n => f.rows[n].on)
  | 0x03C => channelBits 3 (fun n => f.rows[n].on)
  | 0x040 => channelBits 0 (fun n => f.rows[n].apply)
  | 0x044 => channelBits 1 (fun n => f.rows[n].apply)
  | 0x048 => channelBits 2 (fun n => f.rows[n].apply)
  | 0x04C => channelBits 3 (fun n => f.rows[n].apply)
  | 0x050 => pack [(16, 16, f.ports[1].lbCnt), (0, 16, f.ports[0].lbCnt)]
  | _ => 0

end Sys2Proof.Machine
end

