-- ==== Sys2Proof/Machine/Recorder.lean ====
section
/-! DEFINITION. The event recorder: records, its ring, its media, host access (chapter 17). -/
namespace Sys2Proof.Machine

/-- The recorder changed. -/
def State.onRec (s : State) (f : RecS → RecS) : State := { s with recorder := f s.recorder }

/-! ### Records and slots (R657, R658, R664 to R667) -/

/-- R657, R658 the 32 bytes of a record written with a LAP. -/
def Rec.bytes (x : Rec) (lap : Nat) : List Byte :=
  let head := leBytes 2 x.code ++ leBytes 2 x.unit ++ leBytes 2 x.epoch ++
    [BitVec.ofNat 8 (b2n x.kind + 2 * b2n x.calValid + 4 * (x.port % 4) + 64 * (lap % 4))]
  let body := leBytes 8 x.stamp ++ dataBytes x.data 16 27
  head ++ [0x5A] ++ body ++ leBytes 4 (crc32c (head ++ body))

/-- R657 MARK of a slot's bytes. -/
def slotMark (bs : List Byte) : Nat := (bs.getD 7 0).toNat
/-- R657 LAP of a slot's bytes. -/
def slotLap (bs : List Byte) : Nat := (bs.getD 6 0).toNat / 64
/-- R658 CHECK of a slot's bytes is right. -/
def slotCheck (bs : List Byte) : Bool :=
  crc32c (bs.take 7 ++ (bs.drop 8).take 20) == ofBytes ((bs.drop 28).take 4)
/-- R658 a slot is valid. -/
def slotValid (bs : List Byte) : Bool := slotMark bs == 0x5A && slotCheck bs

/-- The slots of the ring in use that are written. -/
def RecS.slots (r : RecS) : List (Nat × List Byte) := if r.extended then r.s0 else r.store

/-- R665, R666 the bytes of a slot: never written reads 0 in the internal store, 0xFF on S0. -/
def RecS.slotBytes (r : RecS) (k : Nat) : List Byte :=
  (slotGet r.slots k).getD (List.replicate 32 (if r.extended then 0xFF else 0))

/-- The slots of the ring in use replaced. -/
def RecS.setSlots (r : RecS) (m : List (Nat × List Byte)) : RecS :=
  if r.extended then { r with s0 := m } else { r with store := m }

/-- R667 OLDEST: the first valid slot in ring order from NEXT; 0 in an empty ring. -/
def RecS.findOldest (r : RecS) : Nat :=
  let dist (k : Nat) : Nat := (k + r.capacity - r.next) % r.capacity
  match r.slots.filter (fun x => decide (x.1 < r.capacity) && slotValid x.2) with
  | [] => 0
  | x :: xs => xs.foldl (fun (k : Nat) y => if dist y.1 < dist k then y.1 else k) x.1

/-- R667 the first slot from `k` on whose LAP differs from `l0`. -/
def firstOther (l0 : Nat) : Nat → List (Nat × List Byte) → Nat
  | k, [] => k
  | k, (a, bs) :: rest => if a = k ∧ slotLap bs = l0 then firstOther l0 (k + 1) rest else k

/-- R667 the ring located: NEXT, LAP and OLDEST. -/
def RecS.locate (r : RecS) : RecS :=
  let r := match r.slots with
    | (0, bs) :: rest =>
      if slotValid bs then
        let l0 := slotLap bs
        let k := firstOther l0 1 rest
        if k < r.capacity then { r with next := k, lap := l0 } else { r with next := 0, lap := 3 - l0 }
      else { r with next := 0, lap := 1 }
    | _ => { r with next := 0, lap := 1 }
  { r with oldest := r.findOldest }

/-- R666 the 4 KiB block of a slot. -/
def blockOf (slot : Nat) : Nat := slot / 128

/-- R666 the slots of a block erased. -/
def eraseBlock (m : List (Nat × List Byte)) (b : Nat) : List (Nat × List Byte) := m.filter (fun x => blockOf x.1 != b)

/-- R664 to R667 a record put into the slot at NEXT. -/
def RecS.put (r : RecS) (x : Rec) : RecS :=
  let r := r.setSlots (slotSet r.next (some (x.bytes r.lap)) r.slots)
  let k := r.next + 1
  let r := { r with
    next := if k < r.capacity then k else 0
    lap := if k < r.capacity then r.lap else 3 - r.lap
    written := (r.written + 1) % 2 ^ 32 }
  let r := if r.extended && r.next % 128 == 0 then
      { r with erasing := r.erasing ++ [(blockOf r.next + 2) % (r.capacity / 128)] } else r
  { r with oldest := r.findOldest }

/-! ### Writing (R660, R665, R668, R671) -/

/-- R671 REC_MEDIA_ERR, to the administrator port. -/
def State.mediaEvent (s : State) (err addr : Nat) : State :=
  s.raisePort s.admin 0x0050 recUnit s.dtime ([u8 16 err] ++ (if err = 4 then [u32 20 addr] else []))

/-- R673 the REC_MARK that waits for a record completes. -/
def State.markDone (s : State) (x : Rec) (status detail result : Nat) : State :=
  match x.mark with
  | some q => s.finishAt recUnit [0x61] status detail result q
  | none => s

/-- R673 a ring no longer waits for its record. -/
def State.forgetMark (s : State) (q : SqRef) : State :=
  s.onRec fun r => { r with queue := r.queue.map (fun x => if x.mark == some q then { x with mark := none } else x) }

/-- R671 the S0 medium has failed at an address: the records that wait are lost with every later one. -/
def State.mediaFails (s : State) (addr : Nat) : State :=
  let q := s.recorder.queue
  let s := s.onRec fun r => { r with
    queue := [], mediaErr := 4, ready := false, erasing := [], lost := min 65535 (r.lost + q.length) }
  (q.foldl (fun s x => s.markDone x stBadState 0x0412 0) s).mediaEvent 4 addr

/-- R660 the record at the head of the queue may be written: it owes no global token, or one is present, or the queue is
being drained (R668, R713). -/
def State.mayWrite (s : State) (x : Rec) : Bool :=
  !x.owes || s.recorder.draining || s.recorder.closed || decide (oneToken ≤ s.recorder.globalLevel s.dtime)

/-- R665, RECORD_WRITE: the next queued record goes to its slot, or (extended configuration) its program fails. -/
def State.recordWrite (s : State) (ok : Bool) : State :=
  let r := s.recorder
  match r.queue with
  | [] => s
  | x :: rest =>
    if !r.ready || !s.mayWrite x then s
    else if r.extended && !ok then s.mediaFails (32 * r.next)
    else
      let pays := x.owes && decide (oneToken ≤ r.globalLevel s.dtime)
      let s := s.onRec fun r => ({ (if pays then r.takeGlobal s.dtime else r) with queue := rest }).put x
      s.markDone x stOk 0 r.next

/-- A command of a unit that runs for as long as the main supply lasts (R668). -/
def State.lastCmd (s : State) (t : Nat) (f : State → State) : Result :=
  let s := s.at t
  .next (if s.supplied then f s else s)

/-- R665, RECORD_WRITE. -/
def execRecordWrite (t : Nat) (ok : Bool) (s : State) : Result := s.lastCmd t fun s => s.recordWrite ok

/-- R666, R671, BLOCK_ERASE_DONE. -/
def execBlockEraseDone (t : Nat) (ok : Bool) (s : State) : Result :=
  s.lastCmd t fun s =>
    match s.recorder.erasing with
    | b :: rest =>
      if ok then s.onRec fun r => { r with erasing := rest, s0 := eraseBlock r.s0 b } else s.mediaFails (4096 * b)
    | [] => s

/-- R661 one SUPPRESSED record queued. -/
def State.queueSuppressed (s : State) (x : Suppr) : State :=
  let (s, ok) := s.queueOwn (s.recOf false 0x0040 recUnit 0 s.dtime 0
    [u16 16 x.code, u16 18 x.unit, u32 20 x.count, u32 24 x.first])
  if ok then s.onRec fun r => { r with supprs := r.supprs.filter (fun y => y.code != x.code) } else s

/-- R661, SUPPRESSED: at a whole second of DTIME, once. -/
def execSuppressed (t : Nat) (s : State) : Result :=
  s.lastCmd t fun s =>
    if s.dtime % 1000000000 = 0 ∧ s.recorder.supprAt ≠ some (second s.dtime) then
      (s.recorder.supprs.take 32).foldl State.queueSuppressed
        (s.onRec fun r => { r with supprAt := some (second s.dtime) })
    else s

/-- R662, GAP: queued once space has returned after a loss. -/
def execGap (t : Nat) (s : State) : Result :=
  s.lastCmd t fun s =>
    let r := s.recorder
    if r.lostSince = 0 ∨ 256 ≤ r.queue.length ∨ r.mediaErr = 4 ∨ r.closed = true then s
    else s.onRec fun r => { r with queue := r.queue ++ [s.gapNow], lostSince := 0 }

/-! ### Start (R663, R671) -/

/-- R671 what is wrong with an S0 medium: 0 nothing. -/
def mediumErr (m : Medium) : Nat := if m.err ≠ 0 then min m.err 3 else if m.log2 < 24 then 2 else 0

/-- R663 to R667, R671, R707 step 6: the recorder as a start leaves it, its STARTED queued. -/
def State.recStart (s : State) (s0 : Medium) : State :=
  let failed := s.dev.sharedFail.getLsbD 4
  let want := s.dev.recCfg && s.dev.variantAc == false && !s.dev.sharedFail.getLsbD 5
  let err := if want then mediumErr s0 else 0
  let ext := want && err == 0
  let s := s.onRec fun r => { r with
    extended := ext
    mediaErr := err
    capacity := if ext then 2 ^ (min s0.log2 30) / 32 else 65536
    ready := !failed }
  let s := s.onRec RecS.locate
  let s := if ext then s.onRec fun r =>
      let n := r.capacity / 128
      { r with s0 := eraseBlock (eraseBlock r.s0 ((blockOf r.next + 1) % n)) ((blockOf r.next + 2) % n) } else s
  let (s, _) := s.queueOwn (s.recOf false 0x0043 recUnit 0 s.dtime 0
    [u8 16 (b2n s.dev.full), u8 17 (b2n ext), u32 20 s.recorder.next])
  if err = 0 then s else s.mediaEvent err 0

/-! ### Host access (R672, R673) -/

/-- R672 REC_READ. -/
def recReadExec (stored : Bool) : Exec where
  check s _ d := firstFail [
    failIf (s.recorder.capacity ≤ d.num 24 4) stBadState 0x0411,
    failIf (!s.recorder.ready) stBadState 0x0412]
  run s p d :=
    let r := s.recorder
    let slots := (List.range (d.length / 32)).map fun k => r.slotBytes ((d.num 24 4 + k) % r.capacity)
    let good := (slots.filter slotValid).length
    let bad := (slots.filter (fun bs => slotMark bs == 0x5A && !slotCheck bs)).length
    if stored then (s.emit p d.length (.buffer p d.bufAddr slots.flatten), .now stOk 0 (good + 65536 * bad))
    else (s, .now stDma 2 0)

/-- R672, REC_READ. -/
def execRecRead (t : Nat) (q : SqRef) (stored : Bool) (s : State) : Result :=
  .next (s.runDesc t q 0x60 0 (recReadExec stored))

/-- R657, R673 the record of 16 mark bytes. -/
def State.markRec (s : State) (p : PortId) (q : SqRef) (bs : List Byte) : Rec :=
  let num (i n : Nat) : Nat := ofBytes ((bs.drop i).take n)
  { s.recOf false 0x0041 (num 0 2) (num 2 2) s.dtime p [u64 16 (num 4 8), u32 24 (num 12 4)] with mark := some q }

/-- R673 REC_MARK of ring `q`. -/
def recMarkExec (q : SqRef) (buf : Buf) : Exec where
  check s _ _ := failIf (256 ≤ s.recorder.queue.length) stBusy 1
  run s p d :=
    let mark (bs : List Byte) : State × Ending :=
      if !s.recorder.ready then (s.onRec RecS.lose, .now stBadState 0x0412 0)
      else ((s.queueOwn (s.markRec p q bs)).1, .hold none)
    if d.length = 0 then mark (d.param.take 16)
    else match buf with
      | .arrived bs => mark ((bs.take d.length) ++ List.replicate (16 - d.length) 0)
      | .failed => (s, .now stDma 1 0)

/-- R673, REC_MARK. -/
def execRecMark (t : Nat) (q : SqRef) (buf : Buf) (s : State) : Result :=
  .next (s.runDesc t q 0x61 (bufSize buf) (recMarkExec q buf))

/-! ### Registers (R677, R678) -/

/-- R677, R678 a word of the REC block, at an offset from 0x05_0000. -/
def RecS.read (r : RecS) (off : Nat) : Word :=
  match off with
  | 0x00 => pack [(31, 1, b2n r.ready), (30, 1, b2n r.extended), (27, 3, r.mediaErr), (9, 2, r.lap), (0, 9, r.queue.length)]
  | 0x04 => r.limit
  | 0x08 => BitVec.ofNat 32 r.capacity
  | 0x0C => BitVec.ofNat 32 r.next
  | 0x10 => BitVec.ofNat 32 r.oldest
  | 0x14 => BitVec.ofNat 32 r.lost
  | 0x18 => BitVec.ofNat 32 r.suppr
  | 0x1C => BitVec.ofNat 32 r.written
  | _ => 0

/-- R660, R677 REC.LIMIT written at DTIME `t`: every bucket goes on from the level it has reached. -/
def RecS.writeLimit (r : RecS) (t : Nat) (v : Word) : RecS :=
  { r with
    limit := merge r.limit v 0x03FF00FF#32
    buckets := r.buckets.map (fun b => { b with level := r.refill b.level b.stamp t, stamp := t })
    spare := r.refill r.spare r.spareAt t
    spareAt := t }

end Sys2Proof.Machine
end

