-- ==== Sys2Proof/Machine/Hostif.lean ====
section
/-! DEFINITION. The host interface (chapter 02): NOP, BIND and UNBIND, doorbells, descriptor fetches, held completions,
deadlines, creating and disabling rings, and ports that go down, come up and are reset. -/
namespace Sys2Proof.Machine

/-! ### NOP, BIND and UNBIND (R82 to R87) -/

/-- R110 NOP. -/
def nopExec : Exec where
  check := noCheck
  run s _ _ := (s, .now stOk 0 0)

/-- R110, NOP. -/
def execNop (t : Nat) (q : SqRef) (s : State) : Result := .next (s.runDesc t q 0x01 0 nopExec)

/-- R85 the states of a channel in which it may change its owner. -/
def ChCode.bindOk (c : ChCode) : Bool :=
  match c with
  | .off => true
  | .ready => true
  | .unplugged => true
  | .wrongMotor => true
  | .locked => true
  | _ => false

/-- R85, R503 check 5 of BIND and UNBIND. -/
def bindCheck (s : State) (_ : PortId) (d : Desc) : Option Fail :=
  match unitIs d.unit with
  | some (.channel n) => inStates ChCode.bindOk s n
  | some .fpe => failIf (s.fpe.state != .idle) stBadState s.fpe.state.num
  | _ => none

/-- R82. -/
def nextEpoch (e : Nat) : Nat := if e < 65535 then e + 1 else 1

/-- R86, R139, R402, R503 what a chameleon change does to the unit itself. -/
def State.rebindUnit (s : State) (u : Nat) : State :=
  match unitIs u with
  | some (.channel n) => s.chan n ChR.rebind
  | some (.can k) => s.canRebind k
  | some .fpe => s.fpeRebind
  | _ => s

/-- R82 to R84 the unit-table entry of a unit replaced. -/
def State.setUnit (s : State) (u : Nat) (x : UnitS) : State :=
  match unitIndex u with
  | some i => { s with units := s.units.set i x }
  | none => s

/-- R87 the events of a chameleon change from `old` to `new`; that an UNBIND of a unit without an owner raises none is the
model's choice (log 120). -/
def State.changeEvents (s : State) (u : Nat) (old new : UnitS) : State :=
  let tell (s : State) (code : Nat) (x : UnitS) : State :=
    match x.owner with
    | some p => s.raiseTo [p] { code := code, unit := u, epoch := x.epoch, stamp := s.dtime, data := [u8 16 p, u8 17 x.role] }
    | none => s
  tell (tell s 0x6011 old) 0x6010 new

/-- R82 to R87 a chameleon change. -/
def State.chameleon (s : State) (u : Nat) (owner : Option PortId) (role : Nat) : State × Ending :=
  let old := s.unitOf u
  let new : UnitS := { owner := owner, epoch := nextEpoch old.epoch, role := role }
  (((s.rebindUnit u).setUnit u new).changeEvents u old new, .now stOk 0 new.epoch)

/-- R83 BIND. -/
def bindExec : Exec where
  check := bindCheck
  run s _ d := s.chameleon d.unit (some ⟨d.byte 24 % 4, Nat.mod_lt _ (by decide)⟩) (d.byte 25)

/-- R83, BIND. -/
def execBind (t : Nat) (q : SqRef) (s : State) : Result := .next (s.runDesc t q 0x02 0 bindExec)

/-- R84 UNBIND. -/
def unbindExec : Exec where
  check := bindCheck
  run s _ d := s.chameleon d.unit none 0

/-- R84, UNBIND. -/
def execUnbind (t : Nat) (q : SqRef) (s : State) : Result := .next (s.runDesc t q 0x03 0 unbindExec)

/-! ### Requests of the hosts -/

/-- A request of a host reaches the device: its port is up, and the power-fail path has not stopped the units. -/
def State.busUp (s : State) (p : PortId) : Bool := s.portUp p && s.powered

/-- R739 one BAR request of a port. -/
def State.countMmio (s : State) (p : PortId) : State :=
  s.onPort p fun x => { x with live := { x.live with mmio := wrap48 x.live.mmio 1 } }

/-- A BAR request of port `p` at DTIME `t`, counted; nothing but time passes while the port does not answer. -/
def State.barCmd (s : State) (t : Nat) (p : PortId) (f : State → State) : Result :=
  let s := s.at t
  .next (if s.busUp p then f (s.countMmio p) else s)

/-- A command of the ring engine of port `p` at DTIME `t`. -/
def State.ringCmd (s : State) (t : Nat) (p : PortId) (f : State → State) : Result :=
  let s := s.at t
  .next (if s.busUp p then f s else s)

/-! ### Doorbells (R72, R73, R97 to R100) -/

/-- R69, R73 a doorbell write dropped and counted. -/
def State.dropDoorbell (s : State) (p : PortId) : State :=
  s.onPort p fun x => { x with dbErr := satInc 65535 x.dbErr }

/-- R98 a doorbell write out of range; that the event goes to the port that rang the doorbell is the model's choice (log
119). -/
def State.badDoorbell (s : State) (p : PortId) (off index : Nat) : State :=
  (s.dropDoorbell p).raisePort p 0x6001 devUnit s.dtime [u16 16 off, u16 18 index]

/-- R97 the tail of a submission ring. -/
def State.sqTail (s : State) (p : PortId) (n : Fin 32) (i : Nat) : State :=
  let r := s.ports[p].sqs[n]
  if r.enabled && decide (i < ringSize r.cfg) then
    s.onPort p fun x => { x with sqs := x.sqs.set n { r with tail := i } }
  else s.badDoorbell p (8 * n.val) i

/-- R100, R119 the head of a completion ring. -/
def State.cqHead (s : State) (p : PortId) (c : Fin 32) (i : Nat) : State :=
  let r := s.ports[p].cqs[c]
  if r.enabled && decide (i < ringSize r.cfg) then
    ((s.onPort p fun x => { x with cqs := x.cqs.set c (r.release i) }).settlePba p (vectorNo (fld r.cfg 21 16))).irqCq p c
  else s.badDoorbell p (0x100 + 8 * c.val) i

/-- R100, R120 the head of the event ring. -/
def State.eqHead (s : State) (p : PortId) (i : Nat) : State :=
  let r := s.ports[p].eq
  if r.enabled && decide (i < ringSize r.cfg) then
    ((s.onPort p fun x => { x with eq := r.release i }).settlePba p (vectorNo (fld r.cfg 21 16))).irqEq p
  else s.badDoorbell p 0x200 i

/-- R72, R73 a write to BAR2. -/
def State.doorbell (s : State) (p : PortId) (off : Nat) (v : Word) : State :=
  let i := fld v 15 0
  let n : Fin 32 := ⟨off / 8 % 32, Nat.mod_lt _ (by decide)⟩
  if off % 8 ≠ 0 then s.dropDoorbell p
  else if off < 0x100 then s.sqTail p n i
  else if off < 0x200 then s.cqHead p n i
  else if off = 0x200 then s.eqHead p i
  else s.dropDoorbell p

/-- R97, SQ_TAIL_DOORBELL: a write to BAR2 at `off`. -/
def execSqTailDoorbell (t : Nat) (port : PortId) (off : Nat) (value : Word) (s : State) : Result :=
  s.barCmd t port fun s => s.doorbell port off value

/-- R100, CQ_HEAD_DOORBELL. -/
def execCqHeadDoorbell (t : Nat) (port : PortId) (cq : Fin 32) (value : Word) (s : State) : Result :=
  s.barCmd t port fun s => s.doorbell port (0x100 + 8 * cq.val) value

/-- R100, EQ_HEAD_DOORBELL. -/
def execEqHeadDoorbell (t : Nat) (port : PortId) (value : Word) (s : State) : Result :=
  s.barCmd t port fun s => s.doorbell port 0x200 value

/-! ### Fetches (R68, R97, R122) -/

/-- R97 descriptors announced and not fetched. -/
def Sq.waiting (r : Sq) : Nat := (r.tail + ringSize r.cfg - r.head) % ringSize r.cfg

/-- R122, R123, R128 RING_FAULT: ring kind 0 to 2, ring number, AER bit, which the port's AER status records. That a
submission ring's fault is reported to the ring's own port is the model's choice (log 121). -/
def State.ringFault (s : State) (p : PortId) (kind n aer : Nat) : State :=
  (s.onPort p fun x => { x with aer := x.aer ||| BitVec.ofNat 32 (2 ^ aer) }).raisePort p 0x6030 devUnit s.dtime [u8 16 kind, u8 17 n, u8 18 aer]

/-- R122 descriptor fetches of a ring stop. -/
def State.sqFault (s : State) (q : SqRef) (aer : Nat) : State :=
  (s.onSq q fun y => { y with err := 5 }).ringFault q.port 0 q.sq.val aer

/-- R89 entries as they arrive: each takes its index, its arrival stamp and its place in the order of fetches. -/
def arrivals (size index stamp seq : Nat) : List RingEntry → List Fetched
  | [] => []
  | e :: es => { desc := Desc.ofEntry e, index := index, stamp := stamp, seq := seq } ::
    arrivals size ((index + 1) % size) stamp (seq + 1) es

/-- R97 the entries that one read request may bring: up to 8, none at or beyond the tail, none past the end of the ring. -/
def Sq.batch (r : Sq) : Nat := min 8 (min r.waiting (ringSize r.cfg - r.head))

/-- R96 the host address of the next entry to fetch. -/
def Sq.headAddr (r : Sq) : Nat := hostAddr r.baseLo r.baseHi + 64 * r.head

/-- R68 the descriptors of one read request arrive. -/
def State.fetched (s : State) (q : SqRef) (es : List RingEntry) : State :=
  let r := s.sqAt q
  let size := ringSize r.cfg
  let ds := es.take r.batch
  let s := { s.request q.port .entries r.headAddr (64 * ds.length) with fetchSeq := s.fetchSeq + ds.length }
  (s.onSq q fun y => { y with
    head := (y.head + ds.length) % size
    fetched := y.fetched ++ arrivals size y.head s.dtime (s.fetchSeq - ds.length) ds }).countRd q.port (64 * ds.length)

/-- R68, R122, DESCRIPTOR_FETCH. -/
def execDescriptorFetch (t : Nat) (q : SqRef) (got : Fetch) (s : State) : Result :=
  s.ringCmd t q.port fun s =>
    let r := s.sqAt q
    if !r.enabled || r.err == 5 || r.waiting == 0 then s
    else match got with
      | .arrived es => s.fetched q es
      | .failed aer => (s.request q.port .entries r.headAddr (64 * r.batch)).sqFault q aer

/-! ### Held completions and lost events (R101, R102, R119, R122) -/

/-- R122 completions of the rings that name completion ring `c` and still wait for an entry are lost. -/
def State.dropStalled (s : State) (p : PortId) (c : Fin 32) : State :=
  s.onPort p fun x => { x with sqs := x.sqs.map fun r => if r.cqId == c then { r with stalled := [] } else r }

/-- R122 a write to a completion ring has failed. -/
def State.cqFault (s : State) (p : PortId) (c : Fin 32) (aer : Nat) : State :=
  let s := (s.onPort p fun x => { x with cqs := x.cqs.set c (x.cqs[c]).fault }).dropStalled p c
  (s.settleHold p).ringFault p 1 c.val aer

/-- R101 the oldest held completion of a ring is written when an entry is free. -/
def State.resume (s : State) (q : SqRef) : State :=
  let r := s.sqAt q
  let c := s.ports[q.port].cqs[r.cqId]
  match r.stalled with
  | x :: rest =>
    if c.usable && c.hasSpace then
      ((s.onSq q fun y => { y with stalled := rest }).writeCompletion q.port r.cqId x).settleHold q.port
    else s
  | [] => s

/-- R101, R122, COMPLETION_RESUME: a held completion is written, or a write to the completion ring of `q` has failed. -/
def execCompletionResume (t : Nat) (q : SqRef) (fail : Option Nat) (s : State) : Result :=
  s.ringCmd t q.port fun s =>
    match fail with
    | none => s.resume q
    | some aer =>
      let c := (s.sqAt q).cqId
      if s.ports[q.port].cqs[c].usable then s.cqFault q.port c aer else s

/-- R122 a write to the event ring has failed; RING_FAULT itself is lost under R102. -/
def State.eqFault (s : State) (p : PortId) (aer : Nat) : State :=
  (s.onPort p fun x => { x with eq := x.eq.fault }).ringFault p 2 0 aer

/-- R102, R122, EVENTS_LOST: space has returned in the event ring, or a write to it has failed. -/
def execEventsLost (t : Nat) (port : PortId) (fail : Option Nat) (s : State) : Result :=
  s.ringCmd t port fun s =>
    match fail with
    | none => s.flushLost port
    | some aer => if s.ports[port].eq.usable then s.eqFault port aer else s

/-- R119, COAL_TIMEOUT. -/
def execCoalTimeout (t : Nat) (port : PortId) (cq : Fin 32) (s : State) : Result :=
  s.ringCmd t port fun s => s.irqCq port cq

/-! ### Deadlines (R116) -/

/-- R116, R124, R400 a host's PSM transfer ends after the chunks it has made (log 125). -/
def State.forgetPsm (s : State) (unit : Nat) : State :=
  match unitIs unit with
  | some (.channel n) => s.onChan n fun r => r.nle fun e => { e with job := none }
  | _ => s

/-- R400, R401, R566, R673 the operation that a held descriptor waits for, unless it has ended, goes on without it. -/
def State.forgetHeld (s : State) (q : SqRef) (h : Held) : State :=
  if h.late then s
  else match h.opcode with
  | 0x23 => match unitIs h.unit with
    | some (.channel n) => s.onChan n fun r => r.nle fun e => { e with
        orphans := e.orphans + b2n (e.run.any (fun u => u.entry == .host) || e.pend[3].isSome) }
    | _ => s
  | 0x21 => s.forgetPsm h.unit
  | 0x22 => s.forgetPsm h.unit
  | 0x40 => s.forgetWaiter q
  | 0x61 => s.forgetMark q
  | _ => s

/-- R61, R62, R116, DESCRIPTOR_TIMEOUT: no earlier than 250 ns after the deadline, which is the completion's STAMP. R62 has a
timeout carry the deadline stamp and R107 the DTIME of the decision: taking R62 is the model's choice (log 122). -/
def execDescriptorTimeout (t : Nat) (q : SqRef) (s : State) : Result :=
  s.ringCmd t q.port fun s =>
    match (s.sqAt q).held with
    | some h =>
      match h.deadline with
      | some d => if timedOut d s.dtime then (s.forgetHeld q h).finishHeld q h d stTimeout 0 0 else s
      | none => s
    | none => s

/-! ### Creating and disabling rings (R92 to R95, R103, R104) -/

/-- R92 the writable fields of SQ[s].CFG besides ENABLE. -/
def sqCfgMask : Word := 0x00001F1F#32

/-- R94 a submission ring is created, or ERR says why not. -/
def State.sqCreate (s : State) (q : SqRef) (v : Word) : State :=
  s.onPort q.port fun x =>
    let r := { x.sqs[q.sq] with cfg := v &&& sqCfgMask }
    let c : Fin 32 := ⟨fld v 12 8 % 32, Nat.mod_lt _ (by decide)⟩
    let e := if ringErr r.cfg r.baseLo ≠ 0 then ringErr r.cfg r.baseLo else if x.cqs[c].enabled then 0 else 3
    let r := if e = 0 then { r with enabled := true, err := 0, head := 0, tail := 0, fetched := [], cq := c } else { r with err := e }
    { x with sqs := x.sqs.set q.sq r }

/-- R103, R117 one aborted descriptor: it completes behind the held one of its ring where there is one. -/
def State.abortOne (s : State) (q : SqRef) (cfg : Word) (f : Fetched) : State :=
  let c := f.completion q cfg s.dtime stAborted 0 0
  if (s.sqAt q).held.isSome then s.onSq q fun y => { y with behind := y.behind ++ [c] } else s.complete q c

/-- R103, R96 the reads of the `n` entries from the head on: up to the end of the ring, and from its base. -/
def State.readRest (s : State) (q : SqRef) (n : Nat) : State :=
  let r := s.sqAt q
  let first := min n (ringSize r.cfg - r.head)
  let s := if first = 0 then s else s.request q.port .entries r.headAddr (64 * first)
  if n = first then s else s.request q.port .entries (hostAddr r.baseLo r.baseHi) (64 * (n - first))

/-- R103 a submission ring is disabled; `got` brings the descriptors that were announced and not fetched. -/
def State.sqDisable (s : State) (q : SqRef) (got : Fetch) : State :=
  let r := s.sqAt q
  let n := if r.err == 5 then 0 else r.waiting
  let late := match got with
    | .arrived es => arrivals (ringSize r.cfg) r.head s.dtime s.fetchSeq (es.take n)
    | .failed _ => []
  let s := (s.readRest q n).onSq q fun y => { y with enabled := false, head := y.tail, fetched := [] }
  let s := (s.countRd q.port (64 * late.length))
  let s := (r.fetched ++ late).foldl (fun s f => s.abortOne q r.cfg f) { s with fetchSeq := s.fetchSeq + late.length }
  match got with
  | .failed aer => if n = 0 then s else s.sqFault q aer
  | .arrived _ => s

/-- R92 to R95, R103 a write of SQ[s].CFG. -/
def State.writeSqCfg (s : State) (q : SqRef) (v : Word) (got : Fetch) : State :=
  if (s.sqAt q).enabled then (if bitOf v 31 then s else s.sqDisable q got)
  else if bitOf v 31 then s.sqCreate q v
  else s.onSq q fun y => { y with cfg := v &&& sqCfgMask }

/-- R92 to R95, R104 a write of CQ[c].CFG. -/
def State.writeCqCfg (s : State) (p : PortId) (c : Fin 32) (v : Word) : State :=
  let r := s.ports[p].cqs[c]
  let off := r.enabled && !bitOf v 31
  let r' := if off && s.ports[p].sqs.toList.any (fun q => q.enabled && q.cqId == c) then { r with err := 4 } else r.writeCfg v
  let s := s.onPort p fun x => { x with cqs := x.cqs.set c r' }
  if off && !r'.enabled then (s.dropStalled p c).settleHold p else s

/-- R92 to R95 a write of the CFG of one ring. -/
def State.writeRingCfg (s : State) (p : PortId) (ring : RingRef) (v : Word) (got : Fetch) : State :=
  match ring with
  | .sq n => s.writeSqCfg { port := p, sq := n } v got
  | .cq c => s.writeCqCfg p c v
  | .eq => s.onPort p fun x => { x with eq := x.eq.writeCfg v }

/-- R94, RING_ENABLE. -/
def execRingEnable (t : Nat) (port : PortId) (ring : RingRef) (cfg : Word) (s : State) : Result :=
  s.barCmd t port fun s => s.writeRingCfg port ring (cfg ||| 0x80000000#32) (.arrived [])

/-- R103, R104, RING_DISABLE. -/
def execRingDisable (t : Nat) (port : PortId) (ring : RingRef) (cfg : Word) (got : Fetch) (s : State) : Result :=
  s.barCmd t port fun s => s.writeRingCfg port ring (cfg &&& 0x7FFFFFFF#32) got

/-! ### The configuration space (R65, R127) -/

/-- R65 what the configuration space of a port shows, as the table gives it. -/
structure PortOptions where
  deviceId    : Nat
  classCode   : Nat
  bar0Bytes   : Nat
  bar2Bytes   : Nat
  functions   : Nat
  vectors     : Nat
  maxPayload  : List Nat
  minRead     : Nat
  maxRead     : Nat
  tagBits     : Nat
  outstanding : Nat
  speeds      : List Nat
  lanes       : Nat
  aspmL1      : Bool
  aspmL0s     : Bool
  aer         : Bool
  flr         : Bool
  deriving DecidableEq, Repr

/-- R65. -/
def portOptions : PortOptions :=
  { deviceId := 0x9128, classCode := 0x088000, bar0Bytes := 0x400000, bar2Bytes := 0x10000, functions := 1, vectors := 64,
    maxPayload := [128, 256, 512], minRead := 128, maxRead := 4096, tagBits := 10, outstanding := 64,
    speeds := [1, 2, 3, 4], lanes := 2, aspmL1 := true, aspmL0s := false, aer := true, flr := true }

/-- The answer to a configuration request. -/
inductive CfgAnswer where
  | retry
  | data (vendor : BitVec 16) (options : PortOptions) (errors : Word)
  deriving DecidableEq, Repr

/-- R65, R123, R127 the answer of a port's configuration space to a request: Configuration Request Retry Status until the
device reports READY, then its identity, its options and its error status; none while the link is not up or the port is out
of service. No row of the table carries a configuration request (log 117). -/
def State.configRead (s : State) (p : PortId) : Option CfgAnswer :=
  if s.ports[p].link == .down || s.dev.portFail.getLsbD p then none
  else if s.hostUp then some (.data Config.vendorId portOptions s.ports[p].aer)
  else some .retry

/-! ### Ports (R124 to R126) -/

/-- R124 an output ring of a port that goes down. -/
def OutRing.down (r : OutRing) : OutRing := { r with enabled := false, marks := [] }

/-- R124 the rings of a port are disabled and their descriptors lost. -/
def State.ringsDown (s : State) (p : PortId) : State :=
  let s := (List.finRange 32).foldl (fun s (n : Fin 32) =>
    match s.ports[p].sqs[n].held with
    | some h => s.forgetHeld { port := p, sq := n } h
    | none => s) s
  let s := s.onPort p fun x => { x with
    sqs := x.sqs.map fun r => { r with enabled := false, fetched := [], held := none, stalled := [], behind := [] }
    cqs := x.cqs.map OutRing.down
    eq := x.eq.down }
  s.settleHold p

/-- R125 the channels that a port owns receive CH_STOP where DOWN_ACT asks for it. -/
def State.stopOwned (s : State) (p : PortId) : State :=
  (List.finRange 128).foldl (fun s (n : ChanId) =>
    if s.ownerOf (chUnit n) = some p then s.chan n ChR.ownerDown else s) s

/-- R124, R125 a port goes down. -/
def State.goesDown (s : State) (p : PortId) (link : Link) : State :=
  let s := (s.onPort p fun x => { x with link := link }).ringsDown p
  let stop := bitOf s.ports[p].control 0
  let s := if stop then s.stopOwned p else s
  let s := ((s.canPortDown p).rasterPortDown p).fpePortDown p stop
  if s.admin = p then s else s.raisePort s.admin 0x6020 devUnit s.dtime [u8 16 p]

/-- The link state that a cause of PORT_DOWN leaves. -/
def DownCause.link : DownCause → Link
  | .link => .down
  | .d3hot => .d3hot

/-- R124, PORT_DOWN: a port that was up goes down, or the link of one in D3hot drops. -/
def execPortDown (t : Nat) (port : PortId) (cause : DownCause) (s : State) : Result :=
  s.lastCmd t fun s =>
    match s.ports[port].link with
    | .l0 => s.goesDown port (DownCause.link cause)
    | .d3hot => s.onPort port fun x => { x with link := DownCause.link cause }
    | .down => s

/-- R126, PORT_UP: the link of a port returns to L0. -/
def execPortUp (t : Nat) (port : PortId) (speed width : Nat) (s : State) : Result :=
  s.lastCmd t fun s =>
    if s.ports[port].link = .down then
      (s.onPort port fun x => { x with link := .l0 }).raisePort s.admin 0x6021 devUnit s.dtime
        [u8 16 port, u8 17 speed, u8 18 width]
    else s

/-- R126 the HOST block and the MSI-X table of a port at their reset values; its counters and PERF registers stay. -/
def PortS.blockReset (x : PortS) : PortS :=
  { link := x.link, aer := x.aer, latches := x.latches, tagSel := x.tagSel, tagCopy := x.tagCopy, live := x.live, winBase := x.winBase,
    win := x.win }

/-- R124, R126, FUNCTION_LEVEL_RESET: a Function Level Reset, during which the port is down, or a return from D3hot, whose
link then comes back to L0. -/
def execFunctionLevelReset (t : Nat) (port : PortId) (fromD3 : Bool) (s : State) : Result :=
  s.lastCmd t fun s =>
    match s.ports[port].link, fromD3 with
    | .l0, false => (s.goesDown port .l0).onPort port PortS.blockReset
    | .d3hot, true => s.onPort port fun x => { x.blockReset with link := .down }
    | .d3hot, false => s.onPort port PortS.blockReset
    | _, _ => s

end Sys2Proof.Machine
end

