-- ==== Sys2Proof/Machine/Time.lean ====
section
/-! DEFINITION. Time: REFA, REFB, calendar, the always-on clock and counters, and the core voltage window (chapter 01). -/
namespace Sys2Proof.Machine

/-- The time logic changed. -/
def State.onTime (s : State) (f : TimeS → TimeS) : State := { s with time := f s.time }

/-- R58 a time event. -/
def State.timeEvent (s : State) (code : Nat) (data : List EvField) : State := s.raiseAll code devUnit s.dtime data

/-- Every channel changed in turn. -/
def State.allChans (s : State) (f : ChOp) : State := (List.finRange 128).foldl (fun s n => s.onChan n (fun r => (f r).settle)) s

/-! ### REFA (R36 to R40) -/

/-- R37, R38, REFA_LOST: cause 0 no edge for 1 µs, 1 out of range. -/
def execRefaLost (t : Nat) (cause : Nat) (s : State) : Result :=
  s.mainCmd t fun s =>
    let range := cause == 1
    if s.time.holdover then s.onTime fun x => { x with refaRange := range }
    else if !s.time.refaOk then s.onTime fun x => { x with refaRange := range, refaFreq := 0 }
    else
      let last := s.time.refaFreq
      let s := s.onTime fun x => x.change s.dtime fun x => { x with
        refaOk := false, refaRange := range, holdover := true, holdoverFrom := s.dtime, refaFreq := 0 }
      (s.timeEvent 0x0020 [u8 16 (b2n range), u32 20 last]).allChans ChR.refaLost

/-- R36, R40, REFA_RESTORED: a valid REFA measured at `kHz`; at a start that waits for it, the first lock (R707). -/
def execRefaRestored (t : Nat) (kHz : Nat) (s : State) : Result :=
  s.mainCmd t fun s =>
    if kHz < 10000 ∨ 50000 < kHz ∨ s.time.refaOk = true then s
    else
      let was := s.time.holdover
      let ms := min 0xFFFFFFFF ((s.dtime - s.time.holdoverFrom) / 1000000)
      let s := s.onTime fun x => x.change s.dtime fun x => { x with
        refaOk := true, refaRange := false, holdover := false, refaFreq := kHz, refaKHz := kHz }
      let s := if was then s.timeEvent 0x0021 [u32 20 kHz, u32 24 ms] else s
      s.allChans ChR.refaRestored

/-! ### REFB (R41 to R45) -/

/-- R57 PPS_WIN as it acts, ns. -/
def TimeS.ppsWin (x : TimeS) : Nat := atLeast1 (fld x.control 15 8) * 1000

/-- R43 the rate trim, in 0.001 ppm, that makes the next interval measure 1 s after one that measured `ns`. -/
def trimAfter (adj : Int) (ns : Nat) : Int :=
  clampInt (-200000) 200000 (rndDiv ((1000000000 + adj) * 1000000000) ns - 1000000000)

/-- R43 an accepted edge. -/
def TimeS.accept (x : TimeS) (t run : Nat) : TimeS :=
  { x with ppsPrev := (x.ppsStamp :: x.ppsPrev).take 16, ppsStamp := t, ppsLast := some t, ppsRun := run }

/-- R61, R63 an edge that comes more than 3 s after the last accepted one leaves the loss of PPS_LOCK to be declared. -/
def TimeS.noteLate (x : TimeS) (last t : Nat) : TimeS :=
  if x.ppsLock && x.ppsLate.isNone && decide (last + 3000000000 < t) then { x with ppsLate := some last } else x

/-- R44 PPS_LOCK after four consecutive accepted edges. -/
def State.ppsCheck (s : State) : State :=
  if 4 ≤ s.time.ppsRun ∧ s.time.ppsLock = false then
    (s.onTime fun x => { x with ppsLock := true }).timeEvent 0x0022 [i32 20 s.time.rateAdj]
  else s

/-- R41 to R44 an edge of REFB on the active polarity. The whole trim applies, and shows in RATE_ADJ, from the edge (DESIGN CHOICE,
log 112). -/
def State.ppsEdge (s : State) : State :=
  let t := s.dtime
  match s.time.ppsLast with
  | none => (s.onTime fun x => x.accept t 1).ppsCheck
  | some l =>
    let w := s.time.ppsWin
    if l + 1000000000 + w < t then (s.onTime fun x => (x.noteLate l t).accept t 1).ppsCheck
    else if l + 1000000000 ≤ t + w then
      (s.onTime fun x => (x.change t fun x => { x with rateAdj := trimAfter x.rateAdj (t - l) }).accept t
        (x.ppsRun + 1)).ppsCheck
    else s.onTime fun x => { x with ppsReject := satInc 65535 x.ppsReject }

/-- R41, REFB_EDGE. -/
def execRefbEdge (t : Nat) (rising : Bool) (s : State) : Result :=
  s.mainCmd t fun s =>
    if bitOf s.time.control 0 && (rising != bitOf s.time.control 1) then s.ppsEdge else s

/-- R44, PPS_LOST: 3 s without an accepted edge, declared and stamped as R61 and R62 say. -/
def execPpsLost (t : Nat) (s : State) : Result :=
  s.mainCmd t fun s =>
    let late := s.time.ppsLate
    let last := late.getD (s.time.ppsLast.getD 0)
    let due := last + 3000000000
    if s.time.ppsLock && timedOut due s.dtime then
      (s.onTime fun x => { x with ppsLock := false, ppsLate := none, ppsRun := if late.isSome then x.ppsRun else 0 }).raiseAll 0x0023 devUnit due
        [i32 20 s.time.rateAdj, u32 24 last]
    else s

/-- R57 TIME.CONTROL written: PPS_EN cleared drops the lock, and set again makes the next edge a start edge. -/
def TimeS.writeControl (x : TimeS) (v : Word) : TimeS :=
  let c := merge x.control v 0x0000FF03#32
  let x := { x with control := c }
  if !bitOf c 0 then { x with ppsLock := false, ppsRun := 0, ppsLast := none, ppsLate := none } else x

/-! ### Calendar and the always-on clock (R48 to R54) -/

/-- R52 a time as the always-on clock resolves it, in steps of 1/32,768 s. -/
def aonStep (ns : Nat) : Nat := ns * 32768 / 1000000000 * 1000000000 / 32768

/-- R52 the always-on clock at this instant. -/
def State.aonNow (s : State) : Nat := aonStep (s.aon.clock + (s.dtime - s.aon.clockAt))

/-- R52 the always-on clock loaded from calendar time. -/
def State.loadAon (s : State) : State := { s with aon := { s.aon with clock := aonStep (s.calendar s.dtime), clockAt := s.dtime } }

/-- R52, AON_CLOCK_LOAD. -/
def execAonClockLoad (t : Nat) (s : State) : Result := s.mainCmd t State.loadAon

/-- R53, OPTIME_TICK: a second of main supply has passed. -/
def execOptimeTick (t : Nat) (s : State) : Result :=
  let s := s.at t
  .next (if s.supplied then { s with aon := { s.aon with optime := satInc 0xFFFFFFFF s.aon.optime } } else s)

/-- R54, AON_RESTART: VBAT has been out of range while the main supply was off. AON_LOST stays set over later power-ups until a
write clears it (DESIGN CHOICE, log 113). -/
def execAonRestart (t : Nat) (s : State) : Result :=
  let s := s.at t
  .next (if s.supplied then s else { s with aon := { aonLost := true } })

/-- R50 the RESULT of CALENDAR_SET: a step in whole ms, saturated. -/
def stepMs (step : Int) : Nat := signedBits 32 (clampInt (-2147483647) 2147483647 (Int.tdiv step 1000000))

/-- R48 to R51 CALENDAR_SET. -/
def calendarSetExec : Exec where
  check := noCheck
  run s _ d :=
    let cal := d.num 24 8
    let ref := d.num 32 8
    let old := s.calendar s.dtime
    let s := s.onTime fun x => { x with calOffset := (cal : Int) - (if ref = 0 then s.dtime else ref : Nat) }
    let new := s.calendar s.dtime
    let step := (new : Int) - old
    let s := ({ s with aon := { s.aon with calValid := true } }).loadAon
    let s := if 1000000 < step.natAbs then s.timeEvent 0x0010 [u64 16 old, u64 24 new] else s
    (s, .now stOk 0 (stepMs step))

/-- R48, CALENDAR_SET. -/
def execCalendarSet (t : Nat) (q : SqRef) (s : State) : Result := .next (s.runDesc t q 0x7F 0 calendarSetExec)

/-! ### Core voltage (R30 to R35) -/

/-- R30 the length of a window in ns. -/
def vcoreWindow : Nat := 10000000

/-- R30, R32 a window ends: VCORE is lowered, and the next window begins where this one ended. -/
def SupS.windowEnd (p : SupS) (t : Nat) : SupS :=
  let p' := { p with windowAt := p.windowAt + vcoreWindow }
  match p.slack with
  | none => p'
  | some (x, i) =>
    let p' := { p' with slack := none }
    if bitOf p.vctrl 31 && decide (p.noLower ≤ t) && decide ((p.margin * i : Nat) ≤ x * 256) then
      { p' with vnow := p.vnow - 4 } else p'

/-- R32, R35, VCORE_WINDOW_END: 10 ms after the window began. -/
def execVcoreWindowEnd (t : Nat) (s : State) : Result :=
  s.mainCmd t fun s => if s.sup.windowAt + vcoreWindow ≤ s.dtime then { s with sup := s.sup.windowEnd s.dtime } else s

/-- R31 SUPPLY.VCORE_CTRL written. -/
def SupS.writeVcore (p : SupS) (v : Word) : SupS :=
  let c := merge p.vctrl v 0x8000FFFF#32
  { p with vctrl := c, vnow := if bitOf c 31 then p.vnow else min 240 (fld c 15 8) }

/-! ### Registers (R55 to R57) -/

/-- R56 TIME.STATUS. -/
def State.timeStatus (s : State) : Word :=
  pack [(5, 1, b2n s.aon.aonLost), (4, 1, b2n s.aon.calValid), (3, 1, b2n s.time.ppsLock), (2, 1, b2n s.time.holdover),
    (1, 1, b2n s.time.refaRange), (0, 1, b2n s.time.refaOk)]

/-- R55 a word of the TIME block, at an offset from 0x05_4000. -/
def State.readTime (s : State) (off : Nat) : Word :=
  match off with
  | 0x00 => s.timeStatus
  | 0x04 => s.time.control
  | 0x08 => BitVec.ofNat 32 s.time.refaFreq
  | 0x10 => BitVec.ofNat 32 s.dtime
  | 0x14 => BitVec.ofNat 32 (s.dtime / 2 ^ 32)
  | 0x18 => BitVec.ofNat 32 (s.calendar s.dtime)
  | 0x1C => BitVec.ofNat 32 (s.calendar s.dtime / 2 ^ 32)
  | 0x20 => BitVec.ofNat 32 s.time.ppsStamp
  | 0x24 => BitVec.ofNat 32 (s.time.ppsStamp / 2 ^ 32)
  | 0x28 => BitVec.ofInt 32 s.time.rateAdj
  | 0x2C => BitVec.ofNat 32 s.aon.optime
  | 0x30 => BitVec.ofNat 32 s.aon.pcycle
  | 0x34 => BitVec.ofNat 32 s.time.ppsReject
  | _ => 0

/-- R55 to R57 a word of the TIME block written. -/
def State.writeTime (s : State) (off : Nat) (v : Word) : State :=
  match off with
  | 0x00 => { s with aon := { s.aon with aonLost := s.aon.aonLost && !bitOf v 5 } }
  | 0x04 => s.onTime fun x => x.writeControl v
  | _ => s

end Sys2Proof.Machine
end

