-- ==== Sys2Proof/Machine/House.lean ====
section
/-! DEFINITION. Housekeeping, die thermal protection, basking, and the supply controller (chapter 18). -/
namespace Sys2Proof.Machine

/-- Housekeeping changed. -/
def State.onHk (s : State) (f : HkS → HkS) : State := { s with hk := f s.hk }
/-- The supply logic changed. -/
def State.onSup (s : State) (f : SupS → SupS) : State := { s with sup := f s.sup }
/-- The always-on domain changed. -/
def State.onAon (s : State) (f : AonS → AonS) : State := { s with aon := f s.aon }
/-- The start sequencer changed. -/
def State.onDev (s : State) (f : DevS → DevS) : State := { s with dev := f s.dev }

/-- R697 an event of housekeeping. -/
def State.hkEvent (s : State) (code : Nat) (data : List EvField) : State := s.raiseAll code hkUnit s.dtime data

/-! ### The main supply off (R717, R720) -/

/-- R702 the reset value of SUPPLY.CFG. -/
def supCfgReset (vehicle : Bool) : Word := if vehicle then 0x025800A0#32 else 0x11940384#32

/-- The device cleared for a start: what survives is the always-on domain, the non-volatile media, the supply controller
and the model's own queue, record of writes and counters (R720). -/
def State.cleared (s : State) : State :=
  let r := State.reset
  { r with
    pending := s.pending
    aon := s.aon
    stor := { r.stor with s1 := s.stor.s1 }
    recorder := { r.recorder with store := s.recorder.store, s0 := s.recorder.s0 }
    sup := { r.sup with
      ctl := s.sup.ctl, heldAt := s.sup.heldAt, owed := s.sup.owed, vehicle := s.sup.vehicle
      cfg := supCfgReset s.sup.vehicle }
    outbox := s.outbox
    lastRead := s.lastRead
    freeCtr := s.freeCtr }

/-- R129, R717, R720 the main supply is down: every unit of it is at its reset state, its lanes with it, until a start. -/
def State.powerDown (s : State) (f : DevS → DevS) : State :=
  { s.cleared with dtime := s.dtime, time := s.time, sup := s.sup, dev := f { s.dev with phase := .off, testing := false } }

/-! ### The end of a shut-down (R713 step 8, R717) -/

/-- R713 step 8: the off latch, or a start with cause 2. -/
def State.shutEnd (s : State) : State :=
  let s := s.powerDown fun d => { d with due := if d.restart then some 2 else none }
  if s.dev.restart then s else s.onSup fun p => { p with ctl := .offLatch, heldAt := s.dtime }

/-! ### Die sensors (R680 to R686) -/

/-- R700 TJ_WARN as it acts, 0.1 °C. -/
def HkS.tjWarn (h : HkS) : Int := 10 * clampNat 80 134 (fld h.ctrl 7 0)
/-- R700 BASK_T as it acts, ns. -/
def HkS.baskT (h : HkS) : Nat := max 10 (fld h.ctrl 23 16) * 1000000000

/-- R680 a die sensor's reading in comparisons. -/
def HkS.die (h : HkS) (i : Fin 16) : Int := if h.broken.getLsbD i then 1750 else (h.inp[i.val]'(by omega)).value

/-- R680 a conversion beyond the range of a die sensor. -/
def dieBroken (v : Int) : Bool := decide (v < -550) || decide (1750 < v)

/-- R679 the 64 inputs of a round. -/
def HkS.convert (h : HkS) (x : HkInputs) : HkS :=
  { h with
    inp := Vector.ofFn fun (i : Fin 64) =>
      match x.samples[i.val]? with
      | some (code, v) => { value := if 38 ≤ i.val then 0 else v, code := code % 4096 }
      | none => h.inp[i]
    above := x.above }

/-- R680 DIE_SENSOR for one sensor of a round. -/
def State.dieSensor (s : State) (i : Fin 16) : State :=
  let bad := dieBroken (s.hk.inp[i.val]'(by omega)).value
  if s.hk.broken.getLsbD i == bad then s
  else (s.onHk fun h => { h with broken := h.broken ^^^ BitVec.ofNat 16 (2 ^ i.val) }).hkEvent 0x5004
    [u8 16 i, u8 17 (b2n (!bad))]

/-- R699 the sensor with the highest reading, the lowest number among equals. -/
def HkS.hottest (h : HkS) : Fin 16 := (List.finRange 16).foldl (fun (b : Fin 16) i => if h.die b < h.die i then i else b) 0

/-- R681 to R683, R687 a die thermal shutdown begins: `how` 0 comparator, 1 round, 2 broken sensor. -/
def State.shutBegins (s : State) (sensor : Fin 16) (how : Nat) (reading : Int) : State :=
  if s.hk.shut then s
  else
    let s := s.onHk fun h => { h with shut := true, basking := true, shutAt := s.dtime }
    let s := s.onAon fun a => { a with basking := true, bask := s.aonNow, shutCnt := satInc 65535 a.shutCnt }
    let s := s.hkEvent 0x5002 [u8 16 sensor, u8 17 how, i16 18 reading]
    if s.dev.testing then s.shutEnd else s.allChans ChR.dieShutdown

/-- R681 the first sensor whose reading calls for a shutdown. -/
def HkS.tooHot (h : HkS) : Option (Fin 16) :=
  (List.finRange 16).find? fun i => h.broken.getLsbD i || decide (1350 ≤ h.die i)

/-- R684 the warning of a round. -/
def State.hkWarn (s : State) : State :=
  let h := s.hk
  let i := h.hottest
  if !h.warn && decide (h.tjWarn ≤ h.die i) then
    (s.onHk fun h => { h with warn := true }).hkEvent 0x5001 [u8 16 i, u8 17 0, i16 18 (h.die i)]
  else if h.warn && decide (h.die i < h.tjWarn - 50) then
    (s.onHk fun h => { h with warn := false }).hkEvent 0x5001 [u8 16 i, u8 17 1, i16 18 (h.die i)]
  else s

/-- R685 the conditions for the end of basking. -/
def State.baskOver (s : State) : Bool :=
  let h := s.hk
  h.basking && decide (h.die h.hottest < 1100) && h.broken == 0 && h.above == 0 &&
  decide (h.shutAt + h.baskT ≤ (s.dtime : Int))

/-- R685 basking ends. -/
def State.baskEnds (s : State) : State :=
  let ms := (((s.dtime : Int) - s.hk.shutAt) / 1000000).toNat
  let top := s.hk.die s.hk.hottest
  let s := (s.onHk fun h => { h with shut := false, basking := false }).onAon fun a => { a with basking := false }
  (s.hkEvent 0x5003 [i16 18 top, u32 20 ms]).allChans ChR.baskEnd

/-- R283, R679 housekeeping takes the latest NTC result of a channel. -/
def Chan.ntcTaken (c : Chan) : Chan := { c with adc := { c.adc with ntcHk := c.adc.ntc } }

/-- R283, R679 to R687, R695 a housekeeping round. -/
def State.hkRound (s : State) (x : HkInputs) : State :=
  let s := { s.onHk (fun h => h.convert x) with chans := s.chans.map Chan.ntcTaken }
  let s := (List.finRange 16).foldl State.dieSensor s
  let s := (s.onHk fun h => { h with hot := h.hottest }).hkWarn
  let vbat := (s.hk.inp[20]).value
  let vaux := (s.hk.inp[16]).value
  let s := s.onSup fun p => { p with convOk := decide (11760 ≤ vaux) && decide (vaux ≤ 12240) }
  let s := if vbat < 2200 ∧ s.sup.vbatLow = false then
      (s.onSup fun p => { p with vbatLow := true }).hkEvent 0x5012 [i16 18 vbat] else s
  match s.hk.tooHot with
  | some i => s.shutBegins i (if s.hk.broken.getLsbD i then 2 else 1) (s.hk.die i)
  | none => if s.baskOver then s.baskEnds else s

/-- R679, HK_ROUND: at a multiple of 10 ms. -/
def execHkRound (t : Nat) (x : HkInputs) (s : State) : Result :=
  s.mainCmd t fun s => if s.dtime % 10000000 = 0 then s.hkRound x else s

/-- R681, DIE_SHUTDOWN: a die comparator has been above 135 °C for 50 µs. -/
def execDieShutdown (w : Steady) (sensor : Fin 16) (reading : Int) (s : State) : Result :=
  s.mainCmd w.t fun s =>
    if s.dtime < w.first + 50000 then s
    else (s.onHk fun h => { h with above := h.above ||| BitVec.ofNat 16 (2 ^ sensor.val) }).shutBegins sensor 0 reading

/-! ### The supply controller (R688 to R690, R718) -/

/-- R688, SUPPLY_CONTROLLER_START: SUP_VDD has risen above 9.0 V, and SUP_SEL is read. -/
def execSupplyControllerStart (t : Nat) (supSel : Bool) (s : State) : Result :=
  let s := s.at t
  .next (if s.sup.ctl = .stopped then
      (s.onSup fun p => { p with ctl := .running, vehicle := supSel, cfg := supCfgReset supSel }).onDev fun d =>
        { d with due := some 0 }
    else s)

/-- R688, R718, SUP_VDD_STOP: SUP_VDD has fallen below 7.5 V; the off latch ends, and without VAUX the device is off. -/
def execSupVddStop (t : Nat) (s : State) : Result :=
  let s := s.at t
  .next ((s.onSup fun p => { p with ctl := .stopped }).powerDown fun d => { d with due := none })

/-- R690 SUP_FAULT events that are owed, raised once the device runs. -/
def State.supEvents (s : State) : State :=
  if s.dev.phase != .ready then s
  else s.sup.owed.foldl (fun s c => s.hkEvent 0x5013 [u8 16 c]) (s.onSup fun p => { p with owed := [] })

/-- R690, SUP_FAULT: over-voltage (0) or 1,000 cycles at the current limit (1) stops the converter for 1 s. -/
def execSupFault (t : Nat) (cause : Nat) (s : State) : Result :=
  let s := s.at t
  .next (if s.sup.ctl = .running then
      (s.onSup fun p => { p with ctl := .held, heldAt := s.dtime, owed := p.owed ++ [cause] }).supEvents
    else s)

/-- R690, SOFT_START: the hold of 1 s has passed. -/
def execSoftStart (t : Nat) (s : State) : Result :=
  let s := s.at t
  .next (if s.sup.ctl = .held ∧ s.sup.heldAt + 1000000000 ≤ s.dtime then
      s.onSup fun p => { p with ctl := .running }
    else s)

/-! ### Power fail and rails (R691, R692, R717, R719, R720) -/

/-- R692, R719 the power-fail warning. -/
def State.warn (s : State) (source vin vaux : Nat) : State :=
  let s := (s.onSup fun p => { p with pf := true }).hkEvent 0x5010 [u8 16 source, u16 18 vin, u16 20 vaux]
  let s := s.onRec fun r => { r with draining := true }
  if s.dev.phase = .shutdown then s.shutEnd
  else (s.fpeStop 1).onDev fun d => { d with phase := .powerFail, warnAt := s.dtime }

/-- R692, R702 the condition of a warning: SUP_VIN (source 0) below PF_VIN, which 0 disables, or VAUX (1) below 11.0 V. -/
def SupS.failing (p : SupS) (source vin vaux : Nat) : Bool :=
  if source = 0 then decide (vin < fld p.cfg 15 0) else decide (vaux < 11000)

/-- R692 how long the condition must have held: from the first of 5 samples that are 100 µs apart to the last, or 100 µs. -/
def failTime (source : Nat) : Nat := if source = 0 then 400000 else 100000

/-- R692, POWER_FAIL: source 0 SUP_VIN, 1 VAUX, below its level since `w.first`; converter input in 0.1 V and VAUX in mV. -/
def execPowerFail (w : Steady) (source vin vaux : Nat) (s : State) : Result :=
  s.lastCmd w.t fun s =>
    if s.sup.pf || !s.sup.failing source vin vaux || decide (s.dtime < w.first + failTime source) then s
    else s.warn source vin vaux

/-- R719 step 3, POWER_FAIL_RESTART: VAUX is still within its window 50 ms after the warning. -/
def execPowerFailRestart (t : Nat) (s : State) : Result :=
  s.lastCmd t fun s =>
    if s.dev.phase = .powerFail ∧ s.dev.warnAt + 50000000 ≤ s.dtime then
      s.powerDown fun d => { d with due := some 4 }
    else s

/-- R691 the window of a rail in mV, by its LAST_RESET code: 1 VCORE, 2 VIO, 3 VPHY, 4 VANA, 5 VAUX. -/
def railWindow (code : Nat) : Nat × Nat :=
  match code with
  | 1 => (570, 950)
  | 2 => (3000, 3600)
  | 3 => (850, 950)
  | 4 => (1710, 1890)
  | _ => (10500, 14000)

/-- R691 a level in mV lies outside the window of a rail. -/
def railOut (code mv : Nat) : Bool := decide (mv < (railWindow code).1) || decide ((railWindow code).2 < mv)

/-- R691, R717, RAIL_RESET: a rail has been outside its window for the 2 µs of the filter. -/
def execRailReset (w : Steady) (x : RailLevel) (s : State) : Result :=
  s.lastCmd w.t fun s =>
    if !railOut x.code x.mv || decide (s.dtime < w.first + 2000) then s
    else (s.onAon fun a => { a with lastReset := x.code }).powerDown fun d => { d with due := some 3 }

/-! ### Registers (R698 to R702) -/

/-- R698, R699 a word of the HK block, at an offset from 0x05_1000. -/
def State.readHk (s : State) (off : Nat) : Word :=
  let h := s.hk
  if hi : 0x100 ≤ off ∧ off < 0x200 then
    let x := h.inp[(off - 0x100) / 4]'(by omega)
    pack [(16, 16, signedBits 16 x.value), (0, 12, x.code)]
  else match off with
    | 0x00 => pack [(31, 1, b2n h.basking), (30, 1, b2n h.shut), (29, 1, b2n h.warn), (20, 4, h.hot), (0, 16, h.broken.toNat)]
    | 0x04 => h.ctrl
    | 0x08 => BitVec.ofNat 32 s.aon.shutCnt
    | _ => 0

/-- R700 HK.CTRL written. -/
def HkS.writeCtrl (h : HkS) (v : Word) : HkS := { h with ctrl := merge h.ctrl v 0x00FF00FF#32 }

/-- R31, R698, R701, R702 a word of the SUPPLY block, at an offset from 0x05_2000. -/
def State.readSupply (s : State) (off : Nat) : Word :=
  let p := s.sup
  match off with
  | 0x00 => pack [(31, 1, b2n p.vehicle), (30, 1, b2n p.pf), (29, 1, b2n p.convOk), (28, 1, b2n p.vbatLow),
      (0, 3, s.aon.lastReset)]
  | 0x04 => p.cfg
  | 0x40 => p.vctrl ||| pack [(16, 8, p.vnow)]
  | _ => 0

/-- R31, R702 a word of the SUPPLY block written. -/
def SupS.write (p : SupS) (off : Nat) (v : Word) : SupS :=
  match off with
  | 0x04 => { p with cfg := v }
  | 0x40 => p.writeVcore v
  | _ => p

end Sys2Proof.Machine
end

