-- ==== Sys2Proof/Machine/Perf.lean ====
section
/-! DEFINITION. Performance counters, the tag samples that the ports read, and the test access port (chapter 20). -/
namespace Sys2Proof.Machine

/-! ### Windows (R739 to R741) -/

/-- R740, R747 the length of a window, ns. -/
def PerfS.winLen (x : PerfS) : Nat := atLeast1 (fld x.ctrl 15 0) * 100000

/-- R741 the difference of two 48-bit counts. -/
def since48 (x base : Nat) : Nat := (x + 2 ^ 48 - base) % 2 ^ 48

/-- R740 the counts of the window that began at `base`. -/
def PerfCnt.since (x base : PerfCnt) : PerfCnt :=
  { rdBytes := since48 x.rdBytes base.rdBytes
    wrBytes := since48 x.wrBytes base.wrBytes
    desc := since48 x.desc base.desc
    mmio := since48 x.mmio base.mmio
    cqHold := since48 x.cqHold base.cqHold }

/-- R739 the running counts of every port brought up to now. -/
def State.settleCounts (s : State) : State := (List.finRange 4).foldl (fun s p => s.settleHold p) s

/-- R740 the running counts of every port start again; with `keep` they have gone into the window set. -/
def State.restartWindow (s : State) (keep : Bool) : State :=
  let s := s.settleCounts
  { s with ports := s.ports.map fun x =>
      { x with win := if keep then x.live.since x.winBase else x.win, winBase := x.live } }

/-- R740, PERF_WINDOW_END: the running window ends, or the first window of a new length starts. -/
def State.windowEnds (s : State) : State :=
  if s.perf.winEnd ≤ s.dtime then
    let ends := !s.perf.winWait
    let s := s.restartWindow ends
    { s with perf := { s.perf with
        bwSeq := if ends then (s.perf.bwSeq + 1) % 2 ^ 32 else s.perf.bwSeq
        winEnd := s.perf.winEnd + s.perf.winLen
        winWait := false } }
  else s

/-- R740, PERF_WINDOW_END. -/
def execPerfWindowEnd (t : Nat) (s : State) : Result := s.lastCmd t State.windowEnds

/-- R740, R747 PERF.CTRL written: a new BW_WIN discards the running window, and the next starts at the next multiple of the
new length. -/
def State.writePerfCtrl (s : State) (v : Word) : State :=
  let changes := decide (fld v 15 0 ≠ fld s.perf.ctrl 15 0)
  let s := { s with perf := { s.perf with ctrl := v &&& 0x000FFFFF#32 } }
  if changes then
    { s with perf := { s.perf with winEnd := (s.dtime / s.perf.winLen + 1) * s.perf.winLen, winWait := true } }
  else s

/-! ### Reads (R741, R742, R744) -/

/-- R742 the DTIME tag. -/
def State.dtimeTag (s : State) : Nat := s.dtime / 1024 % 65536

/-- R746 counter `i` of a set of counts. -/
def PerfCnt.item (x : PerfCnt) (i : Nat) : Nat :=
  match i with
  | 0 => x.rdBytes
  | 1 => x.wrBytes
  | 2 => x.desc
  | 3 => x.mmio
  | _ => x.cqHold

/-- R739 the running counts of a port as they stand now. -/
def State.liveCounts (s : State) (p : PortId) : PerfCnt :=
  let x := s.ports[p]
  match x.holdFrom with
  | some f => { x.live with cqHold := wrap48 x.live.cqHold (s.dtime - f) }
  | none => x.live

/-- R746 whether an offset from 0x06_0000 is the low register of a counter. -/
def perfPair (off : Nat) : Bool := decide (0x100 ≤ off ∧ off < 0x300) && off % 8 == 0 && decide (off % 0x40 < 0x28)

/-- R741, R746 the counter at an offset for which `perfPair` holds. -/
def State.perfCount (s : State) (off : Nat) : Nat :=
  let p : PortId := ⟨off / 0x40 % 4, Nat.mod_lt _ (by decide)⟩
  (if off < 0x200 then s.ports[p].win else s.liveCounts p).item (off % 0x40 / 8)

/-- R744 the eight words that a read of TAG_SAMPLE[0] latches. -/
def State.tagSample (s : State) (p : PortId) : Vector Word 8 :=
  let n : ChanId := ⟨fld s.ports[p].tagSel 6 0 % 128, Nat.mod_lt _ (by decide)⟩
  let w := s.chans[n].tag.words
  if w = Vector.replicate 6 0 then Vector.replicate 8 0
  else #v[w[0], w[1], w[2], w[3], w[4], w[5], pack [(16, 16, s.dtimeTag), (0, 8, n.val)], 0]

/-- R744 the copy latched for a port. -/
def State.latchTag (s : State) (p : PortId) : State := s.onPort p fun x => { x with tagCopy := s.tagSample p }

/-! ### The test access port (R736 to R738) -/

/-- R736 an instruction of the test access port. -/
def State.onJtag (s : State) (f : JtagS → JtagS) : Result :=
  .next (if s.supplied then { s with jtag := f s.jtag } else s)

/-- R737 the identification register. -/
def idWord : Word :=
  pack [(28, 4, 1), (12, 16, 0x9128), (1, 11, Config.manufacturer.toNat), (0, 1, 1)]

/-- R736 an instruction that needs BOOT_MODE = TEST acts as BYPASS without it. -/
def State.testOnly (s : State) (ir : JtagIr) : JtagIr := if s.dev.bootMode = 2 then ir else .bypass

/-- R736, R737, IDCODE. -/
def execIdcode (s : State) : Result := s.onJtag fun j => { j with ir := .idcode, dr := idWord }

/-- R736, SAMPLE/PRELOAD: the boundary register holds what is shifted in. -/
def execSamplePreload (shiftIn : List Bool) (s : State) : Result :=
  s.onJtag fun j => { j with ir := .samplePreload, boundary := shiftIn }

/-- R736, R738, EXTEST: the boundary register drives the balls. -/
def execExtest (s : State) : Result := s.onJtag fun j => { j with ir := s.testOnly .extest }

/-- R736, CLAMP. -/
def execClamp (s : State) : Result := s.onJtag fun j => { j with ir := s.testOnly .clamp }

/-- R736, HIGHZ. -/
def execHighz (s : State) : Result := s.onJtag fun j => { j with ir := s.testOnly .highz }

/-- R736, PROD_TEST. -/
def execProdTest (s : State) : Result := s.onJtag fun j => { j with ir := s.testOnly .prodTest }

/-- R736, BYPASS, also for a code that is not listed. -/
def execBypass (s : State) : Result := s.onJtag fun j => { j with ir := .bypass }

end Sys2Proof.Machine
end

