-- ==== Sys2Proof/Machine/ChanRegs.lean ====
section
/-! DEFINITION. The registers of a channel block: what a read returns and what the owner's write does, in the groups of R150
(R151, R188, R235, R285, R322, R366, R406, R465, R748), with the RWL rule (R18, R20). -/
namespace Sys2Proof.Machine

/-! ### The RWL rule -/

/-- R18 the states in which RWL fields may be written. -/
def Chan.rwlOpen (c : Chan) : Bool :=
  match c.core.code with
  | .off => true
  | .ready => true
  | .armed => true
  | _ => false

/-- R20 a write of which RWL fields are dropped is counted when it would have changed one. -/
def ChR.countDrop (r : ChR) (changes : Bool) : ChR :=
  if !r.c.rwlOpen && changes then r.core (fun c => { c with rwlDrop := satInc 65535 c.rwlDrop }) else r

/-- A register of RWL fields (`rwl`) and RW fields (`rw`) written over `old`: the new value reaches `f`. -/
def ChR.setReg (r : ChR) (old v rw rwl : Word) (f : Word → ChOp) : ChR :=
  let mask := if r.c.rwlOpen then rw ||| rwl else rw
  f (merge old v mask) (r.countDrop ((old ^^^ v) &&& rwl ≠ 0))

/-- A register all of whose fields are RWL. -/
def ChR.setRwl (r : ChR) (old v mask : Word) (f : Word → ChOp) : ChR :=
  if r.c.rwlOpen then f (merge old v mask) r else r.countDrop ((old ^^^ v) &&& mask ≠ 0)

/-- R18 W1C: the bits under `mask` that the write names are cleared. -/
def w1c (old v mask : Word) : Word := old &&& ~~~(v &&& mask)

/-! ### State, plug, profile, IDENT (R151 to R157) -/

/-- R154 CH.PLUG. -/
def CoreS.plugWord (c : CoreS) : Word :=
  pack [(16, 16, c.unplugCnt), (3, 1, b2n c.debounce.isSome), (2, 1, b2n (!c.plugPin)), (0, 1, b2n c.plugEn)]

/-- R154 a write of PLUG_EN. -/
def ChR.writePlug (r : ChR) (v : Word) : ChR :=
  let en := bitOf v 0
  if !r.c.rwlOpen then r.countDrop (en != r.c.core.plugEn)
  else if en && !r.c.core.plugEn then
    let r := r.core (fun c => { c with plugEn := true })
    if r.c.core.plugPin then r else r.unplug r.env.t
  else r.core (fun c => { c with plugEn := en })

/-- R155, R135 a write of MOTOR_RS or MOTOR_LS. -/
def ChR.writeProfile (r : ChR) (ls : Bool) (v : Word) : ChR :=
  r.core (fun c => if ls then { c with motorLs := merge c.motorLs v 0xFF0FFFFF#32, verified := false }
                   else { c with motorRs := merge c.motorRs v 0xFF0FFFFF#32, verified := false })

/-! ### Time base (R188 to R193) -/

/-- R189 CH.TB_CTRL. -/
def TbS.ctrlWord (b : TbS) : Word := b.ctrl ||| pack [(29, 3, b.sel)]

/-- Whether a write of BAND_SEL is a request: from step 1 of a lock sequence until the PLL stops (R189, R784). -/
def Chan.bandRequests (c : Chan) : Bool := c.tb.picked || c.core.onPll

/-- R189 a write of TB_CTRL. -/
def ChR.writeTbCtrl (r : ChR) (v : Word) : ChR :=
  let e : Fin 8 := ⟨fld v 31 29 % 8, Nat.mod_lt _ (by decide)⟩
  let r := r.setReg r.c.tb.ctrl v 0x10000000#32 0x08FFFFFF#32 (fun w r => r.tb (fun b => { b with ctrl := w }))
  let r := if bitOf v 26 then r.requestRealign else r
  if r.c.bandRequests then r.requestBand e false else r.tb (fun b => { b with sel := e })

/-- R182, R191 a new TB_PROFILE: a change of the spread fields ends the modulation until its next phase 0. -/
def ChR.setProfile (r : ChR) (w : Word) : ChR :=
  r.retick.tb (fun b => { b with
    profile := w
    ssFrom := if (b.profile ^^^ w) &&& 0xFFFF0000#32 = 0 then b.ssFrom else r.env.time.phase r.env.t })

/-- R190 CH.TB_BAND. -/
def TbS.bandWord (b : TbS) (t : Nat) : Word :=
  let e := b.bands[b.index]
  pack [(29, 3, b.index), (28, 1, b2n e.valid), (27, 1, b2n (b.calAt t b.index)), (0, 26, e.word.toNat)]

/-- R164, R165, R190 a write of TB_BAND; the shadow oscillator calibrates the entry anew. -/
def ChR.writeTbBand (r : ChR) (v : Word) : ChR :=
  let e : Fin 8 := ⟨fld v 31 29 % 8, Nat.mod_lt _ (by decide)⟩
  let r := r.tb (fun b => { b with
    index := e
    calDue := b.calDue &&& ~~~(1#8 <<< e.val)
    bands := b.bands.set e { word := BitVec.ofNat 26 v.toNat, valid := bitOf v 28, cal := false } })
  if r.c.core.onPll && r.c.tb.entry == e then r.requestBand e false else r

/-- R182 the triangle runs at DTIME `t`: from the first phase 0 after a lock or a change. -/
def Chan.ssActive (c : Chan) (x : TimeS) (t : Nat) : Bool := c.tb.modulates x.refaKHz (x.phase t)

/-- R192 STATE: step 2 and step 3 of the sequence follow the time since step 1. While a sequence waits at step 1 for REFA,
STATE reads IDLE (DESIGN CHOICE, log 108). -/
def TbS.stateNo (b : TbS) (t : Nat) : Nat :=
  match b.state, b.seqFrom with
  | .idle, some f => if t < b.lockingFrom f then 1 else 2
  | x, _ => x.num

/-- R192 CH.TB_STATUS. -/
def Chan.tbStatus (c : Chan) (x : TimeS) (t : Nat) : Word :=
  let b := c.tb
  let clamp := (c.core.onPll || b.seqFrom.isSome) &&
    (tbClamped x.refaKHz b.word || (c.ssDepth ≠ 0 && ssReduced x.refaKHz b.word c.ssDepth))
  pack [(24, 8, b.lockCnt), (16, 8, b.hopCnt), (15, 1, b2n b.offGrid), (14, 1, b2n clamp), (13, 1, b2n (c.ssActive x t)),
    (10, 3, b.entry), (9, 1, b2n b.req.pending), (0, 4, b.stateNo t)]

/-! ### PWM (R235 to R241) -/

/-- R236 CH.PWM_CFG. -/
def PwmS.cfgWord (p : PwmS) : Word := p.cfg ||| pack [(0, 24, p.period)]

/-- R236 a write of PWM_CFG. -/
def ChR.writePwmCfg (r : ChR) (v : Word) : ChR :=
  (r.setRwl r.c.pwm.cfg v 0xF8000000#32 (fun w r => r.pwm (fun p => { p with cfg := w }))).requestPeriod (fld v 23 0) false

/-! ### Sensing (R285 to R291) -/

/-- R266 the thresholds of a register settle again. -/
def ChR.settleFrom (r : ChR) (ks : List (Fin 5)) : ChR :=
  r.adc (fun a => { a with settle := ks.foldl (fun (v : Vector (Option Nat) 5) (k : Fin 5) => v.set k (some r.env.t)) a.settle })

/-- R287 a write of CMP_A. -/
def ChR.writeCmpA (r : ChR) (v : Word) : ChR :=
  r.setRwl r.c.adc.cmpA v 0x3FFFFFFF#32 (fun w r => (r.adc (fun a => { a with cmpA := w })).settleFrom [0, 1, 4])

/-- R288 a write of CMP_B. -/
def ChR.writeCmpB (r : ChR) (v : Word) : ChR :=
  let open' := r.c.rwlOpen
  r.setReg r.c.adc.cmpB v 0x1E000000#32 0x01FFFFFF#32 (fun w r =>
    let r := r.adc (fun a => { a with cmpB := w, win := a.win.map (Window.judge (fld w 28 25)) })
    if open' then r.settleFrom [2, 3] else r)

/-- R289 the trim entry that INDEX names. -/
def trimIndex (k : Nat) : Option (Fin 5) := if h : k < 5 then some ⟨k, h⟩ else none

/-- R289 CH.ADC_TRIM. -/
def AdcS.trimWord (a : AdcS) : Word :=
  match trimIndex a.trimIdx with
  | some i => pack [(29, 3, a.trimIdx), (28, 1, b2n a.trim[i].azValid), (16, 12, a.trim[i].gain.toNat),
      (0, 12, a.trim[i].ofs.toNat)]
  | none => pack [(29, 3, a.trimIdx)]

/-- R258 a trim entry written at DTIME `t` serves the conversions of the running slot that have not begun. -/
def SlotRun.newTrim (s : SlotRun) (t : Nat) (i : Fin 5) (m : Trim) : SlotRun :=
  let from' := s.start + (if i.val < 2 then 0 else if i.val < 4 then 200 else 400)
  if t < from' then { s with trim := s.trim.set i m } else s

/-- R289 ADC_TRIM as a write leaves it. -/
def AdcS.setTrim (a : AdcS) (v : Word) : AdcS :=
  let k := fld v 31 29
  match trimIndex k with
  | some i => { a with
      trimIdx := k
      trim := a.trim.set i { gain := BitVec.ofNat 12 (fld v 27 16), ofs := BitVec.ofNat 12 (fld v 11 0), azValid := false } }
  | none => { a with trimIdx := k }

/-- R258, R289 a write of ADC_TRIM. -/
def ChR.writeTrim (r : ChR) (v : Word) : ChR :=
  let r := r.adc (fun a => a.setTrim v)
  match trimIndex (fld v 31 29) with
  | some i => r.adc (fun a => { a with slot := a.slot.map (fun s => s.newTrim r.env.t i a.trim[i]) })
  | none => r

/-- R290 CH.ADC_WIN. -/
def AdcS.winWord (a : AdcS) : Word :=
  let i : Fin 4 := ⟨a.winIdx % 4, Nat.mod_lt _ (by decide)⟩
  pack [(30, 2, a.winIdx), (0, 30, a.win[i].cfg.toNat)]

/-- R275, R290 a write of ADC_WIN: the window is left disarmed with WIN_OUT clear. -/
def AdcS.writeWin (a : AdcS) (v : Word) : AdcS :=
  let i : Fin 4 := ⟨fld v 31 30 % 4, Nat.mod_lt _ (by decide)⟩
  { a with winIdx := i, win := a.win.set i (Window.judge a.winHyst
      { cfg := BitVec.ofNat 30 (v &&& 0x3CFFFFFF#32).toNat, armed := false, out := false, dead := false }) }

/-! ### Position (R322 to R327) -/

/-- R323, R295 a write of POS_CFG. -/
def ChR.writePosCfg (r : ChR) (v : Word) : ChR :=
  r.setRwl r.c.pos.cfg v 0xFFFFFFFF#32 (fun w r =>
    let resets := fld (r.c.pos.cfg ^^^ w) 31 29 ≠ 0
    let r := r.pos (fun p => { p with cfg := w })
    if resets then r.pos PosS.resetState else r)

/-- R324, R295 a write of POS_CPR. -/
def ChR.writePosCpr (r : ChR) (v : Word) : ChR :=
  r.setRwl r.c.pos.cpr v 0xFFFFFFFF#32 (fun w r =>
    let changes := decide (r.c.pos.cpr ≠ w)
    let r := r.pos (fun p => { p with cpr := w })
    if changes then r.pos PosS.resetState else r)

/-- R307, R325 a write of POS_INDEX. -/
def ChR.writePosIndex (r : ChR) (v : Word) : ChR :=
  let r := r.setRwl (BitVec.ofNat 32 r.c.pos.indexPos) v 0x7FFFFFFF#32 (fun w r => r.pos (fun p => { p with indexPos := w.toNat }))
  if bitOf v 31 then r.pos (fun p => { p with acquire := true, referenced := false, errRun := 0, slip := 0 }) else r

/-! ### Field control (R366 to R370) -/

/-- R368 the parameter that INDEX names. -/
def fcuIndex (k : Nat) : Option (Fin 34) := if h : k < 34 then some ⟨k, h⟩ else none

/-- R368 CH.FCU_PARAM. -/
def FcuS.parWord (f : FcuS) : Word :=
  pack [(26, 6, f.parIdx), (0, 24, match fcuIndex f.parIdx with
    | some i => f.par[i]
    | none => 0)]

/-- R368 the entry as it stands and as a write would leave it. -/
def FcuS.writePar (f : FcuS) (v : Word) : FcuS :=
  let k := fld v 31 26
  match fcuIndex k with
  | some i => { f with parIdx := k, par := f.par.set i (fld v 23 0) }
  | none => { f with parIdx := k }

/-- R368 a write of FCU_PARAM. -/
def ChR.writeFcuPar (r : ChR) (v : Word) : ChR :=
  if r.c.rwlOpen then r.fcu (fun f => f.writePar v)
  else r.countDrop ((r.c.fcu.writePar v).par ≠ r.c.fcu.par || (r.c.fcu.writePar v).parIdx ≠ r.c.fcu.parIdx)

/-! ### Protection and thermal model (R465 to R471) -/

/-- R466 the entry that INDEX names. -/
def mapIndex (k : Nat) : Option (Fin 11) := if h : k < 11 then some ⟨k, h⟩ else none

/-- R446, R466 the writable bits of an entry. -/
def mapMask (i : Nat) : Word :=
  match i with
  | 0 => 0x00FF03FF#32
  | 1 => 0x00FF03FF#32
  | 2 => 0x00FF03FF#32
  | 3 => 0x00FF03FF#32
  | 4 => 0x007F0000#32
  | 5 => 0#32
  | 6 => 0x007F0000#32
  | 7 => 0x007F0000#32
  | _ => 0x00FF0000#32

/-- R466 CH.FAULT_MAP. -/
def ProtS.mapWord (p : ProtS) : Word :=
  (match mapIndex p.mapIdx with
    | some i => p.map[i]
    | none => 0#32) ||| pack [(28, 4, p.mapIdx)]

/-- R466 protection as a write of FAULT_MAP leaves it. -/
def ProtS.writeMap (p : ProtS) (v : Word) : ProtS :=
  let k := fld v 31 28
  match mapIndex k with
  | some i => { p with mapIdx := k, map := p.map.set i (merge p.map[i] v (mapMask i)) }
  | none => { p with mapIdx := k }

/-- R466 a write of FAULT_MAP. -/
def ChR.writeMap (r : ChR) (v : Word) : ChR :=
  if r.c.rwlOpen then r.prot (fun p => p.writeMap v)
  else r.countDrop ((r.c.prot.writeMap v).map ≠ r.c.prot.map || (r.c.prot.writeMap v).mapIdx ≠ r.c.prot.mapIdx)

/-- R468 CH.PROT_OV1. -/
def ProtS.ovWord (p : ProtS) : Word := p.ov1 ||| pack [(31, 1, b2n p.chopFlt)]

/-- R468 a write of PROT_OV1. -/
def ChR.writeOv1 (r : ChR) (v : Word) : ChR :=
  let r := r.setRwl r.c.prot.ov1 v 0x7FFFFFFF#32 (fun w r => r.prot (fun p => { p with ov1 := w }))
  if bitOf v 31 then r.prot (fun p => { p with chopFlt := false }) else r

/-- R469 the parameter that INDEX names. -/
def thermIndex (k : Nat) : Option (Fin 16) := if h : k < 16 then some ⟨k, h⟩ else none

/-- R469 CH.THERM_PARAM. -/
def ThermS.parWord (m : ThermS) : Word :=
  pack [(26, 6, m.parIdx), (0, 24, match thermIndex m.parIdx with
    | some i => m.par[i]
    | none => 0)]

/-- R469 the model as a write of THERM_PARAM leaves it. -/
def ThermS.writePar (m : ThermS) (v : Word) : ThermS :=
  let k := fld v 31 26
  match thermIndex k with
  | some i => { m with parIdx := k, par := m.par.set i (fld v 23 0) }
  | none => { m with parIdx := k }

/-- R469 a write of THERM_PARAM. -/
def ChR.writeTherm (r : ChR) (v : Word) : ChR :=
  if r.c.rwlOpen then r.therm (fun m => m.writePar v)
  else r.countDrop ((r.c.therm.writePar v).par ≠ r.c.therm.par || (r.c.therm.writePar v).parIdx ≠ r.c.therm.parIdx)

/-! ### Performance sampling (R748) -/

/-- R743, R748 a write of PERF_CFG; setting TAG_EN starts SEQ anew. -/
def ChR.writePerfCfg (r : ChR) (v : Word) : ChR :=
  let starts := bitOf v 31 && !bitOf r.c.tag.cfg 31
  let r := r.tag (fun g => { g with cfg := v &&& 0x8000FFFF#32 })
  if starts then r.tag (fun g => { g with seq := 0, left := g.interval r.env.free }) else r

/-! ### The block -/

/-- R150 a word of a channel block. A read depends on the channel, on DTIME and on REFA as the time unit sees it. -/
def Chan.readReg (c : Chan) (x : TimeS) (t off : Nat) : Word :=
  match off with
  | 0x000 => c.stateWord
  | 0x004 => c.core.config
  | 0x008 => c.core.plugWord
  | 0x00C => BitVec.ofNat 32 c.core.rwlDrop
  | 0x010 => c.core.motorRs
  | 0x014 => c.core.motorLs
  | 0x018 => c.core.identCfg
  | 0x01C => c.core.identRs
  | 0x020 => c.core.identLs
  | 0x100 => c.tb.ctrlWord
  | 0x104 => c.tb.bandWord t
  | 0x108 => c.tb.profile
  | 0x10C => c.tbStatus x t
  | 0x110 => BitVec.ofNat 32 c.tb.anchor
  | 0x200 => c.pwm.cfgWord
  | 0x204 => c.pwm.dt
  | 0x208 => c.pwm.minpw
  | 0x20C => c.pwm.profile
  | 0x210 => c.pwm.bsr
  | 0x214 => c.pwm.status
  | 0x300 => c.adc.cfg
  | 0x304 => c.adc.cmpA
  | 0x308 => c.adc.cmpB
  | 0x30C => c.adc.trimWord
  | 0x310 => c.adc.winWord
  | 0x314 => c.adc.status
  | 0x400 => c.pos.cfg
  | 0x404 => c.pos.cpr
  | 0x408 => BitVec.ofNat 32 c.pos.indexPos
  | 0x40C => BitVec.ofNat 32 c.pos.count
  | 0x410 => c.pos.status
  | 0x500 => c.fcu.cfg
  | 0x504 => c.fcu.parWord
  | 0x508 => c.fcuStatus t
  | 0x600 => pack [(31, 1, b2n c.nle.loaded), (8, 16, c.nle.progId), (0, 4, c.nle.lateMax)]
  | 0x604 => c.nle.status
  | 0x608 => c.nle.fe
  | 0x700 => c.prot.mapWord
  | 0x704 => c.prot.retry
  | 0x708 => c.prot.ovWord
  | 0x70C => c.therm.parWord
  | 0x710 => c.therm.status
  | 0x714 => c.protStatus
  | 0x800 => c.tag.cfg
  | _ => 0

/-- R17, R18 the owner's write of 32 bits; RO registers and empty offsets drop it. -/
def ChR.writeReg (r : ChR) (off : Nat) (v : Word) : ChR :=
  let c := r.c
  match off with
  | 0x004 => r.setRwl c.core.config v 0x001FFF1F#32 (fun w r => r.core (fun c => { c with config := w }))
  | 0x008 => r.writePlug v
  | 0x010 => r.writeProfile false v
  | 0x014 => r.writeProfile true v
  | 0x018 => r.core (fun c => { c with identCfg := merge c.identCfg v 0xFF003FFF#32 })
  | 0x100 => r.writeTbCtrl v
  | 0x104 => r.writeTbBand v
  | 0x108 => r.setReg c.tb.profile v 0x0000FF00#32 0xFFFF00FF#32 (fun w r => r.setProfile w)
  | 0x200 => r.writePwmCfg v
  | 0x204 => r.setRwl c.pwm.dt v 0x0FFF0FFF#32 (fun w r => r.pwm (fun p => { p with dt := w }))
  | 0x208 => r.setRwl c.pwm.minpw v 0x80000FFF#32 (fun w r => r.pwm (fun p => { p with minpw := w }))
  | 0x20C => r.setRwl c.pwm.profile v 0xFFFFFFFF#32 (fun w r => r.pwm (fun p => { p with profile := w }))
  | 0x210 => r.setRwl c.pwm.bsr v 0x000FFFFF#32 (fun w r => r.pwm (fun p => { p with bsr := w }))
  | 0x214 => r.pwm (fun p => { p with flags := w1c p.flags v 0xF71#32 })
  | 0x300 => r.setRwl c.adc.cfg v 0xFFFFEFFF#32 (fun w r => r.adc (fun a => { a with cfg := w }))
  | 0x304 => r.writeCmpA v
  | 0x308 => r.writeCmpB v
  | 0x30C => r.writeTrim v
  | 0x310 => r.adc (fun a => a.writeWin v)
  | 0x314 => r.adc (fun a => { a with flags := w1c a.flags v 0x000C0003#32 })
  | 0x400 => r.sampleFirst.writePosCfg v
  | 0x404 => r.sampleFirst.writePosCpr v
  | 0x408 => r.sampleFirst.writePosIndex v
  | 0x410 => r.sampleFirst.pos (fun p => { p with flags := w1c p.flags v 0xF0#32 })
  | 0x500 => r.setRwl c.fcu.cfg v 0xFFFF0000#32 (fun w r => r.fcu (fun f => { f with cfg := w }))
  | 0x504 => r.writeFcuPar v
  | 0x508 => if bitOf v 19 then r.fcu (fun f => { f with vSat := false }) else r
  | 0x600 => r.setRwl (BitVec.ofNat 32 c.nle.lateMax) v 0xF#32 (fun w r => r.nle (fun e => { e with lateMax := w.toNat % 16 }))
  | 0x604 => r.nle (fun e => { e with flags := w1c e.flags v 0x1F#32 })
  | 0x608 => r.setRwl c.nle.fe v 0xFFFFFFFF#32 (fun w r => r.nle (fun e => { e with fe := w }))
  | 0x700 => r.writeMap v
  | 0x704 => r.setRwl c.prot.retry v 0xFFFFFFFF#32 (fun w r => r.prot (fun p => { p with retry := w }))
  | 0x708 => r.writeOv1 v
  | 0x70C => r.writeTherm v
  | 0x800 => r.writePerfCfg v
  | _ => r

end Sys2Proof.Machine
end

