-- ==== Sys2Proof/Machine/Storage.lean ====
section
/-! DEFINITION. The storage ports: S1's image banks and commands, and the storage loop-back (R674 to R677, R735). -/
namespace Sys2Proof.Machine

/-- The storage ports changed. -/
def State.onStor (s : State) (f : StorS → StorS) : State := { s with stor := f s.stor }

/-- A byte of the S1 medium; an erased one reads 0xFF. -/
def StorS.byte (m : StorS) (a : Nat) : Byte := Cells.get 0xFF m.s1 a

/-- `n` bytes of the S1 medium. -/
def StorS.bytes (m : StorS) (a n : Nat) : List Byte := (List.range n).map fun i => m.byte (a + i)

/-- R677 density of S1 in bytes, as S1_INFO reports it. -/
def StorS.density (m : StorS) : Nat := 2 ^ fld m.s1Info 4 0

/-! ### Image banks (R675) -/

/-- R675 the SE section of a bank that is usable, with the bank's SEQ. -/
def StorS.bank (m : StorS) (base size : Nat) : Option (Nat × List Byte) :=
  let num (a n : Nat) : Nat := ofBytes (m.bytes (base + a) n)
  let n := num 8 2
  if num 0 4 ≠ 0x49533931 ∨ n = 0 ∨ 16 < n then none
  else if crc32c (m.bytes base (10 + 12 * n)) ≠ num (10 + 12 * n) 4 then none
  else
    match (List.range n).find? (fun i => num (10 + 12 * i) 4 == 1) with
    | none => none
    | some i =>
      let off := num (14 + 12 * i) 4
      let len := num (18 + 12 * i) 4
      if size < off + len then none
      else
        let sec := m.bytes (base + off) len
        match seCheck false (some sec) with
        | .inl 1 => none
        | .inl 2 => none
        | _ => some (num 4 4, sec)

/-- R675 the bank used at start: the later SEQ, as a serial number, and bank A on a tie. -/
def StorS.choose (m : StorS) : Option (Bool × Nat × List Byte) :=
  let half := m.density / 2
  match m.bank 0 half, m.bank half half with
  | some (a, x), some (b, y) =>
    let d := (b + 4294967296 - a) % 4294967296
    if 0 < d ∧ d < 2147483648 then some (true, b, y) else some (false, a, x)
  | some (a, x), none => some (false, a, x)
  | none, some (b, y) => some (true, b, y)
  | none, none => none

/-! ### Commands (R676) -/

/-- R677 OP of S1_CMD. -/
def s1Op (w : Word) : Nat := fld w 31 30

/-- R677 ADDR of S1_CMD; address bits above the density are ignored. -/
def StorS.addr (m : StorS) : Nat := fld m.s1Cmd 28 0 % m.density

/-- R676 the ERR of a command: 1 the bank in use, 2 misaligned. -/
def StorS.cmdErr (m : StorS) : Nat :=
  if m.bankUsed && (decide (m.density / 2 ≤ m.addr) == m.bankB) then 1
  else if m.addr % (if s1Op m.s1Cmd = 3 then 4096 else 256) ≠ 0 then 2
  else 0

/-- R677, R735 S1_STATUS.BUSY. -/
def StorS.busy (m : StorS) : Bool := m.s1Busy || (m.lbBusy && m.lbPort)

/-- R676 S1_CMD written. -/
def StorS.command (m : StorS) (v : Word) : StorS :=
  if m.busy then m
  else
    let m := { m with s1Cmd := v &&& 0xDFFFFFFF#32 }
    if s1Op v = 0 then m
    else if m.cmdErr ≠ 0 then { m with s1Err := m.cmdErr }
    else { m with s1Busy := true, s1Err := 0 }

/-- R676 the command in progress ends. -/
def StorS.commandDone (m : StorS) (ok : Bool) : StorS :=
  if !m.s1Busy then m
  else if !ok then { m with s1Busy := false, s1Err := 3 }
  else
    let a := m.addr
    let m := { m with s1Busy := false }
    match s1Op m.s1Cmd with
    | 1 => { m with s1Buf := Vector.ofFn (fun (i : Fin 256) => m.byte (a + i)) }
    | 2 => { m with s1 := Cells.setAll 0xFF m.s1 a m.s1Buf.toList }
    | 3 => { m with s1 := m.s1.filter (fun x => x.1 / 4096 != a / 4096) }
    | _ => m

/-- R676, S1_COMMAND_DONE. -/
def execS1CommandDone (t : Nat) (ok : Bool) (s : State) : Result :=
  s.mainCmd t fun s => s.onStor fun m => m.commandDone ok

/-! ### Loop-back (R735) -/

/-- R735 a START on a port is refused. -/
def State.lbRefused (s : State) (s1 : Bool) : Bool :=
  if s1 then s.stor.busy else s.dev.variantAc || (s.recorder.extended && s.recorder.ready)

/-- R735 TEST.STOR_LB written. -/
def State.writeStorLb (s : State) (v : Word) : State :=
  let s := s.onStor fun m => { m with lbCfg := merge m.lbCfg v 0x130#32 }
  let s1 := bitOf s.stor.lbCfg 8
  if !bitOf v 31 || s.stor.lbBusy then s
  else if s.lbRefused s1 then s.onStor fun m => { m with lbResult := 3 }
  else s.onStor fun m => { m with lbBusy := true, lbPort := s1, lbResult := 0 }

/-- R735, STOR_LB_DONE. -/
def execStorLbDone (t : Nat) (pass : Bool) (s : State) : Result :=
  s.mainCmd t fun s =>
    if s.stor.lbBusy then s.onStor fun m => { m with lbBusy := false, lbResult := if pass then 1 else 2 } else s

/-! ### Registers (R677, R735) -/

/-- R677 a word of the STORAGE block, at an offset from 0x05_3000. -/
def StorS.read (m : StorS) (off : Nat) : Word :=
  if 0x100 ≤ off ∧ off < 0x200 then
    BitVec.ofNat 32 (ofBytes ((m.s1Buf.toList.drop (off - 0x100)).take 4))
  else match off with
    | 0x00 => m.s0Cfg
    | 0x04 => m.s0Info
    | 0x08 => m.s1Cfg
    | 0x0C => m.s1Info
    | 0x10 => m.s1Cmd
    | 0x14 => pack [(31, 1, b2n m.busy), (28, 3, m.s1Err), (24, 1, b2n m.bankB), (0, 16, m.seq)]
    | _ => 0

/-- R677 a word of the STORAGE block written. -/
def StorS.write (m : StorS) (off : Nat) (v : Word) : StorS :=
  if 0x100 ≤ off ∧ off < 0x200 then
    { m with s1Buf := Vector.ofFn (fun (i : Fin 256) =>
      if off - 0x100 ≤ i ∧ (i : Nat) < off - 0x100 + 4 then BitVec.ofNat 8 (v.toNat / 256 ^ (i - (off - 0x100)))
      else m.s1Buf[i]) }
  else match off with
    | 0x00 => { m with s0Cfg := v &&& 0xFF#32 }
    | 0x08 => { m with s1Cfg := v &&& 0xFF#32 }
    | 0x10 => m.command v
    | _ => m

/-- R735 TEST.STOR_LB as it reads. -/
def StorS.lbWord (m : StorS) : Word := m.lbCfg ||| pack [(30, 1, b2n m.lbBusy), (0, 2, m.lbResult)]

end Sys2Proof.Machine
end

