-- ==== Sys2Proof/Machine/Start.lean ====
section
/-! DEFINITION. Start, shut-down, self-test and standby (chapter 19). -/
namespace Sys2Proof.Machine

/-- R726 an event of the device. -/
def State.devEvent (s : State) (code : Nat) (data : List EvField) : State := s.raiseAll code devUnit s.dtime data

/-! ### Start (R703 to R709) -/

/-- R705 causes 0 and 1 count a power cycle. -/
def AonS.began (a : AonS) (cause : Nat) : AonS :=
  { a with
    pcycle := if cause < 2 then satInc 0xFFFFFFFF a.pcycle else a.pcycle
    lastReset := if cause = 3 then a.lastReset else 0
    selfTest := { a.selfTest with result := 0 } }

/-- R704, R706 a tadpole start is permitted. -/
def tadpole (a : AonS) (boot : Fin 4) (cause : Nat) : Bool :=
  a.selfTest.result == 1 && !a.aonLost && boot == 0 && decide (cause < 3)

/-- R706 to R708, R722 to R725 the DEV block as steps 2 to 4 of a start leave it. -/
def startDev (d : DevS) (a : AonS) (x : StartInputs) (cause : Nat) : DevS :=
  let full := !tadpole a x.bootMode cause
  let v := x.test
  let bad := v.clFail != 0 || v.sharedFail != 0
  { variantAc := d.variantAc
    phase := .starting
    admin := x.admin
    seSplit := x.seSplit
    recCfg := x.recCfg
    bootMode := x.bootMode
    full := full
    cause := cause
    wakeKey := if cause = 1 then d.wakeKey else 7
    shutRes := a.selfTest.result
    startRes := if full then (if bad then 2 else 1) else 0
    sharedFail := if full then v.sharedFail else 0
    clFail := if full then v.clFail else 0
    portFail := if full && v.sharedFail.getLsbD 3 then v.portFail else 0
    found := a.selfTest
    startMs := if full then v.ms else 0 }

/-- R36, R37, R52 the time unit at step 3 of a start: DTIME 0, calendar time from the always-on clock, REFA edges counted from
here. -/
def startTime (clock kHz : Nat) : TimeS :=
  let ok := decide (10000 ≤ kHz) && decide (kHz ≤ 50000)
  { refaOk := ok, refaRange := !ok && kHz != 0, refaFreq := if ok then kHz else 0, refaKHz := if ok then kHz else 25000,
    calOffset := clock }

/-- R143, R154 a channel as a start leaves it: the debounce begins at once where the pin is asserted. -/
def startChan (asserted : Bool) : Chan :=
  let c : Chan := {}
  { c with core := { c.core with plugPin := asserted, debounce := if asserted then some 0 else none } }

/-- R674, R677 Sn_INFO of a medium: size, mode, and the lower of its clock and MAX_MHZ. -/
def mediumInfo (m : Medium) (cfg : Word) : Word :=
  if m.err = 0 then
    pack [(0, 5, m.log2), (5, 3, m.mode), (8, 8, if m.mode ≤ 1 then 25 else min m.clock (clampNat 25 200 (fld cfg 7 0)))]
  else 0

/-- R5, R674, R709 the storage ports brought up. -/
def State.storStart (s : State) (x : StartInputs) : State :=
  if s.dev.sharedFail.getLsbD 5 then s
  else s.onStor fun m => { m with
    s1Info := mediumInfo x.s1 m.s1Cfg
    s0Info := if s.dev.variantAc then 0 else mediumInfo x.s0 m.s0Cfg }

/-- R587, R675, R704, R709 the SE section loaded from the bank in use. -/
def State.seStart (s : State) : State :=
  if s.dev.bootMode = 2 ∨ s.dev.sharedFail.getLsbD 0 = true then s
  else if s.dev.sharedFail.getLsbD 5 ∨ s.stor.s1Info = 0 then s.seLoad none
  else match s.stor.choose with
    | some (b, seq, sec) => (s.onStor fun m => { m with bankUsed := true, bankB := b, seq := seq }).seLoad (some sec)
    | none => s.seLoad none

/-- R687 basking resumes: the shutdown stamp on DTIME, from the always-on clock. -/
def startHk (a : AonS) (clock : Nat) : HkS := { basking := a.basking, shut := a.basking, shutAt := (a.bask : Int) - clock }

/-- R707 steps 1 to 6. -/
def State.begin' (s : State) (x : StartInputs) (cause : Nat) : State :=
  let clock := aonStep (max x.clock s.aon.clock)
  let c := s.cleared
  let s : State := { c with
    dev := startDev s.dev s.aon x cause
    aon := { s.aon.began cause with clock := clock, clockAt := 0 }
    time := startTime clock x.refaKHz
    hk := startHk s.aon clock
    chans := Vector.ofFn fun (n : Fin 128) => startChan (x.plugs.getLsbD n) }
  let s := (s.storStart x).seStart
  let s := s.recStart x.s0
  if cause = 3 then s.hkEvent 0x5011 [u8 16 s.aon.lastReset] else s

/-- R707, START: VAUX has entered its window for the cause that is due. -/
def execStart (t : Nat) (x : StartInputs) (s : State) : Result :=
  let s := s.at t
  .next (match s.dev.due with
    | some cause => if s.dev.phase = .off ∧ s.sup.ctl = .running then s.begin' x cause else s
    | none => s)

/-- R659, R726 SELFTEST_RESULT of a shut-down record: its record carries the test's own operating time and power cycle. -/
def State.foundEvent (s : State) : State :=
  let f := s.dev.found
  if f.result = 0 then s
  else
    let data := [u8 16 0, u8 17 f.result, u8 18 f.clFail.toNat, u8 19 f.sharedFail.toNat, u32 20 f.ms]
    let e : Ev := { code := 0x7002, unit := devUnit, epoch := 0, stamp := s.dtime, data := data }
    let x := s.recOf true 0x7002 devUnit 0 s.dtime 0 data
    let (s, ok) := s.queueRec { x with stamp := f.optime + 2 ^ 32 * f.pcycle }
    s.listening.foldl (fun s p => s.deliver ok e p) s

/-- R726 SELFTEST_RESULT of a start test that ran. -/
def State.startTestEvent (s : State) : State :=
  let d := s.dev
  if d.startRes = 0 then s
  else s.devEvent 0x7002 [u8 16 1, u8 17 d.startRes, u8 18 d.clFail.toNat, u8 19 d.sharedFail.toNat, u32 20 d.startMs]

/-- R707 step 7, R726 READY. -/
def State.ready (s : State) (tReady : Nat) : State :=
  let s := s.onDev fun d => { d with phase := .ready, tReady := min 65535 tReady, due := none }
  let d := s.dev
  ((s.foundEvent).startTestEvent.devEvent 0x7003
    [u8 16 (b2n d.full), u8 17 d.cause, u8 18 d.wakeKey, u8 19 d.shutRes, u32 20 tReady]).supEvents

/-- R707, START_READY: T_READY in ms from the entry of VAUX into its window. -/
def execStartReady (t : Nat) (tReady : Nat) (s : State) : Result :=
  let s := s.at t
  .next (if s.dev.phase = .starting ∧ (s.time.refaOk || s.time.holdover) = true then s.ready tReady else s)

/-! ### SHUTDOWN (R711 to R716) -/

/-- R724 BIST_CONC as it acts. -/
def DevS.bistConc (d : DevS) : Nat := clampNat 1 2 (fld d.shutCfg 1 0)

/-- R715 the planned self-test duration in ms. -/
def DevS.bistMs (d : DevS) : Nat := if d.bistConc = 1 then 440 else 260

/-- R712 a channel that SHUTDOWN without FORCE does not leave. -/
def Chan.shutBad (c : Chan) : Bool :=
  match c.core.code with
  | .off => false
  | .ready => false
  | .unplugged => false
  | .wrongMotor => false
  | .locked => c.stage4.1 == .on || c.stage4.2.1 == .on
  | _ => true

/-- R711 MODE RESTART. -/
def Desc.isRestart (d : Desc) : Bool := d.byte 24 == 1
/-- R711 SKIP_TEST. -/
def Desc.skipTest (d : Desc) : Bool := (d.byte 25).testBit 0
/-- R711 FORCE. -/
def Desc.force (d : Desc) : Bool := (d.byte 25).testBit 1

/-- R711 to R713 SHUTDOWN, step 1. -/
def shutdownExec : Exec where
  check s _ d :=
    if Desc.force d then none
    else firstFail [
      (match (List.finRange 128).find? (fun (n : Fin 128) => s.chans[n].shutBad) with
        | some n => some (stBadState, 0x8000 + n)
        | none => none),
      failIf (s.fpe.state != .idle) stBadState 0x0200]
  run s _ d :=
    let ms := if Desc.skipTest d then 0 else s.dev.bistMs
    let s := s.devEvent 0x7001 [u8 16 (b2n (Desc.isRestart d)), u8 17 (d.byte 25), u8 18 s.dev.bistConc, u32 20 ms]
    (s.onDev fun x => { x with phase := .shutdown, restart := Desc.isRestart d, testing := !Desc.skipTest d },
      .now stOk 0 ms)

/-- R713 step 2: fetched descriptors of one ring complete ABORTED; one that finds its ring full is lost. -/
def State.abortFetched (s : State) (q : SqRef) : State :=
  let r := s.sqAt q
  let fs := r.fetched
  let s := s.onSq q fun y => { y with fetched := [] }
  fs.foldl (fun s f =>
    let c := s.ports[q.port].cqs[r.cqId]
    if c.usable && c.hasSpace && (s.sqAt q).stalled.isEmpty then
      s.writeCompletion q.port r.cqId (f.completion q r.cfg s.dtime stAborted 0 0)
    else s) s

/-- R713 step 5: the recorder writes its queue and admits no more. -/
def State.recClose (s : State) : State :=
  (List.range 256).foldl (fun s _ => s.recordWrite true) (s.onRec fun r => { r with closed := true })

/-- R713 step 4: the present cycle runs to its end, with at most `k` more instructions; nothing runs while a debugger holds
it. -/
def State.seFinish : Nat → State → State
  | 0, s => s
  | k + 1, s =>
    match s.se.run with
    | none => s
    | some u =>
      if s.se.attached then s
      else State.seFinish k (s.seInstr (opOf (Cells.get 0 s.se.store (s.se.pcOf u))) { parity := false, compare := none })

/-- R713 step 4: the SE finishes its present cycle and runs no further one, and the output pairs turn off. -/
def State.seHalt (s : State) : State :=
  ((s.seFinish 1000000).onIo fun x => { x with so := x.so.map fun o => { o with demand := false } }).onSe
    (fun e => { e with run := none }) |>.soApplyAll

/-- R713 steps 2 to 7. -/
def State.shutSteps (s : State) : State :=
  let s := allRings.foldl State.abortFetched s
  let s := ({ s.seHalt with chans := State.reset.chans }).recClose
  let s := { s with ports := State.reset.ports, can := State.reset.can, fpe := State.reset.fpe }
  let mark (s : State) (result : Nat) : State := s.onAon fun a => { a with selfTest := { a.selfTest with result := result } }
  if !s.dev.testing || s.hk.basking || s.sup.pf then (mark s 4).shutEnd else mark s 3

/-- R713, SHUTDOWN. -/
def execShutdown (t : Nat) (q : SqRef) (s : State) : Result :=
  let s' := s.runDesc t q 0x7E 0 shutdownExec
  .next (if s'.dev.phase = .shutdown ∧ s.dev.phase ≠ .shutdown then s'.shutSteps else s')

/-- R716, SELFTEST_END: the verdict goes to the always-on domain; step 8 follows. -/
def execSelftestEnd (t : Nat) (v : Verdict) (s : State) : Result :=
  s.lastCmd t fun s =>
    if s.dev.testing then
      let pass := v.clFail == 0 && v.sharedFail == 0
      (s.onAon fun a => { a with selfTest := {
        result := if pass then 1 else 2, clFail := v.clFail, sharedFail := v.sharedFail, ms := v.ms, optime := a.optime,
        pcycle := a.pcycle } }).shutEnd
    else s

/-! ### Standby (R652, R718) -/

/-- R652, R718, WAKE_KEY: a wake key held low for 20 ms in standby starts the main supply; only what is held low once the off
latch is in force counts. -/
def execWakeKey (t : Nat) (k : Fin 6) (s : State) : Result :=
  let s := s.at t
  .next (if s.dev.phase = .off ∧ s.sup.ctl = .offLatch ∧ s.aon.wake.getLsbD k = true ∧ s.sup.heldAt + 20000000 ≤ s.dtime then
      (s.onSup fun p => { p with ctl := .running }).onDev fun d => { d with due := some 1, wakeKey := k }
    else s)

/-! ### Registers (R6, R721 to R725) -/

/-- R6, R74, R721 to R725 a word of the DEV block below the unit table. -/
def State.readDev (s : State) (off : Nat) : Word :=
  let d := s.dev
  match off with
  | 0x00 => pack [(16, 16, 0x9128), (12, 4, if d.variantAc then 2 else 1), (4, 8, 1), (3, 1, b2n (!d.variantAc))]
  | 0x04 => pack [(5, 2, d.bootMode), (4, 1, b2n d.recCfg), (3, 1, b2n d.seSplit), (0, 2, d.admin)]
  | 0x10 => pack [(31, 1, b2n d.full), (28, 3, d.cause), (25, 3, d.wakeKey), (0, 16, d.tReady)]
  | 0x14 => d.shutCfg
  | 0x18 => pack [(29, 3, d.shutRes), (27, 2, d.startRes), (16, 6, d.sharedFail.toNat), (0, 8, d.clFail.toNat)]
  | _ => 0

/-- R724 a word of the DEV block written. -/
def DevS.write (d : DevS) (off : Nat) (v : Word) : DevS :=
  match off with
  | 0x14 => { d with shutCfg := v &&& 3#32 }
  | _ => d

end Sys2Proof.Machine
end

