-- ==== Sys2Proof/Machine/Regs.lean ====
section
/-! DEFINITION. The register map (R12 to R21, R69 to R81, R769 to R776): what a BAR0 access of a port reads or writes, and
the commands that are register accesses. -/
namespace Sys2Proof.Machine

/-! ### Dropped writes (R21, R78 to R80) -/

/-- R21, R78, R80 a write that the owner rule or the RWA rule drops. -/
def State.nonowner (s : State) (p : PortId) (off : Nat) : State :=
  let s := s.onPort p fun x => { x with nonownerWr := satInc 65535 x.nonownerWr }
  let (ls, first) := limitHit s.limits devUnit (0x6002 + 65536 * (p.val + 1)) s.dtime
  let s := { s with limits := ls }
  if first.isSome then s.raisePort p 0x6002 devUnit s.dtime [u32 16 off, u8 20 p] else s

/-- R18, R21, R79 a write that takes effect only from the administrator port. -/
def State.adminWrite (s : State) (p : PortId) (off : Nat) (f : State → State) : State :=
  if s.admin = p then f s else s.nonowner p off

/-- R78 a write into the block of a bindable unit. -/
def State.ownerWrite (s : State) (p : PortId) (unit off : Nat) (f : State → State) : State :=
  if s.ownerOf unit = some p then f s else s.nonowner p off

/-! ### The HOST block (R69 to R71, R118, R121) -/

/-- Ring number of an offset in a group of 32 rings. -/
def ringNo (off : Nat) : Fin 32 := ⟨off / 0x20 % 32, Nat.mod_lt _ (by decide)⟩

/-- Entry number of an offset in the MSI-X table. -/
def msixNo (off : Nat) : Fin 64 := ⟨off / 16 % 64, Nat.mod_lt _ (by decide)⟩

/-- R69 BASE, CFG, TAIL and HEAD of an output ring. -/
def OutRing.read (r : OutRing) (k : Nat) : Word :=
  match k with
  | 0x00 => r.baseLo
  | 0x04 => r.baseHi
  | 0x08 => r.readCfg
  | 0x0C => pack [(0, 16, r.tail)]
  | 0x10 => pack [(0, 16, r.head)]
  | _ => 0

/-- R69, R92 a register of a submission ring. -/
def Sq.read (r : Sq) (k : Nat) : Word :=
  match k with
  | 0x00 => r.baseLo
  | 0x04 => r.baseHi
  | 0x08 => r.cfg ||| pack [(31, 1, b2n r.enabled), (28, 3, r.err)]
  | 0x0C => pack [(0, 16, r.head)]
  | 0x10 => pack [(0, 16, r.tail)]
  | _ => 0

/-- A word of an MSI-X table entry. -/
def Msix.read (m : Msix) (k : Nat) : Word :=
  match k with
  | 0 => m.addrLo
  | 1 => m.addrHi
  | 2 => m.data
  | _ => m.ctrl

/-- R69 to R71, R118 a word of the HOST block of port `p`, at an offset from 0x01_0000. -/
def State.readHost (s : State) (p : PortId) (off : Nat) : Word :=
  let x := s.ports[p]
  if off = 0x00 then pack [(2, 1, b2n (s.admin == p)), (0, 2, p)]
  else if off = 0x04 then x.control
  else if off = 0x08 then pack [(0, 16, x.nonownerWr)]
  else if off = 0x0C then pack [(0, 16, x.dbErr)]
  else if off = 0x10 then pack [(0, 16, x.evtLost)]
  else if 0x1000 ≤ off ∧ off < 0x1400 then (x.sqs[ringNo off]).read (off % 0x20)
  else if 0x2000 ≤ off ∧ off < 0x2400 then
    if off % 0x20 = 0x14 then (x.cqs[ringNo off]).coal else (x.cqs[ringNo off]).read (off % 0x20)
  else if 0x3000 ≤ off ∧ off < 0x3020 then x.eq.read (off % 0x20)
  else if 0x8000 ≤ off ∧ off < 0x8400 then (x.msix[msixNo off]).read (off / 4 % 4)
  else if off = 0x9000 then BitVec.ofNat 32 x.pba.toNat
  else if off = 0x9004 then BitVec.ofNat 32 (x.pba.toNat / 2 ^ 32)
  else 0

/-- R121 an MSI-X entry unmasked while its message is pending sends it. -/
def State.msixUnmasked (s : State) (p : PortId) (v : Fin 64) : State :=
  if !s.ports[p].masked v && s.ports[p].pba.getLsbD v then
    (s.onPort p fun x => { x with pba := x.pba &&& ~~~(1#64 <<< v.val) }).sendMsix p v.val
  else s

/-- R121 a word of an MSI-X table entry written. -/
def Msix.write (m : Msix) (k : Nat) (v : Word) : Msix :=
  match k with
  | 0 => { m with addrLo := v }
  | 1 => { m with addrHi := v }
  | 2 => { m with data := v }
  | _ => { m with ctrl := v &&& 1#32 }

/-- R95 BASE_LO or BASE_HI of a submission ring written. -/
def Sq.writeBase (r : Sq) (hi : Bool) (v : Word) : Sq :=
  if r.enabled then r else if hi then { r with baseHi := v } else { r with baseLo := v }

/-- R69, R71, R92 to R95, R118, R119, R121 a word of the HOST block of port `p` written; a write of COAL lets the ring's
interrupt condition be evaluated anew. -/
def State.writeHost (s : State) (p : PortId) (off : Nat) (v : Word) (got : Fetch) : State :=
  let k := off % 0x20
  if off = 0x04 then s.onPort p fun x => { x with control := v &&& 1#32 }
  else if 0x1000 ≤ off ∧ off < 0x1400 then
    let q : SqRef := { port := p, sq := ringNo off }
    if k = 0 then s.onSq q fun r => r.writeBase false v
    else if k = 4 then s.onSq q fun r => r.writeBase true v
    else if k = 8 then s.writeSqCfg q v got
    else s
  else if 0x2000 ≤ off ∧ off < 0x2400 then
    let c := ringNo off
    let on (f : OutRing → OutRing) : State := s.onPort p fun x => { x with cqs := x.cqs.set c (f x.cqs[c]) }
    if k = 0 then on fun r => r.writeBase false v
    else if k = 4 then on fun r => r.writeBase true v
    else if k = 8 then s.writeCqCfg p c v
    else if k = 0x14 then (on fun r => { r with coal := v &&& 0xFFFF00FF#32 }).irqCq p c
    else s
  else if off = 0x3000 then s.onPort p fun x => { x with eq := x.eq.writeBase false v }
  else if off = 0x3004 then s.onPort p fun x => { x with eq := x.eq.writeBase true v }
  else if off = 0x3008 then s.onPort p fun x => { x with eq := x.eq.writeCfg v }
  else if 0x8000 ≤ off ∧ off < 0x8400 then
    let e := msixNo off
    (s.onPort p fun x => { x with msix := x.msix.set e ((x.msix[e]).write (off / 4 % 4) v) }).msixUnmasked p e
  else s

/-! ### Reads (R12 to R17, R81, R745, R769, R770, R775, R776) -/

/-- R77 a word of the unit table. -/
def UnitS.word (u : UnitS) : Word :=
  pack [(16, 16, u.epoch), (8, 8, u.role), (2, 1, b2n u.owner.isSome), (0, 2, match u.owner with
    | some p => p.val
    | none => 0)]

/-- R776 the low halves of the latched pairs. -/
def pairLow (off : Nat) : Bool :=
  off == 0x040010 || off == 0x054010 || off == 0x054018 || off == 0x054020 ||
  (decide (0x060000 ≤ off ∧ off < 0x070000) && perfPair (off - 0x060000))

/-- R744, R746, R747 a word of the PERF and TEST block that is no counter, at an offset from 0x06_0000. -/
def State.readPerf (s : State) (p : PortId) (off : Nat) : Word :=
  if off = 0 then s.perf.ctrl
  else if off = 0x04 then BitVec.ofNat 32 s.perf.bwSeq
  else if off = 0x400 then s.ports[p].tagSel
  else if h : 0x404 ≤ off ∧ off < 0x424 then s.ports[p].tagCopy[(off - 0x404) / 4]'(by omega)
  else if off = 0x1000 then s.stor.lbWord
  else if perfPair off then BitVec.ofNat 32 (s.perfCount off)
  else 0

/-- A channel as its registers show it: the pattern of a position loop-back has come as far as DTIME has (R320). -/
def State.chanNow (s : State) (n : ChanId) : Chan := ((s.chanIn n).pattern s.dtime).c

/-- R769 the word at an offset, as it stands: the low half of a pair and no latch. -/
def State.word (s : State) (p : PortId) (off : Nat) : Word :=
  match off / 0x10000 with
  | 0x00 =>
    if h : 0x1000 ≤ off ∧ off < 0x1244 then (s.units[(off - 0x1000) / 4]'(by omega)).word else s.readDev off
  | 0x01 => s.readHost p (off - 0x010000)
  | 0x02 => s.fpe.read (off - 0x020000)
  | 0x03 => s.readCan ⟨off / 0x1000 % 16, Nat.mod_lt _ (by decide)⟩ (off % 0x1000)
  | 0x04 => if off < 0x048000 then s.readSe (off - 0x040000) else s.readSafeIo (off - 0x048000)
  | 0x05 => match off / 0x1000 % 16 with
    | 0 => s.recorder.read (off % 0x1000)
    | 1 => s.readHk (off % 0x1000)
    | 2 => s.readSupply (off % 0x1000)
    | 3 => if s.dev.variantAc && decide (off % 0x1000 < 8) then 0 else s.stor.read (off % 0x1000)
    | 4 => s.readTime (off % 0x1000)
    | _ => 0
  | 0x06 => s.readPerf p (off - 0x060000)
  | _ =>
    if h : 0x100000 ≤ off ∧ off < 0x180000 then
      (s.chanNow ⟨(off - 0x100000) / 0x1000, by omega⟩).readReg s.time s.dtime (off % 0x1000)
    else 0

/-- R14, R741 the high half of the pair whose low half is at `off`, as it stands. -/
def State.highHalf (s : State) (p : PortId) (off : Nat) : Word :=
  if off / 0x10000 = 0x06 then pack [(16, 16, s.dtimeTag), (0, 16, s.perfCount (off - 0x060000) / 2 ^ 32)]
  else s.word p (off + 4)

/-- R14, R15, R744, R775 an aligned read of 32 bits: its value, and the latch it sets. -/
def State.readAt (s : State) (p : PortId) (off : Nat) : State × Word :=
  if pairLow off then
    (s.onPort p fun x => { x with latches := Cells.set 0 x.latches off (s.highHalf p off) }, s.word p off)
  else if off = 0x060404 then
    let s := s.latchTag p
    (s, s.ports[p].tagCopy[0])
  else if 4 ≤ off ∧ pairLow (off - 4) = true then (s, Cells.get 0 s.ports[p].latches (off - 4))
  else (s, s.word p off)

/-- R745 an offset of the user page. -/
def userPage (off : Nat) : Bool := decide (0x06F000 ≤ off ∧ off < 0x070000)

/-- R12, R13, R745 a read of BAR0. -/
def State.barRead (s : State) (p : PortId) (off : Nat) : State × Word :=
  if off % 4 ≠ 0 ∨ portOptions.bar0Bytes ≤ off then (s, 0)
  else if userPage off then
    let o := off - 0xF000
    if bitOf s.perf.ctrl (16 + p.val) && o != 0x060000 && o != 0x060400 then s.readAt p o else (s, 0)
  else s.readAt p off

/-! ### Writes (R12, R17 to R21, R78, R79, R769 to R771) -/

/-- R747, R744, R771 a word of the PERF and TEST block written. -/
def State.writePerf (s : State) (p : PortId) (off : Nat) (v : Word) : State :=
  match off with
  | 0x060000 => s.adminWrite p off fun s => s.writePerfCtrl v
  | 0x060400 => s.onPort p fun x => { x with tagSel := v &&& 0x7F#32 }
  | 0x061000 => s.adminWrite p off fun s => s.writeStorLb v
  | _ => s

/-- R79 the writable words of the REC, HK, SUPPLY, STORAGE and TIME blocks, as offsets from 0x05_0000. -/
def adminWord (off : Nat) : Bool :=
  [0x0004, 0x1004, 0x2004, 0x2040, 0x3000, 0x3008, 0x3010, 0x4000, 0x4004].contains off ||
  decide (0x3100 ≤ off ∧ off < 0x3200)

/-- R79 a word of one of those blocks written by the administrator port. -/
def State.writeAdmin (s : State) (off : Nat) (v : Word) : State :=
  match off / 0x1000 with
  | 0 => s.onRec fun r => r.writeLimit s.dtime v
  | 1 => s.onHk fun h => h.writeCtrl v
  | 2 => s.onSup fun p => p.write (off % 0x1000) v
  | 3 => s.onStor fun m => m.write (off % 0x1000) v
  | 4 => s.writeTime (off % 0x1000) v
  | _ => s

/-- R769 an aligned write of 32 bits at an offset of BAR0; `got` is what disabling a submission ring reads (R103). -/
def State.regWrite (s : State) (p : PortId) (off : Nat) (v : Word) (got : Fetch) : State :=
  match off / 0x10000 with
  | 0x00 => if off = 0x14 then s.adminWrite p off fun s => s.onDev fun d => d.write off v else s
  | 0x01 => s.writeHost p (off - 0x010000) v got
  | 0x02 => s.ownerWrite p fpeUnit off fun s => s.writeFpe (off - 0x020000) v
  | 0x03 =>
    let k : CanId := ⟨off / 0x1000 % 16, Nat.mod_lt _ (by decide)⟩
    s.ownerWrite p (canUnit k) off fun s => s.writeCan k (off % 0x1000) v
  | 0x04 => s
  | 0x05 => if adminWord (off - 0x050000) then s.adminWrite p off fun s => s.writeAdmin (off - 0x050000) v else s
  | 0x06 => s.writePerf p off v
  | _ =>
    if h : 0x100000 ≤ off ∧ off < 0x180000 then
      let n : ChanId := ⟨(off - 0x100000) / 0x1000, by omega⟩
      s.ownerWrite p (chUnit n) off fun s => s.chan n fun r => r.writeReg (off % 0x1000) v
    else s

/-- R12, R13 a write of BAR0; `got` is what disabling a submission ring reads (R103). -/
def State.barStore (s : State) (p : PortId) (off : Nat) (v : Word) (got : Fetch) : State :=
  if off % 4 ≠ 0 ∨ portOptions.bar0Bytes ≤ off then s else s.regWrite p off v got

/-- R12, R13 a write of BAR0 that disables no submission ring. -/
def State.barWrite (s : State) (p : PortId) (off : Nat) (v : Word) : State := s.barStore p off v (.arrived [])

/-! ### The commands -/

/-- R78, REGISTER_WRITE. -/
def execRegisterWrite (t : Nat) (port : PortId) (off : Nat) (x : WriteData) (s : State) : Result :=
  s.barCmd t port fun s => s.barStore port off x.value x.got

/-- The value of a read that a command stands for. -/
def State.answer (x : State × Word) : State := { x.1 with lastRead := x.2 }

/-- R13, NARROW_ACCESS: an access of `size` bytes at `off` that is narrower than 32 bits or not aligned is dropped, or reads
0. The spec does not say what a wider aligned access does: that it is treated as these are is the model's choice (log 116).
An aligned access of 32 bits is another row's command and changes nothing here (log 2). -/
def execNarrowAccess (t : Nat) (port : PortId) (off size : Nat) (write : Option Word) (s : State) : Result :=
  s.barCmd t port fun s =>
    match write with
    | some _ => s
    | none => if size = 4 ∧ off % 4 = 0 then s else State.answer (s, 0)

/-- R73 a read of BAR2: 0 at every offset. -/
def bar2Read (_off : Nat) : Word := 0

/-- R14, R73, R775, LOW_HALF_READ: a read of BAR0 or of BAR2. -/
def execLowHalfRead (t : Nat) (port : PortId) (x : BarPlace) (s : State) : Result :=
  s.barCmd t port fun s => State.answer (if x.bar2 then (s, bar2Read x.off) else s.barRead port x.off)

/-- R744, TAG_SAMPLE_READ. -/
def execTagSampleRead (t : Nat) (port : PortId) (s : State) : Result :=
  s.barCmd t port fun s => State.answer (s.barRead port 0x060404)

/-- R740, BW_WIN_WRITE: a write of PERF.CTRL. -/
def execBwWinWrite (t : Nat) (port : PortId) (value : Word) (s : State) : Result :=
  s.barCmd t port fun s => s.barWrite port 0x060000 value

/-- BAR0 offset of a register of a channel. -/
def chanOff (n : ChanId) (reg : Nat) : Nat := 0x100000 + 0x1000 * n.val + reg

/-- A write of a channel's register. -/
def State.chanWrite (s : State) (t : Nat) (port : PortId) (n : ChanId) (reg : Nat) (value : Word) : Result :=
  s.barCmd t port fun s => s.barWrite port (chanOff n reg) value

/-- R207, PERIOD_REQUEST: a write of CH.PWM_CFG. -/
def execPeriodRequest (t : Nat) (port : PortId) (n : ChanId) (value : Word) (s : State) : Result :=
  s.chanWrite t port n 0x200 value

/-- R176, BAND_REQUEST: a write of CH.TB_CTRL. -/
def execBandRequest (t : Nat) (port : PortId) (n : ChanId) (value : Word) (s : State) : Result :=
  s.chanWrite t port n 0x100 value

/-- R164, BAND_WRITE: a write of CH.TB_BAND. -/
def execBandWrite (t : Nat) (port : PortId) (n : ChanId) (value : Word) (s : State) : Result :=
  s.chanWrite t port n 0x104 value

/-- R175, REALIGN: a write of CH.TB_CTRL with REALIGN = 1. -/
def execRealign (t : Nat) (port : PortId) (n : ChanId) (value : Word) (s : State) : Result :=
  s.chanWrite t port n 0x100 (value ||| 0x04000000#32)

/-- R266, THRESHOLD_WRITE: a write of CH.CMP_A or CH.CMP_B. -/
def execThresholdWrite (t : Nat) (port : PortId) (n : ChanId) (cmpB : Bool) (value : Word) (s : State) : Result :=
  s.chanWrite t port n (if cmpB then 0x308 else 0x304) value

/-- R275, WINDOW_WRITE: a write of CH.ADC_WIN. -/
def execWindowWrite (t : Nat) (port : PortId) (n : ChanId) (value : Word) (s : State) : Result :=
  s.chanWrite t port n 0x310 value

/-- R154, PLUG_EN_WRITE: a write of CH.PLUG. -/
def execPlugEnWrite (t : Nat) (port : PortId) (n : ChanId) (value : Word) (s : State) : Result :=
  s.chanWrite t port n 0x008 value

/-- R135, MOTOR_PROFILE_WRITE: a write of CH.MOTOR_RS or CH.MOTOR_LS. -/
def execMotorProfileWrite (t : Nat) (port : PortId) (n : ChanId) (ls : Bool) (value : Word) (s : State) : Result :=
  s.chanWrite t port n (if ls then 0x014 else 0x010) value

/-- R295, POS_CONFIG_WRITE: a write of CH.POS_CFG or CH.POS_CPR. -/
def execPosConfigWrite (t : Nat) (port : PortId) (n : ChanId) (cpr : Bool) (value : Word) (s : State) : Result :=
  s.chanWrite t port n (if cpr then 0x404 else 0x400) value

/-- R307, REARM: a write of CH.POS_INDEX with REARM = 1. -/
def execRearm (t : Nat) (port : PortId) (n : ChanId) (value : Word) (s : State) : Result :=
  s.chanWrite t port n 0x408 (value ||| 0x80000000#32)

/-- BAR0 offset of a register of a CAN controller. -/
def canOff (k : CanId) (reg : Nat) : Nat := 0x030000 + 0x1000 * k.val + reg

/-- R553, CAN_MODE_WRITE: a write of CAN.CTRL. -/
def execCanModeWrite (t : Nat) (port : PortId) (k : CanId) (value : Word) (s : State) : Result :=
  s.barCmd t port fun s => s.barWrite port (canOff k 0x000) value

/-- R561, CAN_RXR_HEAD_WRITE: a write of CAN.RXR_HEAD. -/
def execCanRxrHeadWrite (t : Nat) (port : PortId) (k : CanId) (value : Word) (s : State) : Result :=
  s.barCmd t port fun s => s.barWrite port (canOff k 0x030) value

/-- R516, RASTER_ENABLE: a write of RASTER.CTRL with ENABLE = 1. -/
def execRasterEnable (t : Nat) (port : PortId) (value : Word) (s : State) : Result :=
  s.barCmd t port fun s => s.barWrite port 0x020100 (value ||| 0x80000000#32)

/-- R517, RASTER_DISABLE: a write of RASTER.CTRL with ENABLE = 0. -/
def execRasterDisable (t : Nat) (port : PortId) (value : Word) (s : State) : Result :=
  s.barCmd t port fun s => s.barWrite port 0x020100 (value &&& 0x7FFFFFFF#32)

/-- R676 a write of STORAGE.S1_CMD with a given OP. -/
def State.s1Write (s : State) (t : Nat) (port : PortId) (op : Nat) (value : Word) : Result :=
  s.barCmd t port fun s => s.barWrite port 0x053010 (merge value (pack [(30, 2, op)]) 0xC0000000#32)

/-- R676, S1_READ. -/
def execS1Read (t : Nat) (port : PortId) (value : Word) (s : State) : Result := s.s1Write t port 1 value

/-- R676, S1_PROGRAM. -/
def execS1Program (t : Nat) (port : PortId) (value : Word) (s : State) : Result := s.s1Write t port 2 value

/-- R676, S1_ERASE. -/
def execS1Erase (t : Nat) (port : PortId) (value : Word) (s : State) : Result := s.s1Write t port 3 value

/-- R735, STOR_LB_START: a write of TEST.STOR_LB with START = 1. -/
def execStorLbStart (t : Nat) (port : PortId) (value : Word) (s : State) : Result :=
  s.barCmd t port fun s => s.barWrite port 0x061000 (value ||| 0x80000000#32)

end Sys2Proof.Machine
end

