-- ==== Sys2Proof/Machine/Dispatch.lean ====
section
/-! DEFINITION. The effect of each command on everything but the queue: one arm per constructor of `Instr`. -/
namespace Sys2Proof.Machine

def exec (i : Instr) (s : State) : Host.Outcome State Fault Refusal :=
  match i with
  | .nop t q => Sys2Proof.Machine.execNop t q s
  | .bind t q => Sys2Proof.Machine.execBind t q s
  | .unbind t q => Sys2Proof.Machine.execUnbind t q s
  | .chArm t q => Sys2Proof.Machine.execChArm t q s
  | .chRun t q => Sys2Proof.Machine.execChRun t q s
  | .chStop t q => Sys2Proof.Machine.execChStop t q s
  | .chBrake t q => Sys2Proof.Machine.execChBrake t q s
  | .chDischarge t q => Sys2Proof.Machine.execChDischarge t q s
  | .chClearTrip t q => Sys2Proof.Machine.execChClearTrip t q s
  | .chSetpoint t q => Sys2Proof.Machine.execChSetpoint t q s
  | .chCmpTest t q => Sys2Proof.Machine.execChCmpTest t q s
  | .chIdent t q => Sys2Proof.Machine.execChIdent t q s
  | .chLbTest t q => Sys2Proof.Machine.execChLbTest t q s
  | .nleLoad t q buf => Sys2Proof.Machine.execNleLoad t q buf s
  | .nlePsmWrite t q buf => Sys2Proof.Machine.execNlePsmWrite t q buf s
  | .nlePsmRead t q stored => Sys2Proof.Machine.execNlePsmRead t q stored s
  | .nleMailbox t q buf => Sys2Proof.Machine.execNleMailbox t q buf s
  | .fpeFix t q buf => Sys2Proof.Machine.execFpeFix t q buf s
  | .fpeGeometry t q buf => Sys2Proof.Machine.execFpeGeometry t q buf s
  | .fpeMode t q => Sys2Proof.Machine.execFpeMode t q s
  | .rasterInvalidate t q fail => Sys2Proof.Machine.execRasterInvalidate t q fail s
  | .rasterFlush t q fail => Sys2Proof.Machine.execRasterFlush t q fail s
  | .rasterPause t q host fail => Sys2Proof.Machine.execRasterPause t q host fail s
  | .canSend t q buf => Sys2Proof.Machine.execCanSend t q buf s
  | .canAbort t q => Sys2Proof.Machine.execCanAbort t q s
  | .canRestart t q => Sys2Proof.Machine.execCanRestart t q s
  | .pstSend t q buf => Sys2Proof.Machine.execPstSend t q buf s
  | .recRead t q stored => Sys2Proof.Machine.execRecRead t q stored s
  | .recMark t q buf => Sys2Proof.Machine.execRecMark t q buf s
  | .shutdown t q => Sys2Proof.Machine.execShutdown t q s
  | .calendarSet t q => Sys2Proof.Machine.execCalendarSet t q s
  | .sqTailDoorbell t port off value => Sys2Proof.Machine.execSqTailDoorbell t port off value s
  | .cqHeadDoorbell t port cq value => Sys2Proof.Machine.execCqHeadDoorbell t port cq value s
  | .eqHeadDoorbell t port value => Sys2Proof.Machine.execEqHeadDoorbell t port value s
  | .descriptorFetch t q got => Sys2Proof.Machine.execDescriptorFetch t q got s
  | .completionResume t q fail => Sys2Proof.Machine.execCompletionResume t q fail s
  | .eventsLost t port fail => Sys2Proof.Machine.execEventsLost t port fail s
  | .coalTimeout t port cq => Sys2Proof.Machine.execCoalTimeout t port cq s
  | .descriptorTimeout t q => Sys2Proof.Machine.execDescriptorTimeout t q s
  | .ringEnable t port ring cfg => Sys2Proof.Machine.execRingEnable t port ring cfg s
  | .ringDisable t port ring cfg got => Sys2Proof.Machine.execRingDisable t port ring cfg got s
  | .portDown t port cause => Sys2Proof.Machine.execPortDown t port cause s
  | .portUp t port speed width => Sys2Proof.Machine.execPortUp t port speed width s
  | .functionLevelReset t port fromD3 => Sys2Proof.Machine.execFunctionLevelReset t port fromD3 s
  | .registerWrite t port off value => Sys2Proof.Machine.execRegisterWrite t port off value s
  | .narrowAccess t port off size write => Sys2Proof.Machine.execNarrowAccess t port off size write s
  | .lowHalfRead t port off => Sys2Proof.Machine.execLowHalfRead t port off s
  | .refaLost t cause => Sys2Proof.Machine.execRefaLost t cause s
  | .refaRestored t kHz => Sys2Proof.Machine.execRefaRestored t kHz s
  | .refbEdge t rising => Sys2Proof.Machine.execRefbEdge t rising s
  | .ppsLost t => Sys2Proof.Machine.execPpsLost t s
  | .vcoreWindowEnd t => Sys2Proof.Machine.execVcoreWindowEnd t s
  | .aonClockLoad t => Sys2Proof.Machine.execAonClockLoad t s
  | .optimeTick t => Sys2Proof.Machine.execOptimeTick t s
  | .aonRestart t => Sys2Proof.Machine.execAonRestart t s
  | .carrierBoundary t n => Sys2Proof.Machine.execCarrierBoundary t n s
  | .midUpdate t n => Sys2Proof.Machine.execMidUpdate t n s
  | .periodRequest t port n value => Sys2Proof.Machine.execPeriodRequest t port n value s
  | .bandRequest t port n value => Sys2Proof.Machine.execBandRequest t port n value s
  | .bandWrite t port n value => Sys2Proof.Machine.execBandWrite t port n value s
  | .bandCalibrated t n entry => Sys2Proof.Machine.execBandCalibrated t n entry s
  | .realign t port n value => Sys2Proof.Machine.execRealign t port n value s
  | .lockDetected t n => Sys2Proof.Machine.execLockDetected t n s
  | .tbLocked t n => Sys2Proof.Machine.execTbLocked t n s
  | .tbLockFail t n => Sys2Proof.Machine.execTbLockFail t n s
  | .lockLost t n => Sys2Proof.Machine.execLockLost t n s
  | .tbRelocked t n => Sys2Proof.Machine.execTbRelocked t n s
  | .tbCoastLimit t n => Sys2Proof.Machine.execTbCoastLimit t n s
  | .hopLocked t n => Sys2Proof.Machine.execHopLocked t n s
  | .glideDone t n => Sys2Proof.Machine.execGlideDone t n s
  | .hopTimeout t n => Sys2Proof.Machine.execHopTimeout t n s
  | .currentSlot t n mid => Sys2Proof.Machine.execCurrentSlot t n mid s
  | .freeSlot t n => Sys2Proof.Machine.execFreeSlot t n s
  | .slotResult t n rawIu rawIv => Sys2Proof.Machine.execSlotResult t n rawIu rawIv s
  | .vbusResult t n rawA rawB => Sys2Proof.Machine.execVbusResult t n rawA rawB s
  | .housekeepingResult t n rawNtc midA midB => Sys2Proof.Machine.execHousekeepingResult t n rawNtc midA midB s
  | .convTimeout t n => Sys2Proof.Machine.execConvTimeout t n s
  | .autoZeroDone t n => Sys2Proof.Machine.execAutoZeroDone t n s
  | .tripInputChange t n input active => Sys2Proof.Machine.execTripInputChange t n input active s
  | .tripQualified t n src => Sys2Proof.Machine.execTripQualified t n src s
  | .tripReleased t n src => Sys2Proof.Machine.execTripReleased t n src s
  | .captureStart t n adc => Sys2Proof.Machine.execCaptureStart t n adc s
  | .captureDelivery t n adc raw => Sys2Proof.Machine.execCaptureDelivery t n adc raw s
  | .thresholdWrite t port n cmpB value => Sys2Proof.Machine.execThresholdWrite t port n cmpB value s
  | .thresholdSettled t n k active => Sys2Proof.Machine.execThresholdSettled t n k active s
  | .windowWrite t port n value => Sys2Proof.Machine.execWindowWrite t port n value s
  | .cmpTestDone t n fails => Sys2Proof.Machine.execCmpTestDone t n fails s
  | .tailDrop t n => Sys2Proof.Machine.execTailDrop t n s
  | .plugAsserted t n => Sys2Proof.Machine.execPlugAsserted t n s
  | .plugged t n => Sys2Proof.Machine.execPlugged t n s
  | .plugEnWrite t port n value => Sys2Proof.Machine.execPlugEnWrite t port n value s
  | .motorProfileWrite t port n ls value => Sys2Proof.Machine.execMotorProfileWrite t port n ls value s
  | .identDone t n result => Sys2Proof.Machine.execIdentDone t n result s
  | .stopLimitExpired t n => Sys2Proof.Machine.execStopLimitExpired t n s
  | .retryWaitExpired t n => Sys2Proof.Machine.execRetryWaitExpired t n s
  | .stoReadbackFault t n differs => Sys2Proof.Machine.execStoReadbackFault t n differs s
  | .chopFault t n => Sys2Proof.Machine.execChopFault t n s
  | .riseCheck t n => Sys2Proof.Machine.execRiseCheck t n s
  | .dischargeDone t n how => Sys2Proof.Machine.execDischargeDone t n how s
  | .positionEdge t stamp16 n a b z => Sys2Proof.Machine.execPositionEdge t stamp16 n a b z s
  | .indexEdge t stamp16 n z => Sys2Proof.Machine.execIndexEdge t stamp16 n z s
  | .standstill t n => Sys2Proof.Machine.execStandstill t n s
  | .posConfigWrite t port n cpr value => Sys2Proof.Machine.execPosConfigWrite t port n cpr value s
  | .rearm t port n value => Sys2Proof.Machine.execRearm t port n value s
  | .modulatorAnswer t n => Sys2Proof.Machine.execModulatorAnswer t n s
  | .probePulse t n rawIu rawIv => Sys2Proof.Machine.execProbePulse t n rawIu rawIv s
  | .polarityTest t n tPlus tMinus => Sys2Proof.Machine.execPolarityTest t n tPlus tMinus s
  | .alignDone t n => Sys2Proof.Machine.execAlignDone t n s
  | .startTimeout t n => Sys2Proof.Machine.execStartTimeout t n s
  | .blendEnd t n => Sys2Proof.Machine.execBlendEnd t n s
  | .keTimer t n => Sys2Proof.Machine.execKeTimer t n s
  | .runStart t n => Sys2Proof.Machine.execRunStart t n s
  | .runStopTimeout t n => Sys2Proof.Machine.execRunStopTimeout t n s
  | .feTimeout t n => Sys2Proof.Machine.execFeTimeout t n s
  | .nleNop t e f => Sys2Proof.Machine.execNleNop t e f s
  | .endRun t e f => Sys2Proof.Machine.execEndRun t e f s
  | .jmp t e f => Sys2Proof.Machine.execJmp t e f s
  | .jal t e f => Sys2Proof.Machine.execJal t e f s
  | .jr t e f => Sys2Proof.Machine.execJr t e f s
  | .beq t e f => Sys2Proof.Machine.execBeq t e f s
  | .bne t e f => Sys2Proof.Machine.execBne t e f s
  | .blt t e f => Sys2Proof.Machine.execBlt t e f s
  | .bge t e f => Sys2Proof.Machine.execBge t e f s
  | .bcz t e f => Sys2Proof.Machine.execBcz t e f s
  | .loop t e f => Sys2Proof.Machine.execLoop t e f s
  | .bbs t e f => Sys2Proof.Machine.execBbs t e f s
  | .bbc t e f => Sys2Proof.Machine.execBbc t e f s
  | .ld t e f => Sys2Proof.Machine.execLd t e f s
  | .st t e f => Sys2Proof.Machine.execSt t e f s
  | .ldi t e f => Sys2Proof.Machine.execLdi t e f s
  | .mov t e f => Sys2Proof.Machine.execMov t e f s
  | .lda t e f => Sys2Proof.Machine.execLda t e f s
  | .sta t e f => Sys2Proof.Machine.execSta t e f s
  | .lix t e f => Sys2Proof.Machine.execLix t e f s
  | .aix t e f => Sys2Proof.Machine.execAix t e f s
  | .mix t e f => Sys2Proof.Machine.execMix t e f s
  | .dset t e f => Sys2Proof.Machine.execDset t e f s
  | .sincos t e f => Sys2Proof.Machine.execSincos t e f s
  | .alu t e f => Sys2Proof.Machine.execAlu t e f s
  | .addi t e f => Sys2Proof.Machine.execAddi t e f s
  | .andi t e f => Sys2Proof.Machine.execAndi t e f s
  | .ori t e f => Sys2Proof.Machine.execOri t e f s
  | .xori t e f => Sys2Proof.Machine.execXori t e f s
  | .shift t e f => Sys2Proof.Machine.execShift t e f s
  | .mul t e f => Sys2Proof.Machine.execMul t e f s
  | .muli t e f => Sys2Proof.Machine.execMuli t e f s
  | .mac t e f => Sys2Proof.Machine.execMac t e f s
  | .aop t e f => Sys2Proof.Machine.execAop t e f s
  | .racc t e f => Sys2Proof.Machine.execRacc t e f s
  | .pi t e f => Sys2Proof.Machine.execPi t e f s
  | .chkpt t e f => Sys2Proof.Machine.execChkpt t e f s
  | .sior t e f => Sys2Proof.Machine.execSior t e f s
  | .siow t e f => Sys2Proof.Machine.execSiow t e f s
  | .psts t e f => Sys2Proof.Machine.execPsts t e f s
  | .pstr t e f => Sys2Proof.Machine.execPstr t e f s
  | .fixFrame t port frame => Sys2Proof.Machine.execFixFrame t port frame s
  | .frameGap t port => Sys2Proof.Machine.execFrameGap t port s
  | .framingError t port lenBad => Sys2Proof.Machine.execFramingError t port lenBad s
  | .sourceStale t src => Sys2Proof.Machine.execSourceStale t src s
  | .fpeTick t => Sys2Proof.Machine.execFpeTick t s
  | .fpeTickDone t => Sys2Proof.Machine.execFpeTickDone t s
  | .fpeStopDone t host fail => Sys2Proof.Machine.execFpeStopDone t host fail s
  | .lbFrame t port intact => Sys2Proof.Machine.execLbFrame t port intact s
  | .rasterEnable t port value => Sys2Proof.Machine.execRasterEnable t port value s
  | .rasterDisable t port value => Sys2Proof.Machine.execRasterDisable t port value s
  | .tileFetchDone t col row got => Sys2Proof.Machine.execTileFetchDone t col row got s
  | .cacheWaitEnd t => Sys2Proof.Machine.execCacheWaitEnd t s
  | .writeBackDue t col row line => Sys2Proof.Machine.execWriteBackDue t col row line s
  | .rasterFault t write kind ofs => Sys2Proof.Machine.execRasterFault t write kind ofs s
  | .rasterPauseLimit t host fail => Sys2Proof.Machine.execRasterPauseLimit t host fail s
  | .canModeWrite t port k value => Sys2Proof.Machine.execCanModeWrite t port k value s
  | .canModeApplied t k => Sys2Proof.Machine.execCanModeApplied t k s
  | .canIntegrated t k => Sys2Proof.Machine.execCanIntegrated t k s
  | .canRecoveryDone t k => Sys2Proof.Machine.execCanRecoveryDone t k s
  | .canFrameReceived t k sof frame dmaFail => Sys2Proof.Machine.execCanFrameReceived t k sof frame dmaFail s
  | .canRxrHeadWrite t port k value => Sys2Proof.Machine.execCanRxrHeadWrite t port k value s
  | .canTxAttempt t k sof => Sys2Proof.Machine.execCanTxAttempt t k sof s
  | .canTxDone t k tdc dmaFail => Sys2Proof.Machine.execCanTxDone t k tdc dmaFail s
  | .canError t k err => Sys2Proof.Machine.execCanError t k err s
  | .abdDwellTimeout t k => Sys2Proof.Machine.execAbdDwellTimeout t k s
  | .dominantLimit t k => Sys2Proof.Machine.execDominantLimit t k s
  | .seCycleStart t inputs => Sys2Proof.Machine.execSeCycleStart t inputs s
  | .lateCycle t => Sys2Proof.Machine.execLateCycle t s
  | .restartTest t pass => Sys2Proof.Machine.execRestartTest t pass s
  | .seDebug t => Sys2Proof.Machine.execSeDebug t s
  | .debugDetach t => Sys2Proof.Machine.execDebugDetach t s
  | .debuggerWrite t target value => Sys2Proof.Machine.execDebuggerWrite t target value s
  | .debugHalt t => Sys2Proof.Machine.execDebugHalt t s
  | .debugStep t f => Sys2Proof.Machine.execDebugStep t f s
  | .debugResume t => Sys2Proof.Machine.execDebugResume t s
  | .breakpointHit t => Sys2Proof.Machine.execBreakpointHit t s
  | .siLevelQualified t p b level => Sys2Proof.Machine.execSiLevelQualified t p b level s
  | .discTimeout t p => Sys2Proof.Machine.execDiscTimeout t p s
  | .outputFault t q ra rb => Sys2Proof.Machine.execOutputFault t q ra rb s
  | .offPulse t q low => Sys2Proof.Machine.execOffPulse t q low s
  | .offPulseEnd t q readback => Sys2Proof.Machine.execOffPulseEnd t q readback s
  | .pstWatchdogTimeout t conn => Sys2Proof.Machine.execPstWatchdogTimeout t conn s
  | .keyPress t k => Sys2Proof.Machine.execKeyPress t k s
  | .keyHold t k => Sys2Proof.Machine.execKeyHold t k s
  | .keyRelease t k => Sys2Proof.Machine.execKeyRelease t k s
  | .keyDrivePulse t k sense => Sys2Proof.Machine.execKeyDrivePulse t k sense s
  | .touchMeasurement t k count => Sys2Proof.Machine.execTouchMeasurement t k count s
  | .wakeKey t k => Sys2Proof.Machine.execWakeKey t k s
  | .recordWrite t ok => Sys2Proof.Machine.execRecordWrite t ok s
  | .suppressed t => Sys2Proof.Machine.execSuppressed t s
  | .gap t => Sys2Proof.Machine.execGap t s
  | .blockEraseDone t ok => Sys2Proof.Machine.execBlockEraseDone t ok s
  | .s1Read t port value => Sys2Proof.Machine.execS1Read t port value s
  | .s1Program t port value => Sys2Proof.Machine.execS1Program t port value s
  | .s1Erase t port value => Sys2Proof.Machine.execS1Erase t port value s
  | .s1CommandDone t ok => Sys2Proof.Machine.execS1CommandDone t ok s
  | .storLbStart t port value => Sys2Proof.Machine.execStorLbStart t port value s
  | .storLbDone t pass => Sys2Proof.Machine.execStorLbDone t pass s
  | .hkRound t inputs => Sys2Proof.Machine.execHkRound t inputs s
  | .dieShutdown t sensor reading => Sys2Proof.Machine.execDieShutdown t sensor reading s
  | .powerFail t source vin vaux => Sys2Proof.Machine.execPowerFail t source vin vaux s
  | .powerFailRestart t => Sys2Proof.Machine.execPowerFailRestart t s
  | .railReset t code => Sys2Proof.Machine.execRailReset t code s
  | .supFault t cause => Sys2Proof.Machine.execSupFault t cause s
  | .softStart t => Sys2Proof.Machine.execSoftStart t s
  | .supVddStop t => Sys2Proof.Machine.execSupVddStop t s
  | .supplyControllerStart t supSel => Sys2Proof.Machine.execSupplyControllerStart t supSel s
  | .start t inputs => Sys2Proof.Machine.execStart t inputs s
  | .startReady t tReady => Sys2Proof.Machine.execStartReady t tReady s
  | .selftestEnd t v => Sys2Proof.Machine.execSelftestEnd t v s
  | .lbTestDone t n fails => Sys2Proof.Machine.execLbTestDone t n fails s
  | .perfWindowEnd t => Sys2Proof.Machine.execPerfWindowEnd t s
  | .bwWinWrite t port value => Sys2Proof.Machine.execBwWinWrite t port value s
  | .tagSampleRead t port => Sys2Proof.Machine.execTagSampleRead t port s
  | .idcode => Sys2Proof.Machine.execIdcode s
  | .samplePreload shiftIn => Sys2Proof.Machine.execSamplePreload shiftIn s
  | .extest => Sys2Proof.Machine.execExtest s
  | .clamp => Sys2Proof.Machine.execClamp s
  | .highz => Sys2Proof.Machine.execHighz s
  | .prodTest => Sys2Proof.Machine.execProdTest s
  | .bypass => Sys2Proof.Machine.execBypass s

end Sys2Proof.Machine
end

