-- ==== Sys2Proof/Safety.lean ====
section
/-! DEFINITION. What the statements say about a run of the block: what a command leaves alone, and the invariant that every
step keeps. -/
namespace Sys2Proof.Machine

/-- What the device is, apart from what it reports: ports, recorder, outbox and event counts blanked. -/
def State.quiet (s : State) : State :=
  { s with ports := Vector.replicate 4 {}, recorder := {}, outbox := [], limits := [] }

/-- The device apart from its reports, and from the supply's slack window and core voltage, which every engine run may move. -/
def State.still (s : State) : State := { s.quiet with sup := {} }

/-- The host's part of a time base: its registers, and the band memory but for the CAL bits. -/
def TbS.host (b : TbS) : TbS :=
  { ctrl := b.ctrl, sel := b.sel, profile := b.profile, bands := b.bands.map (fun x => { x with cal := false }), index := b.index }

/-- The host's part of the PWM unit: its registers. -/
def PwmS.host (p : PwmS) : PwmS :=
  { cfg := p.cfg, updIn := p.updIn, period := p.period, dt := p.dt, minpw := p.minpw, profile := p.profile, bsr := p.bsr }

/-- What of a channel is set up by the host, measured, or a program of its own: the configuration registers and the values in
force of them, the band memory but for its CAL bits, trims, thresholds, the fault map, the plug, the loop program and its data,
the chopper, the thermal model and the tagging unit. What transitions and protection act on is blanked. -/
def Chan.kept (c : Chan) : Chan :=
  { core := { c.core with
      code := .off, prev := .off, cause := 0, verified := false, stoAsc := false, s2Off := false, safeLocks := false
      thermal := false, onPll := false, rwlDrop := 0, identRs := 0, identLs := 0, ident := none, stopFrom := none, lb := none }
    tb := c.tb.host
    pwm := c.pwm.host
    adc := { c.adc with
      slot := none, hkAt := none, freeNo := 0, xchkAt := 0, xchkRun := 0, az := none, capMerge := 0, cmpTest := none
      cmpFail := 0, flt := false }
    pos := { cfg := c.pos.cfg, cpr := c.pos.cpr, indexPos := c.pos.indexPos }
    fcu := { c.fcu with
      phase := .idle, startFrom := none, blend := 0, blendDir := .steady, obs := { c.fcu.obs with lock := false }
      hfi := { c.fcu.hfi with lock := false }, injected := false, probeUse := false, dis := none, pulseOff := false
      brakeSlow := false, ascOmega := none, ascLow := none }
    nle := { c.nle with
      enabled := false, disabledAt := none, pend := Vector.replicate 4 none, out := [], lateCnt := 0, ovrCnt := 0
      first := false, regs := {}, run := none, orphans := 0, flags := 0 }
    prot := { map := c.prot.map, mapIdx := c.prot.mapIdx, retry := c.prot.retry, ov1 := c.prot.ov1, chopFlt := c.prot.chopFlt
              chopOn := c.prot.chopOn, chop := c.prot.chop, sto := c.prot.sto, hot := c.prot.hot }
    therm := c.therm
    tag := c.tag }

/-- The command is executed, and the state after it has the property. -/
def Does (i : Instr) (s : State) (P : State → Prop) : Prop :=
  ∃ s', exec i s = Host.Outcome.next s' ∧ P s'

/-- The channel as a command at DTIME `t` finds it: the lanes of a sample instant that has passed are taken (R461). -/
def State.chanAt (s : State) (t : Nat) (n : ChanId) : Chan := ((s.at t).chanIn n).c

/-- The command is executed and reaches channel `n` alone, besides what the device reports. What it does to the channel itself,
at an instant up to DTIME, has the property; the channel is then left as the consequences that every command of a channel ends
with leave it (R232, R357, R363, R445). -/
def Leaves (i : Instr) (s : State) (t : Nat) (n : ChanId) (P : Chan → Prop) : Prop :=
  ∃ s1 u c out, exec i s = Host.Outcome.next s1 ∧ u ≤ max s.dtime t ∧ P c ∧
    s1.still = { (s.at t).still with
      chans := s.chans.set n (ChR.settle { env := { (s.at t).chEnv n with t := u }, c := c, out := out }).c }

/-- The ring's next descriptor at DTIME `t` is `f`, and it carries opcode `op` (R89, R117). -/
def Next (s : State) (t : Nat) (q : SqRef) (op : Nat) (f : Fetched) : Prop :=
  (s.at t).nextDesc q = some f ∧ f.desc.opcode = op

/-- The descriptor `f` passes every check of R113, those of its opcode among them. -/
def Passes (s : State) (t : Nat) (q : SqRef) (f : Fetched) (x : Exec) : Prop :=
  ((s.at t).take q).checks1to4 q.port f.desc = none ∧ x.check ((s.at t).take q) q.port f.desc = none

/-- The device has written a completion of ring `q` with a status, a DETAIL and a RESULT for `f`. -/
def Answered (s1 : State) (q : SqRef) (f : Fetched) (status detail result : Nat) : Prop :=
  ∃ c i a ph x, Out.completion q.port c i a ph x ∈ s1.outbox ∧ x.cid = f.desc.cid ∧ x.sqId = q.sq.val ∧
    x.status = status ∧ x.detail = detail ∧ x.result = result

/-- The device has written a completion of ring `q` for `f`, or holds it until the completion ring has an entry (R101). -/
def Reports (s1 : State) (q : SqRef) (f : Fetched) (status detail result : Nat) : Prop :=
  ∃ x : Completion, ((∃ c i a ph, Out.completion q.port c i a ph x ∈ s1.outbox) ∨ x ∈ (s1.sqAt q).stalled) ∧
    x.cid = f.desc.cid ∧ x.sqId = q.sq.val ∧ x.status = status ∧ x.detail = detail ∧ x.result = result

/-- The completion ring of `q` can take a completion at once (R101). -/
def Roomy (s : State) (q : SqRef) : Prop :=
  let r := s.ports[q.port].cqs[(s.sqAt q).cqId]
  r.usable = true ∧ r.hasSpace = true ∧ (s.sqAt q).stalled = []

/-! ### Programs of the engines -/

/-- R416 an instruction word from its opcode, its fields [25:21] and [20:16], and its low half. -/
def engWord (op : Nat) (a b : Fin 32) (low : Nat) : Word := BitVec.ofNat 32 (op * 2 ^ 26 + a.val * 2 ^ 21 + b.val * 2 ^ 16 + low)

/-- R416 format R: RD, RS, RT, AC, RND, SH, FN. -/
def wordR (op : Nat) (d s t : Fin 32) (ac : Fin 4) (rnd : Bool) (sh fn : Fin 16) : Word :=
  engWord op d s (t.val * 2 ^ 11 + ac.val * 2 ^ 9 + b2n rnd * 2 ^ 8 + sh.val * 2 ^ 4 + fn.val)

/-- R416 format M with K = 0: RD, IX, AM, A. -/
def wordM (op : Nat) (d : Fin 32) (x am : Fin 4) (addr : Nat) : Word :=
  engWord op d ⟨8 * x.val + 2 * am.val, by omega⟩ addr

/-- R375, R415 D[i], the number taken modulo 32, as a signed number. -/
def RegsS.dAt (r : RegsS) (i : Nat) : Int := (r.d[i % 32]'(Nat.mod_lt _ (by decide))).toInt

/-- D[i] as a bit pattern. -/
def RegsS.bits (r : RegsS) (i : Nat) : Half := r.d[i % 32]'(Nat.mod_lt _ (by decide))

/-- D[i] written. -/
def RegsS.putD (r : RegsS) (i : Nat) (v : Half) : RegsS := { r with d := r.d.set (i % 32) v (Nat.mod_lt _ (by decide)) }

/-- D[i] written with a number. -/
def RegsS.putNum (r : RegsS) (i : Nat) (v : Int) : RegsS := r.putD i (BitVec.ofInt 16 v)

/-- An accumulator as a signed number. -/
def RegsS.accAt (r : RegsS) (a : Fin 4) : Int := r.acc[a].toInt

/-- An accumulator written. -/
def RegsS.putAcc (r : RegsS) (a : Fin 4) (v : Int) : RegsS := { r with acc := r.acc.set a (BitVec.ofInt 40 v) }

/-- An index register of a channel written, modulo 2^10 (R418). -/
def RegsS.putIx (r : RegsS) (n : Fin 4) (v : Int) : RegsS := { r with ix := r.ix.set n (v % 1024).toNat }

/-- The PC written. -/
def RegsS.goTo (r : RegsS) (pc : Nat) : RegsS := { r with pc := pc }

/-- R413 a number limited to `n` bits, signed. -/
def limited (n : Nat) (x : Int) : Int := max (-(2 ^ (n - 1))) (min x (2 ^ (n - 1) - 1))

/-- R413 shr: floor, or rounding half away from zero. -/
def shifted (rnd : Bool) (x : Int) (k : Nat) : Int :=
  if rnd ∧ 1 ≤ k then x.sign * ((x.natAbs + 2 ^ (k - 1)) / 2 ^ k : Nat) else x / 2 ^ k

/-- R419 the effective address of a channel's format M word. -/
def RegsS.eaOf (r : RegsS) (x am : Fin 4) (addr : Nat) : Nat := if am.val = 0 then addr else (r.ix[x] + addr) % 1024

/-- R419 post-increment and post-decrement. -/
def RegsS.stepIx (r : RegsS) (x am : Fin 4) (step : Nat) : RegsS :=
  if am.val = 2 then r.putIx x (r.ix[x] + step) else if am.val = 3 then r.putIx x (r.ix[x] - step) else r

/-- A run of channel `n` is in progress and may execute one more instruction: fewer than 65,536 are executed, and the engine has
not been disabled for 1 ms (R372, R390, R433). -/
def Runs (s : State) (t : Nat) (n : ChanId) (u : RunS) : Prop :=
  (s.at t).powered = true ∧ s.chans[n].nle.run = some u ∧ u.count < 65536 ∧
  s.chans[n].nle.overdue (max s.dtime t) = false

/-- The word at the PC of channel `n`. -/
def Stands (s : State) (n : ChanId) (x : Word) : Prop := Cells.get 0 s.chans[n].nle.store s.chans[n].nle.regs.pc = x

/-- The run of channel `n` executes the row `mk`: the registers become `r`, the instruction is counted, and nothing of the
channel but the tagging unit changes besides. -/
def StepsTo (mk : Nat → Eng → EngFault → Instr) (s : State) (t : Nat) (n : ChanId) (u : RunS) (r : RegsS) : Prop :=
  ∀ f : EngFault, f.parity = false → Leaves (mk t (.ch n) f) s t n fun c =>
    c = { s.chanAt t n with nle := { s.chans[n].nle with regs := r, run := some { u with count := u.count + 1 } }, tag := c.tag }

/-- R378, R433 the word at the PC is an exception: the run stops there, the registers stand, EXC is set and source LATE
qualifies. -/
def Refuses (mk : Nat → Eng → EngFault → Instr) (s : State) (t : Nat) (n : ChanId) : Prop :=
  ∀ f : EngFault, f.parity = false → Leaves (mk t (.ch n) f) s t n fun c =>
    c.nle.run = none ∧ c.nle.regs = s.chans[n].nle.regs ∧ c.nle.flags.getLsbD 3 = true ∧ c.prot.latched.getLsbD 8 = true

/-- R420 the rows of the engines' instructions with their opcodes. -/
def engineRows : List (Nat × (Nat → Eng → EngFault → Instr)) :=
  [(0x01, .nleNop), (0x02, .endRun), (0x03, .jmp), (0x04, .jal), (0x05, .jr), (0x06, .beq), (0x07, .bne), (0x08, .blt),
   (0x09, .bge), (0x0A, .bcz), (0x0B, .loop), (0x0C, .bbs), (0x0D, .bbc), (0x10, .ld), (0x11, .st), (0x12, .ldi),
   (0x13, .mov), (0x14, .lda), (0x15, .sta), (0x16, .lix), (0x17, .aix), (0x18, .mix), (0x19, .dset), (0x1A, .sincos),
   (0x20, .alu), (0x21, .addi), (0x22, .andi), (0x23, .ori), (0x24, .xori), (0x25, .shift), (0x26, .mul), (0x27, .muli),
   (0x30, .mac), (0x31, .aop), (0x32, .racc), (0x33, .pi), (0x38, .chkpt), (0x39, .sior), (0x3A, .siow), (0x3B, .psts),
   (0x3C, .pstr)]

/-! ### The safety executive (chapter 15) -/

/-- The run of instance A is in progress and has not met its END, outside split mode, with no debugger attached. -/
def RunsA (s : State) (t : Nat) (u : SeRun) : Prop :=
  (s.at t).powered = true ∧ s.se.run = some u ∧ u.second = false ∧ s.dev.seSplit = false ∧ s.se.attached = false ∧
  u.a.outs.length ≤ 1024 ∧ u.overAt = none

/-- R595 no check fails at an instruction. -/
def noFault : EngFault := { parity := false, compare := none }

/-- R596 the registers of instance B that mirror those of A. -/
def RegsS.mirror (r : RegsS) : RegsS :=
  { d := Vector.ofFn fun (i : Fin 32) => -r.d[i.rev]
    acc := Vector.ofFn fun (a : Fin 4) => -r.acc[a.rev]
    ix := Vector.ofFn fun (n : Fin 4) => r.ix[n.rev]
    pc := r.pc }

/-- R589, R596 the engine of instance B over data words that hold the negated values. -/
def EngCfg.mirror (g : EngCfg) : EngCfg := { g with mir := true, rd := fun a => -g.rd a }

/-- R596 an effect as instance B mirrors it. -/
def Plan.mirror (p : Plan) : Plan :=
  { regs := p.regs.mirror, writes := p.writes.map (fun w => (w.1, -w.2)), act := p.act }

/-- R597 the instructions that mirror exactly whatever the values: control flow but for the signed comparisons, moves, bit
patterns. -/
def exactMirror (x : Word) : Bool :=
  [0x01, 0x02, 0x03, 0x04, 0x05, 0x06, 0x07, 0x0B, 0x0C, 0x0D, 0x10, 0x11, 0x12, 0x13, 0x16, 0x17, 0x18, 0x19, 0x1A, 0x22,
    0x23, 0x24].contains (opOf x) ||
  (opOf x == 0x20 && (fFn x == 4 || fFn x == 5 || fFn x == 6)) || (opOf x == 0x25 && (fFn x == 2 || fFn x == 3)) ||
  (opOf x == 0x31 && (fFn x == 0 || fFn x == 3))

/-! ### The whole machine -/

/-- The channel whose own hardware the command is an event or an instruction of; none for every other command. -/
def Instr.chan : Sys2Proof.Instr → Option ChanId
  | .carrierBoundary _ n | .midUpdate _ n | .bandCalibrated _ n _ | .lockDetected _ n | .tbLocked _ n
  | .tbLockFail _ n | .lockLost _ n | .tbRelocked _ n | .tbCoastLimit _ n | .hopLocked _ n | .glideDone _ n
  | .hopTimeout _ n | .currentSlot _ n _ | .freeSlot _ n | .slotResult _ n _ _ | .vbusResult _ n _ _
  | .housekeepingResult _ n _ _ _ | .convTimeout _ n | .autoZeroDone _ n | .tripInputChange _ n _ _
  | .tripQualified _ n _ | .tripReleased _ n _ | .captureStart _ n _ | .captureDelivery _ n _ _
  | .thresholdSettled _ n _ _ | .cmpTestDone _ n _ | .tailDrop _ n | .plugAsserted _ n | .plugged _ n
  | .identDone _ n _ | .stopLimitExpired _ n | .retryWaitExpired _ n | .stoReadbackFault _ n _ | .chopFault _ n
  | .riseCheck _ n | .dischargeDone _ n _ | .positionEdge _ _ n _ _ _ | .indexEdge _ _ n _ | .standstill _ n
  | .modulatorAnswer _ n | .probePulse _ n _ _ | .polarityTest _ n _ _ | .alignDone _ n | .startTimeout _ n
  | .blendEnd _ n | .keTimer _ n | .runStart _ n | .runStopTimeout _ n | .feTimeout _ n | .lbTestDone _ n _ => some n
  | .nleNop _ (.ch n) _ | .endRun _ (.ch n) _ | .jmp _ (.ch n) _ | .jal _ (.ch n) _ | .jr _ (.ch n) _
  | .beq _ (.ch n) _ | .bne _ (.ch n) _ | .blt _ (.ch n) _ | .bge _ (.ch n) _ | .bcz _ (.ch n) _
  | .loop _ (.ch n) _ | .bbs _ (.ch n) _ | .bbc _ (.ch n) _ | .ld _ (.ch n) _ | .st _ (.ch n) _ | .ldi _ (.ch n) _
  | .mov _ (.ch n) _ | .lda _ (.ch n) _ | .sta _ (.ch n) _ | .lix _ (.ch n) _ | .aix _ (.ch n) _
  | .mix _ (.ch n) _ | .dset _ (.ch n) _ | .sincos _ (.ch n) _ | .alu _ (.ch n) _ | .addi _ (.ch n) _
  | .andi _ (.ch n) _ | .ori _ (.ch n) _ | .xori _ (.ch n) _ | .shift _ (.ch n) _ | .mul _ (.ch n) _
  | .muli _ (.ch n) _ | .mac _ (.ch n) _ | .aop _ (.ch n) _ | .racc _ (.ch n) _ | .pi _ (.ch n) _
  | .chkpt _ (.ch n) _ | .sior _ (.ch n) _ | .siow _ (.ch n) _ | .psts _ (.ch n) _ | .pstr _ (.ch n) _ => some n
  | _ => none

/-- What every step keeps: an unbound unit has role 0 and an epoch is never 0 (R76, R82, R84); the trim of DTIME stays within
±200 ppm (R43); the counters of the always-on domain and T_READY stop at their widths (R53, R698, R723); the S1 medium and
the PSM of the safety executive keep the one form of their contents, and an image fits the PSM it was checked for (R588). -/
structure State.Inv (s : State) : Prop where
  epochs : ∀ i : Fin 145, 1 ≤ s.units[i].epoch ∧ s.units[i].epoch ≤ 65535
  unbound : ∀ i : Fin 145, s.units[i].owner = none → s.units[i].role = 0
  trim : -200000 ≤ s.time.rateAdj ∧ s.time.rateAdj ≤ 200000
  optime : s.aon.optime ≤ 0xFFFFFFFF
  pcycle : s.aon.pcycle ≤ 0xFFFFFFFF
  shutCnt : s.aon.shutCnt ≤ 65535
  tReady : s.dev.tReady ≤ 65535
  s1 : Cells.wf 0xFF#8 s.stor.s1 = true
  psm : Cells.wf 0#16 s.se.psm = true
  image : s.dev.seSplit = false → s.se.img.psm.length ≤ 2048

end Sys2Proof.Machine
end

