-- ==== Sys2Proof/WellFormed.lean ====
section
/-! DEFINITION. Well-formed commands: operands within the ranges that the spec gives what they stand for. `exec` is total
and needs none of this; statements may. -/
namespace Sys2Proof

/-- R105 a descriptor whose fields fit their bytes. -/
def Desc.wf (d : Desc) : Bool :=
  decide (d.opcode < 256) && decide (d.flags < 256) && decide (d.unit < 65536) && decide (d.epoch < 65536) &&
  decide (d.length < 65536) && decide (d.cid < 65536) && decide (d.waitLimit < 2 ^ 32) && decide (d.bufAddr < 2 ^ 64) &&
  d.param.length == 40

/-- R68 a read request brings at most as many entries as it asked for. -/
def Fetch.wf (f : Fetch) (most : Nat) : Bool :=
  match f with
  | .arrived es => decide (es.length ≤ most)
  | .failed kind => decide (kind < 32)

/-- R105, R110 a buffer is no longer than LENGTH can say. -/
def Buf.wf (b : Buf) : Bool :=
  match b with
  | .arrived bs => decide (bs.length < 65536)
  | .failed => true

/-- Bytes of a CAN frame with a given DLC (R562). -/
def canBytes (fdf : Bool) (dlc : Fin 16) : Nat :=
  if dlc.val ≤ 8 then dlc.val
  else if !fdf then 8
  else match dlc.val with
    | 9 => 12
    | 10 => 16
    | 11 => 20
    | 12 => 24
    | 13 => 32
    | 14 => 48
    | _ => 64

/-- A CAN frame that ISO 11898-1 allows. -/
def CanFrame.wf (f : CanFrame) : Bool :=
  (f.ide || decide (f.id.toNat < 2 ^ 11)) && !(f.rtr && f.fdf) && (f.fdf || (!f.brs && !f.esi)) &&
  f.data.length == (if f.rtr then 0 else canBytes f.fdf f.dlc)

/-- R145 step 5 of an identification makes 16 pulses. -/
def IdentStep.wf (e : IdentStep) : Bool :=
  match e with
  | .steady samples => !samples.isEmpty
  | .bus _ => true
  | .completed pulses => pulses.length == 16

/-- R731 a sensing test at LB2 makes eight levels through three inputs. -/
def LbFound.wf (x : LbFound) : Bool :=
  match x with
  | .digital _ => true
  | .analog codes cmps _ => codes.length == 24 && cmps.length == 8

/-- R679 a housekeeping round brings 64 codes of 12 bits. -/
def HkInputs.wf (x : HkInputs) : Bool := x.samples.length == 64 && x.samples.all (fun p => decide (p.1 < 4096))

/-- R671, R674 a medium. -/
def Medium.wf (m : Medium) : Bool :=
  decide (m.err < 4) && decide (m.log2 < 32) && decide (m.mode < 8) && decide (m.clock ≤ 200)

/-- Whether the operands of a command lie within the ranges of what they stand for. -/
def Instr.wf (i : Instr) : Bool :=
  match i with
  | .nleLoad _ _ buf => buf.wf
  | .nlePsmWrite _ _ buf => buf.wf
  | .nleMailbox _ _ buf => buf.wf
  | .fpeFix _ _ buf => buf.wf
  | .fpeGeometry _ _ buf => buf.wf
  | .canSend _ _ buf => buf.wf
  | .pstSend _ _ buf => buf.wf
  | .recMark _ _ buf => buf.wf
  | .sqTailDoorbell _ _ off _ => decide (off < 0x10000)
  | .descriptorFetch _ _ got => got.wf 8
  | .ringDisable _ _ _ _ got => got.wf 65535
  | .portUp _ _ speed width => decide (1 ≤ speed ∧ speed ≤ 4) && decide (width = 1 ∨ width = 2)
  | .registerWrite _ _ off x => decide (off < 0x400000) && off % 4 == 0 && x.got.wf 65535
  | .narrowAccess _ _ off size _ =>
    decide (off < 0x400000) && decide (0 < size) && (size != 4 || off % 4 != 0)
  | .lowHalfRead _ _ x => decide (x.off < (if x.bar2 then 0x10000 else 0x400000)) && x.off % 4 == 0
  | .refaLost _ cause => decide (cause < 2)
  | .refaRestored _ kHz => decide (10000 ≤ kHz ∧ kHz ≤ 50000)
  | .identDone _ _ e => e.wf
  | .lbTestDone _ _ x => x.wf
  | .tileFetchDone _ col row _ => decide (col < 4096 ∧ row < 4096)
  | .writeBackDue _ col row _ => decide (col < 4096 ∧ row < 4096)
  | .canFrameReceived _ _ _ frame _ => frame.wf
  | .canError _ _ err => decide (1 ≤ err.kind ∧ err.kind ≤ 6)
  | .hkRound _ inputs => inputs.wf
  | .powerFail _ source _ _ => decide (source < 2)
  | .railReset _ x => decide (1 ≤ x.code ∧ x.code ≤ 5)
  | .supFault _ cause => decide (cause < 2)
  | .start _ x => x.s0.wf && x.s1.wf
  | _ => true

end Sys2Proof
end

