-- ==== Sys2Proof/Certificates/Slice0/Obligations.lean ====
section
/-! DEFINITION. The statements about the model, for the provers. -/
open Sys2Proof Sys2Proof.Machine

/-- REFA_LOST, REFA_RESTORED, REFB_EDGE and PPS_LOST complete while the units run. R37, R38: the loss of REFA clears REFA_OK,
enters holdover at this instant, and shows the cause. R36, R40: the return of REFA at 10 to 50 MHz sets REFA_OK, ends holdover
and takes the measured frequency. Both change the time unit and the channels alone, besides reports. R41 to R44: with PPS_EN
set, an edge on the active polarity is a start edge when there is no last accepted edge, or it lies more than PPS_WIN beyond
1 s after the last one; within PPS_WIN of 1 s it is accepted, trims the rate within 200 ppm, and gives PPS_LOCK from the fourth
edge of a run on; any other is only counted as rejected. Each changes the time unit alone, besides reports. R44: 3 s after the
last accepted edge, the loss of PPS_LOCK clears it. -/
def Obligations.ReferenceInputs : Prop :=
  ∀ (s : State) (t : Nat), (s.at t).powered = true →
    (∀ cause, s.time.refaOk = true → s.time.holdover = false →
      Does (.refaLost t cause) s fun s1 =>
        s1.time = s.time.change (max s.dtime t) (fun x => { x with
          refaOk := false, refaRange := cause == 1, holdover := true, holdoverFrom := max s.dtime t, refaFreq := 0 }) ∧
        s1.still = { (s.at t).still with time := s1.time, chans := s1.chans }) ∧
    (∀ kHz, 10000 ≤ kHz → kHz ≤ 50000 → s.time.refaOk = false →
      Does (.refaRestored t kHz) s fun s1 =>
        s1.time = s.time.change (max s.dtime t) (fun x => { x with
          refaOk := true, refaRange := false, holdover := false, refaFreq := kHz, refaKHz := kHz }) ∧
        s1.still = { (s.at t).still with time := s1.time, chans := s1.chans }) ∧
    (∀ rising, bitOf s.time.control 0 = true → rising ≠ bitOf s.time.control 1 →
      (s.time.ppsLast = none → Does (.refbEdge t rising) s fun s1 =>
        s1.time.ppsStamp = max s.dtime t ∧ s1.time.ppsLast = some (max s.dtime t) ∧ s1.time.ppsRun = 1 ∧
        s1.time.ppsLock = s.time.ppsLock ∧ s1.time.rateAdj = s.time.rateAdj ∧
        s1.quiet = { (s.at t).quiet with time := s1.time }) ∧
      (∀ l, s.time.ppsLast = some l →
        (l + 1000000000 + s.time.ppsWin < max s.dtime t → Does (.refbEdge t rising) s fun s1 =>
          s1.time.ppsStamp = max s.dtime t ∧ s1.time.ppsLast = some (max s.dtime t) ∧ s1.time.ppsRun = 1 ∧
          s1.time.ppsLock = s.time.ppsLock ∧ s1.time.rateAdj = s.time.rateAdj ∧
          s1.quiet = { (s.at t).quiet with time := s1.time }) ∧
        (l + 1000000000 ≤ max s.dtime t + s.time.ppsWin → max s.dtime t ≤ l + 1000000000 + s.time.ppsWin →
          Does (.refbEdge t rising) s fun s1 =>
            s1.time.ppsStamp = max s.dtime t ∧ s1.time.ppsLast = some (max s.dtime t) ∧
            s1.time.ppsRun = s.time.ppsRun + 1 ∧ s1.time.ppsLock = (s.time.ppsLock || decide (3 ≤ s.time.ppsRun)) ∧
            s1.time.rateAdj = trimAfter s.time.rateAdj (max s.dtime t - l) ∧
            (-200000 ≤ s1.time.rateAdj ∧ s1.time.rateAdj ≤ 200000) ∧
            s1.quiet = { (s.at t).quiet with time := s1.time }) ∧
        (max s.dtime t + s.time.ppsWin < l + 1000000000 → Does (.refbEdge t rising) s fun s1 =>
          s1 = { s.at t with time := { s.time with ppsReject := min (s.time.ppsReject + 1) 65535 } }))) ∧
    (∀ l, s.time.ppsLock = true → s.time.ppsLate = none → s.time.ppsLast = some l →
        l + 3000000000 + 250 ≤ max s.dtime t →
      Does (.ppsLost t) s fun s1 => s1.time = { s.time with ppsLock := false, ppsRun := 0 } ∧
        s1.quiet = { (s.at t).quiet with time := s1.time })

/-- R52: with the units running, AON_CLOCK_LOAD loads the always-on clock from calendar time in steps of 1/32,768 s. R53: with
the main supply up, OPTIME_TICK counts one second of operating time, up to 0xFFFF_FFFF. R54: with the main supply off,
AON_RESTART clears the always-on clock, both counters and CAL_VALID and sets AON_LOST. R30, R32, R35: VCORE_WINDOW_END, 10 ms
after the window began, begins the next window there; with a measured slack in ADAPT mode of at least MARGIN/256 of its
interval, outside the second after a late run, it lowers VNOW by 4 units (5 mV), and else VNOW stands. Each changes nothing
else. -/
def Obligations.AlwaysOnDomainAndCoreVoltage : Prop :=
  ∀ (s : State) (t : Nat),
    ((s.at t).powered = true → Does (.aonClockLoad t) s fun s1 =>
      s1 = { s.at t with aon := { s.aon with
        clock := aonStep (s.calendar (max s.dtime t)), clockAt := max s.dtime t } }) ∧
    (s.supplied = true → Does (.optimeTick t) s fun s1 =>
      s1 = { s.at t with aon := { s.aon with optime := min (s.aon.optime + 1) 0xFFFFFFFF } }) ∧
    (s.supplied = false → Does (.aonRestart t) s fun s1 =>
      s1.aon.clock = 0 ∧ s1.aon.optime = 0 ∧ s1.aon.pcycle = 0 ∧ s1.aon.aonLost = true ∧ s1.aon.calValid = false ∧
      s1 = { s.at t with aon := s1.aon }) ∧
    ((s.at t).powered = true → s.sup.windowAt + 10000000 ≤ max s.dtime t →
      (s.sup.slack = none → Does (.vcoreWindowEnd t) s fun s1 =>
        s1 = { s.at t with sup := { s.sup with windowAt := s.sup.windowAt + 10000000 } }) ∧
      (∀ x i, s.sup.slack = some (x, i) → Does (.vcoreWindowEnd t) s fun s1 =>
        s1 = { s.at t with sup := { s.sup with
          windowAt := s.sup.windowAt + 10000000, slack := none
          vnow := if bitOf s.sup.vctrl 31 = true ∧ s.sup.noLower ≤ max s.dtime t ∧
            (max (fld s.sup.vctrl 7 0) 1 * i : Nat) ≤ x * 256 then s.sup.vnow - 4 else s.sup.vnow } }))

/-! ### Chapter 02: rings, ports, registers -/

/-- R110: NOP, with LENGTH 0, completes with OK and DETAIL and RESULT 0 and changes nothing but reports. R82, R83, R84: from the
administrator port, with their checks passed, BIND gives the unit the owner and role code named in PARAM bytes 24 and 25, and
UNBIND leaves it unbound with role code 0; each moves the unit's epoch on by 1, from 65,535 to 1, leaves every other unit's
entry, and reports OK with the new epoch as RESULT. From another port neither changes the unit table. -/
def Obligations.NopBindUnbind : Prop :=
  ∀ (s : State) (t : Nat) (q : SqRef) (f : Fetched),
    (Next s t q 0x01 f → f.desc.length = 0 → Roomy s q → Does (.nop t q) s fun s1 =>
      s1.quiet = (s.at t).quiet ∧ (s1.sqAt q).fetched = (s.sqAt q).fetched.drop 1 ∧ Answered s1 q f 0 0 0) ∧
    (∀ i, Next s t q 0x02 f → Passes s t q f bindExec → unitIndex f.desc.unit = some i →
      Does (.bind t q) s fun s1 =>
        s1.units[i].owner = some (Fin.ofNat 4 (f.desc.byte 24)) ∧ s1.units[i].role = f.desc.byte 25 ∧
        s1.units[i].epoch = (if s.units[i].epoch < 65535 then s.units[i].epoch + 1 else 1) ∧
        (∀ j, j ≠ i → s1.units[j] = s.units[j]) ∧ Reports s1 q f stOk 0 s1.units[i].epoch) ∧
    (∀ i, Next s t q 0x03 f → Passes s t q f unbindExec → unitIndex f.desc.unit = some i →
      Does (.unbind t q) s fun s1 =>
        s1.units[i].owner = none ∧ s1.units[i].role = 0 ∧
        s1.units[i].epoch = (if s.units[i].epoch < 65535 then s.units[i].epoch + 1 else 1) ∧
        (∀ j, j ≠ i → s1.units[j] = s.units[j]) ∧ Reports s1 q f stOk 0 s1.units[i].epoch) ∧
    (s.admin ≠ q.port → (Next s t q 0x02 f → Does (.bind t q) s fun s1 => s1.units = s.units) ∧
      (Next s t q 0x03 f → Does (.unbind t q) s fun s1 => s1.units = s.units))

/-- R72, R73, R97, R98, R100: while the port answers, a doorbell of an enabled ring with an index below the ring's size moves
the tail of that submission ring, or the head of that completion ring or of the event ring, to the index, and no other index
of the port; a doorbell of a ring that is not enabled, or with a greater index, or at a BAR2 offset that is no doorbell, moves
none and counts in DB_ERR. -/
def Obligations.Doorbells : Prop :=
  ∀ (s : State) (t : Nat) (p : PortId) (n : Fin 32) (v : Word), (s.at t).busUp p = true →
    (s.ports[p].sqs[n].enabled = true → fld v 15 0 < ringSize s.ports[p].sqs[n].cfg →
      Does (.sqTailDoorbell t p (8 * n.val) v) s fun s1 =>
        s1.ports[p].sqs = s.ports[p].sqs.set n { s.ports[p].sqs[n] with tail := fld v 15 0 } ∧
        s1.ports[p].cqs = s.ports[p].cqs ∧ s1.ports[p].eq = s.ports[p].eq ∧ s1.ports[p].dbErr = s.ports[p].dbErr ∧
        s1.quiet = (s.at t).quiet) ∧
    (¬(s.ports[p].sqs[n].enabled = true ∧ fld v 15 0 < ringSize s.ports[p].sqs[n].cfg) →
      Does (.sqTailDoorbell t p (8 * n.val) v) s fun s1 =>
        s1.ports[p].sqs = s.ports[p].sqs ∧ s1.ports[p].dbErr = min (s.ports[p].dbErr + 1) 65535 ∧
        s1.quiet = (s.at t).quiet) ∧
    (∀ off, off % 8 ≠ 0 ∨ 0x200 < off → Does (.sqTailDoorbell t p off v) s fun s1 =>
      s1.ports[p].sqs = s.ports[p].sqs ∧ s1.ports[p].cqs = s.ports[p].cqs ∧ s1.ports[p].eq = s.ports[p].eq ∧
      s1.ports[p].dbErr = min (s.ports[p].dbErr + 1) 65535 ∧ s1.quiet = (s.at t).quiet) ∧
    (s.ports[p].cqs[n].enabled = true → fld v 15 0 < ringSize s.ports[p].cqs[n].cfg →
      Does (.cqHeadDoorbell t p n v) s fun s1 =>
        s1.ports[p].cqs[n].head = fld v 15 0 ∧ s1.ports[p].cqs[n].tail = s.ports[p].cqs[n].tail ∧
        (∀ m, m ≠ n → s1.ports[p].cqs[m] = s.ports[p].cqs[m]) ∧ s1.ports[p].sqs = s.ports[p].sqs ∧
        s1.ports[p].eq = s.ports[p].eq ∧ s1.ports[p].dbErr = s.ports[p].dbErr ∧ s1.quiet = (s.at t).quiet) ∧
    (¬(s.ports[p].cqs[n].enabled = true ∧ fld v 15 0 < ringSize s.ports[p].cqs[n].cfg) →
      Does (.cqHeadDoorbell t p n v) s fun s1 =>
        s1.ports[p].cqs = s.ports[p].cqs ∧ s1.ports[p].dbErr = min (s.ports[p].dbErr + 1) 65535 ∧
        s1.quiet = (s.at t).quiet) ∧
    (s.ports[p].eq.enabled = true → fld v 15 0 < ringSize s.ports[p].eq.cfg →
      Does (.eqHeadDoorbell t p v) s fun s1 =>
        s1.ports[p].eq.head = fld v 15 0 ∧ s1.ports[p].eq.tail = s.ports[p].eq.tail ∧
        s1.ports[p].sqs = s.ports[p].sqs ∧ s1.ports[p].cqs = s.ports[p].cqs ∧
        s1.ports[p].dbErr = s.ports[p].dbErr ∧ s1.quiet = (s.at t).quiet) ∧
    (¬(s.ports[p].eq.enabled = true ∧ fld v 15 0 < ringSize s.ports[p].eq.cfg) →
      Does (.eqHeadDoorbell t p v) s fun s1 =>
        s1.ports[p].eq.head = s.ports[p].eq.head ∧ s1.ports[p].dbErr = min (s.ports[p].dbErr + 1) 65535 ∧
        s1.quiet = (s.at t).quiet)

/-- R68, R96, R97: from an enabled submission ring that is not faulted and has entries waiting, a DESCRIPTOR_FETCH reads at the
host address of its head and brings at most eight entries, none beyond the tail and none past the end of the ring; they are
queued in ring order as the descriptors that their bytes hold, each stamped with its arrival, and the head moves past them.
R122: a fetch that fails sets ERR to FAULT and moves nothing. R105: the 64 bytes of a descriptor read back as that descriptor.
R66: no request carries No Snoop, and the reads of descriptor buffers alone carry Relaxed Ordering. -/
def Obligations.DescriptorFetch : Prop :=
  (∀ (s : State) (t : Nat) (q : SqRef), (s.at t).busUp q.port = true →
    (s.sqAt q).enabled = true → (s.sqAt q).err ≠ 5 → (s.sqAt q).waiting ≠ 0 →
    (∀ es : List RingEntry, Does (.descriptorFetch t q (.arrived es)) s fun s1 =>
        let r := s.sqAt q
        let ds := es.take (min 8 (min r.waiting (ringSize r.cfg - r.head)))
        (s1.sqAt q).head = (r.head + ds.length) % ringSize r.cfg ∧ (s1.sqAt q).tail = r.tail ∧
        (s1.sqAt q).fetched.map (·.desc) = r.fetched.map (·.desc) ++ ds.map Desc.ofEntry ∧
        (∀ x ∈ (s1.sqAt q).fetched.drop r.fetched.length, x.stamp = max s.dtime t) ∧
        Out.read q.port .entries (hostAddr r.baseLo r.baseHi + 64 * r.head) (64 * ds.length) ∈ s1.outbox ∧
        (∀ q', q' ≠ q → s1.sqAt q' = s.sqAt q')) ∧
    (∀ k, Does (.descriptorFetch t q (.failed k)) s fun s1 =>
        (s1.sqAt q).err = 5 ∧ (s1.sqAt q).head = (s.sqAt q).head ∧ (s1.sqAt q).fetched = (s.sqAt q).fetched)) ∧
  (∀ (d : Desc) (e : RingEntry), d.wf = true → e.toList = d.bytes → Desc.ofEntry e = d) ∧
  (∀ o : Out, o.attrs.noSnoop = false ∧ (o.attrs.relaxed = true ↔ ∃ p a n, o = .read p .buffer a n))

/-- R101: COMPLETION_RESUME writes the oldest held completion of a ring at the tail of its completion ring once that can take
one. R102: EVENTS_LOST writes event 0x6003 once the event ring can take one, and the count of lost events begins anew. R119:
COAL_TIMEOUT marks as signalled what a completion ring whose interrupt condition holds has not signalled. R61, R62, R116:
DESCRIPTOR_TIMEOUT, no earlier than 250 ns after the deadline of a held descriptor, ends it with status TIMEOUT stamped with
the deadline (the model's choice, log 122). R122: a write that fails on a completion ring, or on the event ring, sets its ERR
to FAULT and stops it, and completions that wait for that completion ring are lost. -/
def Obligations.HeldCompletionsAndRingFaults : Prop :=
  ∀ (s : State) (t : Nat) (q : SqRef), (s.at t).busUp q.port = true →
    let c := (s.sqAt q).cqId
    let r := s.ports[q.port].cqs[c]
    let e := s.ports[q.port].eq
    (∀ x rest, (s.sqAt q).stalled = x :: rest → r.usable = true → r.hasSpace = true →
      Does (.completionResume t q none) s fun s1 =>
        (s1.sqAt q).stalled = rest ∧ Out.completion q.port c r.tail (r.base + 16 * r.tail) r.phase x ∈ s1.outbox ∧
        s1.ports[q.port].cqs[c].tail = (r.tail + 1) % ringSize r.cfg ∧ s1.quiet = (s.at t).quiet) ∧
    (s.ports[q.port].lostSince ≠ 0 → e.usable = true → e.hasSpace = true →
      Does (.eventsLost t q.port none) s fun s1 => s1.ports[q.port].lostSince = 0 ∧
        s1.ports[q.port].eq.tail = (e.tail + 1) % ringSize e.cfg ∧
        (∃ b x, Out.event q.port e.tail (e.base + 32 * e.tail) e.phase b x ∈ s1.outbox ∧ x.code = 0x6003) ∧
        s1.quiet = (s.at t).quiet) ∧
    (∀ k, (s.ports[q.port].cqs[k]).wantsIrq (max s.dtime t) = true →
      Does (.coalTimeout t q.port k) s fun s1 =>
        s1.ports[q.port].cqs[k].irqReady = false ∧ s1.ports[q.port].cqs[k].unsignalled = [] ∧
        s1.quiet = (s.at t).quiet) ∧
    (∀ h d, (s.sqAt q).held = some h → h.deadline = some d → d + 250 ≤ max s.dtime t → r.usable = true →
      Does (.descriptorTimeout t q) s fun s1 => (s1.sqAt q).held = none ∧ (s1.sqAt q).behind = [] ∧
        (∃ x : Completion, ((∃ i a ph, Out.completion q.port c i a ph x ∈ s1.outbox) ∨ x ∈ (s1.sqAt q).stalled) ∧
          x.cid = h.cid ∧ x.sqId = q.sq.val ∧ x.status = 0x0A ∧ x.stamp = d % 2 ^ 32)) ∧
    (∀ aer, r.usable = true → Does (.completionResume t q (some aer)) s fun s1 =>
      s1.ports[q.port].cqs[c].err = 5 ∧ s1.ports[q.port].cqs[c].usable = false ∧
      (∀ m : Fin 32, (s.ports[q.port].sqs[m]).cqId = c → s1.ports[q.port].sqs[m].stalled = []) ∧ s1.quiet = (s.at t).quiet) ∧
    (∀ aer, e.usable = true → Does (.eventsLost t q.port (some aer)) s fun s1 =>
      s1.ports[q.port].eq.err = 5 ∧ s1.ports[q.port].eq.usable = false ∧ s1.quiet = (s.at t).quiet)

/-- R93, R94: RING_ENABLE of a ring that is not enabled creates it with head and tail at 0 and ERR 0, or leaves it as it is not
enabled with the lowest code that applies: 1 for a SIZE_K outside 4 to 16, 2 for a base that is not aligned to 256 bytes, 3
for a submission ring whose completion ring is not enabled. R103: RING_DISABLE of an enabled submission ring empties it, moves
its head to its tail, and reports every fetched descriptor as ABORTED where none of the ring is held and its completion ring
is usable. R104: an enabled completion ring that an enabled submission ring names stays enabled with ERR 4; any other is
disabled, and so is the event ring. -/
def Obligations.RingEnableDisable : Prop :=
  ∀ (s : State) (t : Nat) (p : PortId) (cfg : Word), (s.at t).busUp p = true →
    (∀ n, (s.ports[p].sqs[n]).enabled = false →
      Does (.ringEnable t p (.sq n) cfg) s fun s1 =>
        let cq := s.ports[p].cqs[Fin.ofNat 32 (fld cfg 12 8)]
        let e := if fld cfg 4 0 < 4 ∨ 16 < fld cfg 4 0 then 1
          else if (s.ports[p].sqs[n]).baseLo.toNat % 256 ≠ 0 then 2 else if cq.enabled = false then 3 else 0
        s1.ports[p].sqs[n].err = e ∧ s1.ports[p].sqs[n].enabled = (e == 0) ∧
        (e = 0 → s1.ports[p].sqs[n].head = 0 ∧ s1.ports[p].sqs[n].tail = 0 ∧
          s1.ports[p].sqs[n].cqId = Fin.ofNat 32 (fld cfg 12 8)) ∧
        (∀ m, m ≠ n → s1.ports[p].sqs[m] = s.ports[p].sqs[m]) ∧ s1.quiet = (s.at t).quiet) ∧
    (∀ c, (s.ports[p].cqs[c]).enabled = false →
      Does (.ringEnable t p (.cq c) cfg) s fun s1 =>
        let e := if fld cfg 4 0 < 4 ∨ 16 < fld cfg 4 0 then 1
          else if (s.ports[p].cqs[c]).baseLo.toNat % 256 ≠ 0 then 2 else 0
        s1.ports[p].cqs[c].err = e ∧ s1.ports[p].cqs[c].enabled = (e == 0) ∧
        (e = 0 → s1.ports[p].cqs[c].head = 0 ∧ s1.ports[p].cqs[c].tail = 0) ∧
        (∀ m, m ≠ c → s1.ports[p].cqs[m] = s.ports[p].cqs[m]) ∧ s1.quiet = (s.at t).quiet) ∧
    (s.ports[p].eq.enabled = false →
      Does (.ringEnable t p .eq cfg) s fun s1 =>
        let e := if fld cfg 4 0 < 4 ∨ 16 < fld cfg 4 0 then 1
          else if s.ports[p].eq.baseLo.toNat % 256 ≠ 0 then 2 else 0
        s1.ports[p].eq.err = e ∧ s1.ports[p].eq.enabled = (e == 0) ∧
        (e = 0 → s1.ports[p].eq.head = 0 ∧ s1.ports[p].eq.tail = 0) ∧ s1.quiet = (s.at t).quiet) ∧
    (∀ n got, (s.ports[p].sqs[n]).enabled = true →
      Does (.ringDisable t p (.sq n) cfg got) s fun s1 =>
        s1.ports[p].sqs[n].enabled = false ∧ s1.ports[p].sqs[n].fetched = [] ∧
        s1.ports[p].sqs[n].head = s.ports[p].sqs[n].tail ∧
        ((s.ports[p].sqs[n]).held = none → (s.ports[p].cqs[(s.ports[p].sqs[n]).cqId]).usable = true →
          ∀ f ∈ (s.ports[p].sqs[n]).fetched, Reports s1 { port := p, sq := n } f stAborted 0 0)) ∧
    (∀ c got, (s.ports[p].cqs[c]).enabled = true →
      ((∃ m : Fin 32, (s.ports[p].sqs[m]).enabled = true ∧ (s.ports[p].sqs[m]).cqId = c) →
        Does (.ringDisable t p (.cq c) cfg got) s fun s1 =>
          s1.ports[p].cqs[c].enabled = true ∧ s1.ports[p].cqs[c].err = 4) ∧
      ((∀ m : Fin 32, (s.ports[p].sqs[m]).enabled = true → (s.ports[p].sqs[m]).cqId ≠ c) →
        Does (.ringDisable t p (.cq c) cfg got) s fun s1 => s1.ports[p].cqs[c].enabled = false)) ∧
    (∀ got, s.ports[p].eq.enabled = true →
      Does (.ringDisable t p .eq cfg got) s fun s1 => s1.ports[p].eq.enabled = false)

/-- With the main supply up. R124: a port in L0 that goes down shows its link down or in D3hot, its rings are disabled and
empty, nothing of it is held, and the unit table stands. R126: the link of a port that is down comes back to L0, and nothing
else changes but reports. R124, R126: a Function Level Reset of a port in L0, or the return from D3hot of one there, puts the
HOST block, the rings and the MSI-X table of the port back to their reset values and leaves the unit table. R65, R127: a
configuration request to a port whose link is up and that is in service is answered with Retry until the device is READY, and
then with the identity of R65. -/
def Obligations.PortsDownUpReset : Prop :=
  ∀ (s : State) (t : Nat) (p : PortId), s.supplied = true →
    (∀ cause, s.ports[p].link = .l0 →
      Does (.portDown t p cause) s fun s1 =>
        s1.ports[p].link = (match cause with
          | .link => Link.down
          | .d3hot => Link.d3hot) ∧
        (∀ n : Fin 32, s1.ports[p].sqs[n].enabled = false ∧ s1.ports[p].sqs[n].fetched = [] ∧ s1.ports[p].sqs[n].held = none) ∧
        (∀ c : Fin 32, s1.ports[p].cqs[c].enabled = false) ∧ s1.ports[p].eq.enabled = false ∧ s1.units = s.units) ∧
    (∀ speed width, s.ports[p].link = .down →
      Does (.portUp t p speed width) s fun s1 => s1.ports[p].link = .l0 ∧ s1.quiet = (s.at t).quiet) ∧
    (s.ports[p].link = .l0 →
      Does (.functionLevelReset t p false) s fun s1 =>
        s1.ports[p].link = .l0 ∧
        s1.ports[p].control = 1 ∧ s1.ports[p].nonownerWr = 0 ∧ s1.ports[p].dbErr = 0 ∧ s1.ports[p].evtLost = 0 ∧
        s1.ports[p].sqs = Vector.replicate 32 {} ∧ s1.ports[p].cqs = Vector.replicate 32 {} ∧ s1.ports[p].eq = {} ∧
        s1.ports[p].msix = Vector.replicate 64 {} ∧ s1.units = s.units) ∧
    (s.ports[p].link = .d3hot →
      Does (.functionLevelReset t p true) s fun s1 =>
        s1.ports[p].control = 1 ∧ s1.ports[p].nonownerWr = 0 ∧ s1.ports[p].dbErr = 0 ∧ s1.ports[p].evtLost = 0 ∧
        s1.ports[p].sqs = Vector.replicate 32 {} ∧ s1.ports[p].cqs = Vector.replicate 32 {} ∧ s1.ports[p].eq = {} ∧
        s1.ports[p].msix = Vector.replicate 64 {} ∧ s1.quiet = (s.at t).quiet) ∧
    (s.ports[p].link ≠ .down → s.dev.portFail.getLsbD p = false →
      (s.hostUp = false → s.configRead p = some .retry) ∧
      (s.hostUp = true → ∃ v x e, s.configRead p = some (.data v x e) ∧
        x.deviceId = 0x9128 ∧ x.classCode = 0x088000 ∧ x.bar0Bytes = 4194304 ∧ x.bar2Bytes = 65536 ∧ x.functions = 1 ∧
        x.vectors = 64))

/-- While the port answers. R13: an access of BAR0 that is narrower than 32 bits or unaligned is not performed: a read of this
kind returns 0 and a write of this kind is dropped, and nothing but the count of requests changes. R78: an aligned write into
the block of a channel, of the FPE or of a CAN controller takes effect as that block says when it comes from the unit's owner,
and from any other port is dropped and counted in NONOWNER_WR. R71: a write of HOST.CONTROL sets DOWN_ACT of the port that
writes. R79: a write of TIME.CONTROL by the administrator port takes effect, and by another is dropped and counted. R14, R15:
a read of the low half of DTIME returns it and latches the high half for that port alone. R73: a read of BAR2 returns 0. -/
def Obligations.RegisterAccess : Prop :=
  ∀ (s : State) (t : Nat) (p : PortId), (s.at t).busUp p = true →
    (∀ off size, size < 4 ∨ off % 4 ≠ 0 → Does (.narrowAccess t p off size none) s fun s1 =>
      s1 = { (s.at t).countMmio p with lastRead := 0 }) ∧
    (∀ off size v, size < 4 ∨ off % 4 ≠ 0 → Does (.narrowAccess t p off size (some v)) s fun s1 =>
      s1 = (s.at t).countMmio p) ∧
    (∀ (n : ChanId) reg v got, reg % 4 = 0 → reg < 0x1000 →
      (s.ownerOf (chUnit n) = some p → Leaves (.registerWrite t p (0x100000 + n.val * 0x1000 + reg) ⟨v, got⟩) s t n fun c =>
        c = (((s.at t).chanIn n).writeReg reg v).c) ∧
      (s.ownerOf (chUnit n) ≠ some p → Does (.registerWrite t p (0x100000 + n.val * 0x1000 + reg) ⟨v, got⟩) s fun s1 =>
        s1.quiet = (s.at t).quiet ∧ s1.ports[p].nonownerWr = min (s.ports[p].nonownerWr + 1) 65535)) ∧
    (∀ off v got, off % 4 = 0 → off < 0x10000 →
      (s.ownerOf fpeUnit = some p → Does (.registerWrite t p (0x020000 + off) ⟨v, got⟩) s fun s1 =>
        s1 = ((s.at t).countMmio p).writeFpe off v) ∧
      (s.ownerOf fpeUnit ≠ some p → Does (.registerWrite t p (0x020000 + off) ⟨v, got⟩) s fun s1 =>
        s1.quiet = (s.at t).quiet ∧ s1.ports[p].nonownerWr = min (s.ports[p].nonownerWr + 1) 65535)) ∧
    (∀ (k : CanId) off v got, off % 4 = 0 → off < 0x1000 →
      (s.ownerOf (canUnit k) = some p → Does (.registerWrite t p (0x030000 + k.val * 0x1000 + off) ⟨v, got⟩) s fun s1 =>
        s1 = ((s.at t).countMmio p).writeCan k off v) ∧
      (s.ownerOf (canUnit k) ≠ some p → Does (.registerWrite t p (0x030000 + k.val * 0x1000 + off) ⟨v, got⟩) s fun s1 =>
        s1.quiet = (s.at t).quiet ∧ s1.ports[p].nonownerWr = min (s.ports[p].nonownerWr + 1) 65535)) ∧
    (∀ v got, Does (.registerWrite t p 0x010004 ⟨v, got⟩) s fun s1 =>
      s1.ports[p].control = v &&& 1#32 ∧ s1.quiet = (s.at t).quiet ∧ (∀ p', p' ≠ p → s1.ports[p'] = s.ports[p'])) ∧
    (∀ v got, (s.admin = p → Does (.registerWrite t p 0x054004 ⟨v, got⟩) s fun s1 =>
        s1.time.control = merge s.time.control v 0x0000FF03#32 ∧ s1.quiet = { (s.at t).quiet with time := s1.time }) ∧
      (s.admin ≠ p → Does (.registerWrite t p 0x054004 ⟨v, got⟩) s fun s1 =>
        s1.quiet = (s.at t).quiet ∧ s1.ports[p].nonownerWr = min (s.ports[p].nonownerWr + 1) 65535)) ∧
    Does (.lowHalfRead t p ⟨false, 0x054010⟩) s (fun s1 =>
      s1.lastRead = BitVec.ofNat 32 (max s.dtime t) ∧
      s1.ports[p].latches = Cells.set 0 s.ports[p].latches 0x054010 (BitVec.ofNat 32 (max s.dtime t / 2 ^ 32)) ∧
      s1.quiet = { (s.at t).quiet with lastRead := s1.lastRead } ∧
      (∀ p', p' ≠ p → s1.ports[p'] = s.ports[p'])) ∧
    (∀ off, Does (.lowHalfRead t p ⟨true, off⟩) s fun s1 => s1 = { (s.at t).countMmio p with lastRead := 0 })


/-! ### Chapters 03, 05, 08, 11: descriptors addressed to a channel -/

/-- R136, R370: CH_RUN makes the release of the gate lanes due, clears START_DONE and waits. R132, R136, R347: CH_STOP, not
overtaken by a WRONG_MOTOR that is pending (log 110), leaves RUN for OFF/READY when hard or while START_DONE is 0, and for
STOPPING otherwise; it leaves ARMED, BRAKE and DISCHARGE for OFF/READY, and in OFF and READY ends a lock sequence or changes
nothing; it reports OK. R356: CH_BRAKE leads to BRAKE in the mode its PARAM names, and reports OK. -/
def Obligations.ChannelRunStopBrake : Prop :=
  ∀ (s : State) (t : Nat) (q : SqRef) (f : Fetched) (n : ChanId), chanOf f.desc = n →
    (Next s t q 0x11 f → Passes s t q f chRunExec →
      Leaves (.chRun t q) s t n (fun c => c = { s.chanAt t n with
        pwm := { s.chans[n].pwm with release := true, releaseLate := c.pwm.releaseLate }
        fcu := { s.chans[n].fcu with startDone := false } }) ∧
      Does (.chRun t q) s fun s1 => (s1.sqAt q).held.map (fun h => (h.opcode, h.cid)) = some (0x11, f.desc.cid)) ∧
    (Next s t q 0x12 f → Passes s t q f chStopExec → Does (.chStop t q) s fun s1 => Reports s1 q f 0 0 0) ∧
    (Next s t q 0x12 f → Passes s t q f chStopExec → s.chans[n].core.code = .run → f.desc.byte 24 ≠ 0 →
      Leaves (.chStop t q) s t n fun c =>
        c.core.code = (if s.chans[n].core.verified then .ready else .off) ∧ c.core.prev = .run ∧ c.core.cause = 0x12 ∧
        c.core.onPll = false ∧ c.tb.state = .idle ∧ c.nle.enabled = false ∧ c.pwm.released = false) ∧
    (Next s t q 0x12 f → Passes s t q f chStopExec → s.chans[n].core.code = .run → f.desc.byte 24 = 0 →
        s.chans[n].fcu.startDone = true →
      Leaves (.chStop t q) s t n fun c =>
        c.core.code = .stopping ∧ c.core.prev = .run ∧ c.core.cause = 0x12 ∧ c.core.stopFrom = some (max s.dtime t) ∧
        c.core.onPll = (s.chans[n].core.onPll && s.chans[n].tb.seqBegan.isNone) ∧
        c.nle.enabled = s.chans[n].nle.enabled ∧ c.pwm.released = s.chans[n].pwm.released) ∧
    (Next s t q 0x12 f → Passes s t q f chStopExec → s.chans[n].core.code = .run → f.desc.byte 24 = 0 →
        s.chans[n].fcu.startDone = false →
      Leaves (.chStop t q) s t n fun c =>
        c.core.code = (if s.chans[n].core.verified then .ready else .off) ∧ c.core.prev = .stopping ∧
        c.core.cause = 0x20 ∧ c.pwm.released = false) ∧
    (Next s t q 0x12 f → Passes s t q f chStopExec →
        (s.chans[n].core.code = .armed ∨ s.chans[n].core.code = .brake ∨ s.chans[n].core.code = .discharge) →
      Leaves (.chStop t q) s t n fun c =>
        c.core.code = (if s.chans[n].core.verified then .ready else .off) ∧ c.core.prev = s.chans[n].core.code ∧
        c.core.cause = 0x12 ∧ c.core.onPll = false ∧ c.nle.enabled = false) ∧
    (Next s t q 0x12 f → Passes s t q f chStopExec →
        (s.chans[n].core.code = .off ∨ s.chans[n].core.code = .ready) →
      (s.chans[n].tb.seqBegan.isSome = true → Leaves (.chStop t q) s t n fun c =>
        c.tb.seqBegan = none ∧ c.tb.state = .idle ∧ c.core = { s.chans[n].core with onPll := false }) ∧
      (s.chans[n].tb.seqBegan = none → Leaves (.chStop t q) s t n fun c => c = s.chanAt t n)) ∧
    (Next s t q 0x13 f → Passes s t q f chBrakeExec →
      Leaves (.chBrake t q) s t n (fun c =>
        c.core.code = .brake ∧ c.core.prev = s.chans[n].core.code ∧ c.core.cause = 0x13 ∧
        c.fcu.phase = (if f.desc.byte 24 = 1 then .brakePulsed else .brakeAsc) ∧ c.fcu.brakeSlow = false ∧
        c.pwm.released = false ∧ c.nle.enabled = s.chans[n].nle.enabled) ∧
      Does (.chBrake t q) s fun s1 => Reports s1 q f 0 0 0)

/-- R358: CH_DISCHARGE enters DISCHARGE in the mode its PARAM names, a mode above 2 acting as 0. R452: CH_CLEAR_TRIP leaves
TRIPPED or LOCKED, clears what protection holds, and reports the sources that were latched. -/
def Obligations.ChannelDischargeAndClearTrip : Prop :=
  ∀ (s : State) (t : Nat) (q : SqRef) (f : Fetched) (n : ChanId), chanOf f.desc = n →
    (Next s t q 0x14 f → Passes s t q f chDischargeExec → Leaves (.chDischarge t q) s t n fun c =>
      c.core.code = .discharge ∧ c.core.prev = s.chans[n].core.code ∧ c.core.cause = 0x14 ∧ c.fcu.phase = .discharge ∧
      c.fcu.dis = some { mode := if f.desc.byte 24 = 1 then 1 else if f.desc.byte 24 = 2 then 2 else 0,
                         start := max s.dtime t, low := none }) ∧
    (Next s t q 0x15 f → Passes s t q f chClearTripExec →
      Leaves (.chClearTrip t q) s t n (fun c =>
        c.core.code = (if s.chans[n].core.isUnplugged then .unplugged else if s.chans[n].core.verified then .ready else .off) ∧
        c.core.cause = 0x15 ∧ c.prot.latched = 0 ∧ c.prot.stamps = [] ∧ c.prot.held = 0 ∧ c.prot.wait = none ∧
        c.prot.chopFlt = false) ∧
      Does (.chClearTrip t q) s fun s1 => Reports s1 q f 0 0 s.chans[n].prot.latched.toNat)

/-- R402: CH_SETPOINT delivers the selected setpoints, changes nothing else and reports OK. R279: CH_CMP_TEST starts its test
and waits. R728: CH_LB_TEST starts its test and waits; a position test takes over the pins, with HALL in sector 0, and leaves
what the host has set up. -/
def Obligations.ChannelSetpointAndTests : Prop :=
  ∀ (s : State) (t : Nat) (q : SqRef) (f : Fetched) (n : ChanId), chanOf f.desc = n →
    (Next s t q 0x16 f → Passes s t q f chSetpointExec → Cells.wf 0 s.chans[n].nle.inp = true →
      Leaves (.chSetpoint t q) s t n (fun c =>
        c = { s.chanAt t n with nle := { s.chans[n].nle with inp := c.nle.inp } } ∧
        ∀ a, Cells.get 0 c.nle.inp a =
          if 0x240 ≤ a ∧ a < 0x248 ∧ (f.desc.byte 24).testBit (a - 0x240) = true then
            BitVec.ofNat 16 (f.desc.num (32 + 2 * (a - 0x240)) 2)
          else Cells.get 0 s.chans[n].nle.inp a) ∧
      Does (.chSetpoint t q) s fun s1 => Reports s1 q f 0 0 0) ∧
    (Next s t q 0x17 f → Passes s t q f chCmpTestExec →
      Leaves (.chCmpTest t q) s t n (fun c =>
        c = { s.chanAt t n with adc := { (s.chanAt t n).adc with cmpTest := some (max s.dtime t) } }) ∧
      Does (.chCmpTest t q) s fun s1 => (s1.sqAt q).held.map (fun h => (h.opcode, h.cid)) = some (0x17, f.desc.cid)) ∧
    (Next s t q 0x19 f → Passes s t q f chLbTestExec →
      Does (.chLbTest t q) s fun s1 => (s1.sqAt q).held.map (fun h => (h.opcode, h.cid)) = some (0x19, f.desc.cid)) ∧
    (Next s t q 0x19 f → Passes s t q f chLbTestExec → f.desc.byte 24 ≠ 1 → Leaves (.chLbTest t q) s t n fun c =>
      c = { s.chanAt t n with core := { s.chans[n].core with lb := c.core.lb } } ∧
      c.core.lb.map (fun l => (l.target, l.depth, l.start, l.made)) =
        some (f.desc.byte 24, f.desc.byte 25, max s.dtime t, 0)) ∧
    (Next s t q 0x19 f → Passes s t q f chLbTestExec → f.desc.byte 24 = 1 → Leaves (.chLbTest t q) s t n fun c =>
      c.core = { s.chans[n].core with lb := c.core.lb } ∧ c.kept = s.chans[n].kept ∧
      c.core.lb.map (fun l => (l.target, l.depth, l.start, l.made, l.balls, l.home)) =
        some (1, f.desc.byte 25, max s.dtime t, 0, s.chans[n].pos.pins, s.chans[n].pos.count) ∧
      c.pos.pins = (if s.chans[n].posMode = 3 then sectorPins 0 else s.chans[n].pos.pins &&& 3#3) ∧
      c.pos.sector = (if s.chans[n].posMode = 3 then some 0 else s.chans[n].pos.sector) ∧
      c.pos.count = s.chans[n].pos.count)

/-- R136, R137: CH_ARM in ARMED completes at once and changes nothing but reports. R137, R153: from OFF or READY it takes the
configuration; where an arm check fails it reports BAD_STATE with the DETAIL of the first that does, and the lock sequence
stands as it was; where none does it waits, and R166, R169: a lock sequence begins, at the next REFA edge while REFA is
present, and waiting at step 1 while it is absent; one that runs already goes on (log 38). A flux-linkage WRONG_MOTOR is not
pending. -/
def Obligations.ChannelArm : Prop :=
  ∀ (s : State) (t : Nat) (q : SqRef) (f : Fetched) (n : ChanId), chanOf f.desc = n →
    Next s t q 0x10 f → Passes s t q f chArmExec →
    let fault := ((s.at t).chanIn n).takeConfig.c.armFault s.time.refaKHz s.hk.basking
    let taken (c : Chan) : Prop :=
      c.core.code = s.chans[n].core.code ∧ c.core.configIn = s.chans[n].core.config ∧
      c.fcu.cfgIn = s.chans[n].fcu.cfg ∧ c.adc.cfgIn = s.chans[n].adc.cfg ∧ c.pwm.updIn = fld s.chans[n].pwm.cfg 31 30
    (s.chans[n].core.code = .armed → Does (.chArm t q) s fun s1 =>
      s1.quiet = (s.at t).quiet ∧ Reports s1 q f 0 0 0) ∧
    (s.chans[n].core.code ≠ .armed → s.chans[n].fcu.phase ≠ .wrongMotorAsc → s.chans[n].tb.seqBegan = none →
        s.time.refaOk = true → fault = none →
      Does (.chArm t q) s fun s1 => taken s1.chans[n] ∧ s1.chans[n].tb.seqBegan = some (max s.dtime t) ∧
        (∃ e, s1.chans[n].tb.seqFrom = some e ∧ max s.dtime t ≤ e) ∧ s1.chans[n].tb.picked = true ∧
        (s1.sqAt q).held.map (fun h => (h.opcode, h.cid)) = some (0x10, f.desc.cid)) ∧
    (s.chans[n].core.code ≠ .armed → s.chans[n].fcu.phase ≠ .wrongMotorAsc → s.chans[n].tb.seqBegan = none →
        s.time.refaOk = false → fault = none →
      Does (.chArm t q) s fun s1 => taken s1.chans[n] ∧ s1.chans[n].tb.seqBegan = some (max s.dtime t) ∧
        s1.chans[n].tb.seqFrom = none ∧
        (s1.sqAt q).held.map (fun h => (h.opcode, h.cid)) = some (0x10, f.desc.cid)) ∧
    (∀ b, s.chans[n].core.code ≠ .armed → s.chans[n].fcu.phase ≠ .wrongMotorAsc → s.chans[n].tb.seqBegan = some b →
        fault = none →
      Does (.chArm t q) s fun s1 => taken s1.chans[n] ∧ s1.chans[n].tb.seqBegan = some b ∧
        s1.chans[n].tb.seqFrom = s.chans[n].tb.seqFrom ∧
        (s1.sqAt q).held.map (fun h => (h.opcode, h.cid)) = some (0x10, f.desc.cid)) ∧
    (∀ detail, s.chans[n].core.code ≠ .armed → s.chans[n].fcu.phase ≠ .wrongMotorAsc → fault = some detail →
      Does (.chArm t q) s fun s1 => taken s1.chans[n] ∧ s1.chans[n].tb.seqBegan = s.chans[n].tb.seqBegan ∧
        Reports s1 q f 5 detail 0)

/-- R136, R145: CH_IDENT enters IDENT with the motor profile of that moment and waits, when VBUS is present, no protection
source is active and no position mode is selected. R145, R148: where a check of step 1 fails, the identification is aborted
with the reason of that check, the channel stands in OFF, not verified, and the descriptor reports OK with that reason. -/
def Obligations.ChannelIdentify : Prop :=
  ∀ (s : State) (t : Nat) (q : SqRef) (f : Fetched) (n : ChanId), chanOf f.desc = n →
    Next s t q 0x18 f → Passes s t q f chIdentExec →
    (1024 ≤ s.chans[n].adc.vbus → s.chans[n].active &&& 0xF = 0 → s.chans[n].posMode = 0 →
      Leaves (.chIdent t q) s t n fun c =>
        c.core.code = .ident ∧ c.core.prev = s.chans[n].core.code ∧ c.core.cause = 0x18 ∧
        c.core.ident.map (fun i => (i.start, i.rs, i.ls, i.rsMeas)) =
          some (max s.dtime t, s.chans[n].core.motorRs, s.chans[n].core.motorLs, none)) ∧
    (s.chans[n].adc.vbus < 1024 → Leaves (.chIdent t q) s t n fun c =>
      c.core.code = .off ∧ c.core.cause = 0x54 ∧ c.core.verified = false ∧ c.core.ident = none ∧
      fld c.core.identRs 31 24 = 1 ∧ fld c.core.identRs 19 0 = 0) ∧
    (s.chans[n].adc.vbus < 1024 → Does (.chIdent t q) s fun s1 => Reports s1 q f 0 0 0x100) ∧
    (1024 ≤ s.chans[n].adc.vbus → s.chans[n].active &&& 0xF ≠ 0 → Leaves (.chIdent t q) s t n fun c =>
      c.core.code = .off ∧ c.core.cause = 0x54 ∧ c.core.verified = false ∧ c.core.ident = none ∧
      fld c.core.identRs 31 24 = 2) ∧
    (1024 ≤ s.chans[n].adc.vbus → s.chans[n].active &&& 0xF ≠ 0 →
      Does (.chIdent t q) s fun s1 => Reports s1 q f 0 0 0x200)

/-- R398, R399: NLE_LOAD writes the engine's store; when it is the last with an UPDATE entry it makes the program loaded, and
else not loaded; R115: a buffer read that fails applies nothing. R399, R400: with no run in progress and no trigger pending, a
PSM transfer moves all the words it names and reports OK; while a run executes it waits. R401: NLE_MAILBOX delivers the words,
their number and the command word, triggers HOST and waits. -/
def Obligations.LoopEngineDescriptors : Prop :=
  (∀ (s : State) (t : Nat) (q : SqRef) (f : Fetched) (n : ChanId) (bs : List Byte), chanOf f.desc = n →
    (Next s t q 0x20 f → Passes s t q f (nleLoadExec (.arrived bs)) → Cells.wf 0 s.chans[n].nle.store = true →
      Leaves (.nleLoad t q (.arrived bs)) s t n (fun c =>
        (∀ a, Cells.get 0 c.nle.store a =
          (let k := f.desc.num 24 2 % 1024
           let ws := words (bs.take f.desc.length)
           if k ≤ a ∧ a < k + ws.length then ws.getD (a - k) 0 else Cells.get 0 s.chans[n].nle.store a)) ∧
        c.nle.loaded = (f.desc.byte 26 % 2 == 1 && (f.desc.num 28 2).testBit 15) ∧ c.core = s.chans[n].core)) ∧
    (Next s t q 0x20 f → Passes s t q f (nleLoadExec (.arrived bs)) → f.desc.byte 26 % 2 = 1 →
        (f.desc.num 28 2).testBit 15 = true →
      Leaves (.nleLoad t q (.arrived bs)) s t n (fun c =>
        c.nle.loaded = true ∧ c.nle.progId = f.desc.num 52 2 ∧ c.nle.entries[0] = some (f.desc.num 28 2 % 1024) ∧
        c.nle.budgets = #v[f.desc.num 36 4, f.desc.num 40 4, f.desc.num 44 4, f.desc.num 48 4])) ∧
    (Next s t q 0x20 f → Passes s t q f (nleLoadExec .failed) →
      Does (.nleLoad t q .failed) s fun s1 => s1.quiet = (s.at t).quiet ∧ Reports s1 q f 0x08 1 0) ∧
    (Next s t q 0x21 f → Passes s t q f (psmWriteExec (.arrived bs)) → s.chans[n].nle.run = none →
        (∀ k : Fin 4, s.chans[n].nle.pend[k] = none) → Cells.wf 0 s.chans[n].nle.psm = true →
      Leaves (.nlePsmWrite t q (.arrived bs)) s t n (fun c =>
        c.kept = { s.chans[n].kept with nle := { s.chans[n].kept.nle with psm := c.nle.psm, job := none } } ∧
        ∀ a, Cells.get 0 c.nle.psm a =
          (let k := f.desc.num 24 2 % 512
           let ws := halves (bs.take f.desc.length)
           if k ≤ a ∧ a < k + ws.length then ws.getD (a - k) 0 else Cells.get 0 s.chans[n].nle.psm a)) ∧
      Does (.nlePsmWrite t q (.arrived bs)) s fun s1 => Reports s1 q f 0 0 0) ∧
    (Next s t q 0x22 f → Passes s t q f (psmReadExec true) → s.chans[n].nle.run = none →
        (∀ k : Fin 4, s.chans[n].nle.pend[k] = none) →
      Leaves (.nlePsmRead t q true) s t n (fun c =>
        c.kept = { s.chans[n].kept with nle := { s.chans[n].kept.nle with job := none } }) ∧
      Does (.nlePsmRead t q true) s fun s1 => Reports s1 q f 0 0 0 ∧
        Out.buffer q.port f.desc.bufAddr ((List.range (f.desc.length / 2)).flatMap
          (fun k => leBytes 2 (Cells.get 0 s.chans[n].nle.psm (f.desc.num 24 2 % 512 + k)).toNat)) ∈ s1.outbox) ∧
    (Next s t q 0x22 f → Passes s t q f (psmReadExec true) → s.chans[n].nle.run.isSome = true →
      Does (.nlePsmRead t q true) s fun s1 =>
        (s1.sqAt q).held.map (fun h => (h.opcode, h.cid)) = some (0x22, f.desc.cid))) ∧
  (∀ (s : State) (t : Nat) (q : SqRef) (f : Fetched) (n : ChanId) (bs : List Byte), chanOf f.desc = n →
    Next s t q 0x23 f → Passes s t q f (mailboxExec (.arrived bs)) → bs.length = f.desc.length →
    Cells.wf 0 s.chans[n].nle.inp = true →
    Leaves (.nleMailbox t q (.arrived bs)) s t n (fun c =>
      (∀ k < 16, Cells.get 0 c.nle.inp (0x250 + k) = (halves bs).getD k 0) ∧
      Cells.get 0 c.nle.inp 0x260 = BitVec.ofNat 16 (f.desc.length / 2) ∧
      Cells.get 0 c.nle.inp 0x261 = BitVec.ofNat 16 (f.desc.num 24 2) ∧
      (∀ a, ¬ (0x250 ≤ a ∧ a ≤ 0x261) → Cells.get 0 c.nle.inp a = Cells.get 0 s.chans[n].nle.inp a) ∧
      (s.chans[n].nle.loaded = true → c.nle.pend[3].isSome = true) ∧ c.core = s.chans[n].core) ∧
    Does (.nleMailbox t q (.arrived bs)) s fun s1 =>
      (s1.sqAt q).held.map (fun h => (h.opcode, h.cid)) = some (0x23, f.desc.cid))


/-- R136, R279, R356, R358, R399, R452: the states in which the opcodes of a channel are permitted, once checks 1 to 4 of R113
pass. That a pending WRONG_MOTOR turns CH_STOP and CH_BRAKE away, and that CH_IDENT is turned away while the device basks, are
the model's readings (logs 110, 111). -/
def Obligations.ChannelOpcodeStates : Prop :=
  ∀ (s : State) (p : PortId) (d : Desc),
    let c := s.chans[chanOf d].core.code
    (chRunExec.check s p d = none ↔
      c = .armed ∧ s.refusal (chanOf d) = 0 ∧ s.clusterFailed (chanOf d) = false) ∧
    (chArmExec.check s p d = none ↔
      (c = .ready ∨ c = .armed ∨ (c = .off ∧ bitOf s.chans[chanOf d].core.config 2 = false)) ∧
        s.refusal (chanOf d) = 0 ∧ s.clusterFailed (chanOf d) = false) ∧
    (chStopExec.check s p d = none ↔ s.chans[chanOf d].fcu.phase ≠ .wrongMotorAsc ∧
      ¬ (c = .safe ∨ c = .tripped ∨ c = .locked ∨ c = .unplugged ∨ c = .wrongMotor)) ∧
    (chBrakeExec.check s p d = none ↔ s.chans[chanOf d].fcu.phase ≠ .wrongMotorAsc ∧ (c = .run ∨ c = .stopping)) ∧
    (chIdentExec.check s p d = none ↔ (c = .off ∨ c = .ready ∨ c = .wrongMotor) ∧ s.hk.basking = false ∧
      s.refusal (chanOf d) = 0 ∧ s.clusterFailed (chanOf d) = false) ∧
    (chCmpTestExec.check s p d = none ↔ (c = .off ∨ c = .ready ∨ c = .armed ∨ c = .unplugged ∨ c = .wrongMotor) ∧
      s.clusterFailed (chanOf d) = false) ∧
    (c ≠ .armed → chRunExec.check s p d = some (5, c.num)) ∧
    (c ≠ .run → c ≠ .stopping → s.chans[chanOf d].fcu.phase ≠ .wrongMotorAsc → chBrakeExec.check s p d = some (5, c.num)) ∧
    (s.chans[chanOf d].fcu.phase = .wrongMotorAsc → chStopExec.check s p d = some (5, 12) ∧
      chBrakeExec.check s p d = some (5, 12)) ∧
    (c ≠ .tripped → c ≠ .locked → chClearTripExec.check s p d = some (5, c.num))

/-! ### Chapters 04, 05: time base, carrier, modulator -/

/-- R164, R166, R167: lock is detected once step 3 has lasted 256 REFA periods, within its 500 µs: the island runs on the PLL,
and the entries that step 2 calibrated have CAL. R166, R193: the carrier that reaches count 0 on the grid, with no protection
source active and no comparator failed, enters ARMED, with the anchor of that instant. R168, R169: a sequence not locked within
500 µs begins again, at the next REFA edge or waiting for REFA, and keeps its entry and word (the model's choice for a word
written since, log 124). -/
def Obligations.LockSequence : Prop :=
  ∀ (s : State) (t : Nat) (n : ChanId), (s.at t).powered = true →
    let c0 := s.chans[n]
    let now := max s.dtime t
    (∀ f, c0.tb.seqFrom = some f → c0.tb.state = .idle → s.time.refaOk = true →
        f + 4000 * c0.tb.calCount ≤ now → now ≤ f + 4000 * c0.tb.calCount + 500000 →
        4000 * c0.tb.calCount * s.time.refaKHz * 2 ^ 20 + 256 * refU ≤ s.time.phase now - c0.tb.stateRef →
      Leaves (.lockDetected t n) s t n fun c =>
        c.tb.state = .aligning ∧ c.core.onPll = true ∧ c.core.code = c0.core.code ∧ c.tb.word = c0.tb.word ∧
        c.tb.entry = c0.tb.entry ∧ c.tb.seqBegan = c0.tb.seqBegan ∧
        (∀ i : Fin 8, c.tb.bands[i] = { c0.tb.bands[i] with cal := c0.tb.bands[i].cal || c0.tb.calDue.getLsbD i })) ∧
    (∀ b, c0.tb.seqBegan = some b → c0.tb.state = .aligning → c0.active = 0 → c0.adc.cmpFail = 0 →
        c0.firstGrid ≤ c0.ticksMost s.time (s.dieTemp n) now →
      Leaves (.tbLocked t n) s t n fun c =>
        c.core.code = .armed ∧ c.core.prev = c0.core.code ∧ c.core.cause = 0x10 ∧ c.tb.state = .locked ∧
        c.tb.seqBegan = none ∧ c.tb.offGrid = false ∧ c.tb.lockCnt = min (c0.tb.lockCnt + 1) 255 ∧
        c.pwm.released = false ∧ c.nle.enabled = true ∧
        ∃ u ≤ now, c.pwm.count0 = some u ∧ c.pwm.tick0 = c0.firstGrid ∧ c.tb.anchor = u % 2 ^ 32) ∧
    (∀ f, c0.tb.seqFrom = some f → c0.tb.state = .idle → s.time.refaOk = true → c0.tb.picked = true →
        timedOut (f + 4000 * c0.tb.calCount + 500000) now = true →
      Leaves (.tbLockFail t n) s t n fun c =>
        c.core = c0.core ∧ c.tb.failRaised = true ∧ c.tb.seqBegan = c0.tb.seqBegan ∧ c.tb.state = .idle ∧
        c.tb.entry = c0.tb.entry ∧ c.tb.word = c0.tb.word ∧ ∃ e, now ≤ e ∧ c.tb.seqFrom = some e) ∧
    (∀ f, c0.tb.seqFrom = some f → c0.tb.state = .idle → s.time.refaOk = false →
        timedOut (f + 4000 * c0.tb.calCount + 500000) now = true →
      Leaves (.tbLockFail t n) s t n fun c =>
        c.core = c0.core ∧ c.tb.failRaised = true ∧ c.tb.seqBegan = c0.tb.seqBegan ∧ c.tb.seqFrom = none ∧
        c.tb.entry = c0.tb.entry ∧ c.tb.word = c0.tb.word)

/-- R164: the shadow oscillator calibrates one entry. R167, R178, R182: a hop locked after 256 REFA periods and within 60 µs,
and a glide that has reached its target, end the change. R179: a hop not locked within 60 µs is a lock loss. R183 to R185: a
lock lost for 16 REFA periods enters coast and relocks at once while REFA is present; lock ends coast, goes on with the change
or the lock sequence that it interrupted (the sequence at step 5, log 107), leaves the channel off the grid, and with
REALIGN_AUTO requests a realign. R186, R394: COAST_MAX takes the run to source LATE cause 1, which a channel in RUN answers with
LOCKED. -/
def Obligations.BandChangesAndCoast : Prop :=
  (∀ (s : State) (t : Nat) (n : ChanId), (s.at t).powered = true →
    let c0 := s.chans[n]
    let now := max s.dtime t
    let same (c : Chan) : Prop := c.core = c0.core ∧ c.tb.entry = c0.tb.entry ∧ c.tb.word = c0.tb.word
    let done (c : Chan) : Prop :=
      same c ∧ c.tb.state = .locked ∧ c.tb.change = none ∧ c.tb.hopCnt = (c0.tb.hopCnt + 1) % 256
    (∀ e : Fin 8, Leaves (.bandCalibrated t n e) s t n fun c =>
      c = { s.chanAt t n with tb := { c0.tb with bands := c.tb.bands } } ∧
      c.tb.bands[e] = { c0.tb.bands[e] with cal := true } ∧ ∀ i : Fin 8, i ≠ e → c.tb.bands[i] = c0.tb.bands[i]) ∧
    (∀ h, c0.tb.change = some h → c0.tb.state = .hopping → 256 * refU ≤ s.time.phase now - c0.tb.stateRef →
        now ≤ h.start + 60000 → Leaves (.hopLocked t n) s t n done) ∧
    (∀ g, c0.tb.change = some g → c0.tb.state = .gliding →
        c0.tb.glideNeeds s.time.refaKHz g.clk c0.tb.tickClk ≤ c0.tb.elapsed s.time now → Leaves (.glideDone t n) s t n done) ∧
    (∀ h, c0.tb.change = some h → c0.tb.state = .hopping → timedOut (h.start + 60000) now = true →
      Leaves (.hopTimeout t n) s t n fun c => same c ∧
        c.tb.state = (if s.time.refaOk then .relocking else .coast) ∧ c.tb.coastFrom = some now ∧
        c.tb.coastLimit = false ∧ c.tb.change = c0.tb.change)) ∧
  (∀ (s : State) (t : Nat) (n : ChanId), (s.at t).powered = true →
    let c0 := s.chans[n]
    let now := max s.dtime t
    ((c0.tb.state = .locked ∨ c0.tb.state = .gliding ∨ c0.tb.state = .aligning) → s.time.refaOk = true →
        16 * refU ≤ s.time.phase now - c0.tb.stateRef →
      Leaves (.lockLost t n) s t n fun c => c.core = c0.core ∧ c.tb.state = .relocking ∧
        c.tb.coastFrom = some now ∧ c.tb.coastLimit = false ∧ c.tb.change = c0.tb.change) ∧
    (∀ f, c0.tb.coastFrom = some f → c0.tb.state = .relocking → s.time.refaOk = true →
        256 * refU ≤ s.time.phase now - c0.tb.stateRef →
      (c0.tb.seqBegan = none → c0.tb.change = none → Leaves (.tbRelocked t n) s t n fun c =>
        c.tb.state = .locked ∧ c.tb.coastFrom = none ∧ c.tb.offGrid = true ∧ c.core = c0.core) ∧
      (∀ h, c0.tb.seqBegan = none → c0.tb.change = some h → Leaves (.tbRelocked t n) s t n fun c =>
        c.tb.state = (if h.glide then .gliding else .hopping) ∧ c.tb.coastFrom = none ∧ c.tb.offGrid = true ∧
        c.core = c0.core) ∧
      (c0.tb.seqBegan.isSome = true → Leaves (.tbRelocked t n) s t n fun c =>
        c.tb.state = .aligning ∧ c.tb.coastFrom = none ∧ c.core.code = c0.core.code) ∧
      (c0.tb.offGrid = false → bitOf c0.tb.ctrl 27 = true →
        Leaves (.tbRelocked t n) s t n fun c => c.tb.realign.pending = true)) ∧
    (∀ f, c0.tb.coastFrom = some f → fld c0.tb.profile 7 0 ≠ 0 → c0.tb.coastLimit = false →
        timedOut (f + fld c0.tb.profile 7 0 * 1000000) now = true →
      Leaves (.tbCoastLimit t n) s t n (fun c => c.tb.coastLimit = true ∧ c.nle.run = none) ∧
      (c0.core.code = .run → Leaves (.tbCoastLimit t n) s t n fun c => c.core.code = .locked ∧ c.core.cause = 0x31 ∧
        c.prot.latched.getLsbD 8 = true ∧ c.prot.firstSrc = 8 ∧ c.prot.firstCause = 1)))


/-- The owner's writes of TB_BAND, TB_CTRL and PWM_CFG. R164, R190: an entry takes its word and loses its calibration. R189:
with no lock sequence past step 1 and the PLL stopped, BAND_SEL is stored; R176, R177: otherwise it is a request, for this
BOUNDARY or the next, and is ignored when its entry is not VALID. R175: REALIGN is a request while the carrier runs. R207:
PERIOD is a request while the carrier runs, and else acts at once. -/
def Obligations.TimeBaseWrites : Prop :=
  ∀ (s : State) (t : Nat) (p : PortId) (n : ChanId) (v : Word), (s.at t).busUp p = true → s.ownerOf (chUnit n) = some p →
    let c0 := s.chans[n]
    let e : Fin 8 := Fin.ofNat 8 (fld v 31 29)
    Leaves (.bandWrite t p n v) s t n (fun c =>
      c.tb.index = e ∧ c.tb.bands[e] = { word := BitVec.ofNat 26 v.toNat, valid := bitOf v 28, cal := false } ∧
      (∀ i : Fin 8, i ≠ e → c.tb.bands[i] = c0.tb.bands[i]) ∧ c.core = c0.core ∧ c.tb.word = c0.tb.word) ∧
    (c0.tb.picked = false → c0.core.onPll = false → Leaves (.bandRequest t p n v) s t n fun c =>
      c.tb.sel = e ∧ c.tb.req = c0.tb.req ∧ c.tb.entry = c0.tb.entry ∧ c.tb.word = c0.tb.word) ∧
    (c0.tb.picked = true ∨ c0.core.onPll = true → c0.tb.bands[e].valid = true → Leaves (.bandRequest t p n v) s t n fun c =>
      c.tb.sel = c0.tb.sel ∧ c.tb.entry = c0.tb.entry ∧ c.tb.word = c0.tb.word ∧
      ∃ late, c.tb.req = c0.tb.req.put late { entry := e, program := false }) ∧
    (c0.tb.picked = true ∨ c0.core.onPll = true → c0.tb.bands[e].valid = false → Leaves (.bandRequest t p n v) s t n fun c =>
      c.tb.sel = c0.tb.sel ∧ c.tb.req = c0.tb.req ∧ c.tb.entry = c0.tb.entry ∧ c.tb.word = c0.tb.word) ∧
    (c0.pwm.count0.isSome = true → Leaves (.realign t p n v) s t n fun c =>
      c.tb.realign.pending = true ∧ (∃ late, c.tb.realign = c0.tb.realign.put late ()) ∧ c.tb.word = c0.tb.word) ∧
    (c0.pwm.count0 = none → Leaves (.realign t p n v) s t n fun c =>
      c.tb.realign = c0.tb.realign ∧ c.tb.word = c0.tb.word) ∧
    (c0.pwm.count0 = none → Leaves (.periodRequest t p n v) s t n fun c =>
      c.pwm.period = fld v 23 0 ∧ c.pwm.periodReq = c0.pwm.periodReq ∧ c.tb = c0.tb) ∧
    (c0.pwm.count0.isSome = true → Leaves (.periodRequest t p n v) s t n fun c =>
      c.pwm.period = c0.pwm.period ∧ c.tb = c0.tb ∧
      ∃ late, c.pwm.periodReq = c0.pwm.periodReq.put late (fld v 23 0, false))

/-- The carrier has reached its next count 0. R195, R779: the next period begins there. R205, R209: the duty set that is due
takes effect, but with updates at MID alone. R207, R208: the PERIOD that is due takes effect, or is refused with PER_REJ where
it is out of range. R176 to R178: the band that is due is changed to, as a glide or a hop; an entry that is not VALID any
more is ignored (log 106). R175, R193: a realign that is due lengthens the period that begins; the end of a lengthened period
is on the grid and sets the anchor. R136: the release of the gate lanes that is due takes ARMED to RUN. R199, R205: MID, once
reached, takes the duty set where its updates are in use, and does nothing where they are not. -/
def Obligations.CarrierUpdates : Prop :=
  ∀ (s : State) (t : Nat) (n : ChanId), (s.at t).powered = true →
    let c0 := s.chans[n]
    let now := max s.dtime t
    let fits (w : BitVec 26) (period : Nat) : Prop := carrierOk s.time.refaKHz w period c0.pwm.updIn = true ∧
      (c0.nle.enabled = true → c0.budgetFits s.time.refaKHz w period c0.pwm.updIn (sofsOf c0.adc.cfgIn) = true)
    (c0.pwm.count0.isSome = true → c0.nextTick ≤ c0.ticksMost s.time (s.dieTemp n) now →
      (c0.pwm.release = false → Leaves (.carrierBoundary t n) s t n fun c =>
        (∃ u ≤ now, c.pwm.count0 = some u) ∧ c.pwm.tick0 = c0.nextTick ∧ c.pwm.midDone = false ∧
        c.core = c0.core ∧ c.pwm.periodNo = c0.pwm.periodNo + 1) ∧
      (∀ d, c0.pwm.release = false → c0.pwm.duty.now = some d → c0.pwm.updIn ≠ 1 →
        Leaves (.carrierBoundary t n) s t n fun c => c.pwm.set = some d ∧ c.pwm.setValid = true) ∧
      (c0.pwm.release = false → c0.pwm.duty.now = none →
        Leaves (.carrierBoundary t n) s t n fun c => c.pwm.set = c0.pwm.set) ∧
      (∀ x pr, c0.pwm.periodReq.now = some (x, pr) → fits c0.tb.word x → c0.periodFits x = true →
        Leaves (.carrierBoundary t n) s t n fun c => c.pwm.period = x) ∧
      (∀ x pr, c0.pwm.periodReq.now = some (x, pr) → ¬ (fits c0.tb.word x ∧ c0.periodFits x = true) →
        Leaves (.carrierBoundary t n) s t n fun c => c.pwm.period = c0.pwm.period ∧ c.pwm.flags.getLsbD 11 = true) ∧
      (∀ q, c0.pwm.release = false → c0.pwm.periodReq.now = none → c0.tb.req.now = some q →
          (c0.tb.bands[q.entry]).valid = true → (c0.tb.bands[q.entry]).cal = true → c0.tb.change = none →
          c0.tb.state = .locked → fits (c0.tb.bands[q.entry]).word c0.pwm.period → q.entry ≠ c0.tb.entry →
        Leaves (.carrierBoundary t n) s t n fun c =>
          c.tb.entry = q.entry ∧ c.tb.sel = q.entry ∧ c.tb.word = (c0.tb.bands[q.entry]).word ∧
          c.tb.change.map (fun h => (h.entry, h.glide)) = some (q.entry, bitOf c0.tb.ctrl 28) ∧
          c.tb.state = (if bitOf c0.tb.ctrl 28 then .gliding else .hopping)) ∧
      (∀ q, c0.pwm.release = false → c0.tb.req.now = some q → (c0.tb.bands[q.entry]).valid = false →
        Leaves (.carrierBoundary t n) s t n fun c =>
          c.tb.entry = c0.tb.entry ∧ c.tb.word = c0.tb.word ∧ c.tb.req.now = c0.tb.req.next) ∧
      (c0.pwm.release = false → c0.pwm.periodReq.now = none → c0.tb.req.now = none → c0.tb.realign.now = some () →
          c0.tb.change = none → c0.tb.state = .locked →
        Leaves (.carrierBoundary t n) s t n fun c => c.tb.lengthened = true ∧ c.tb.realign.now = c0.tb.realign.next) ∧
      (c0.pwm.release = false → c0.pwm.periodReq.now = none → c0.tb.req.now = none → c0.tb.realign.now = none →
          c0.tb.lengthened = true →
        Leaves (.carrierBoundary t n) s t n fun c => c.tb.lengthened = false ∧ c.tb.offGrid = false ∧
          ∃ u ≤ now, c.pwm.count0 = some u ∧ c.tb.anchor = u % 2 ^ 32) ∧
      (c0.core.code = .armed → c0.pwm.release = true → c0.pwm.releaseLate = false → c0.adc.az = none →
        Leaves (.carrierBoundary t n) s t n fun c => c.core.code = .run ∧ c.core.prev = .armed ∧ c.core.cause = 0x11 ∧
          c.pwm.released = true)) ∧
    (c0.pwm.count0.isSome = true → c0.pwm.updIn = 1 ∨ c0.pwm.updIn = 2 → c0.pwm.midDone = false →
        c0.midTick ≤ c0.ticksMost s.time (s.dieTemp n) now →
      Leaves (.midUpdate t n) s t n (fun c =>
        c.pwm.duty.now = c0.pwm.duty.next ∧ c.pwm.midDone = true ∧ c.pwm.count0 = c0.pwm.count0 ∧
        c.pwm.period = c0.pwm.period ∧ c.core = c0.core ∧ c.tb.state = c0.tb.state ∧ c.tb.word = c0.tb.word) ∧
      (∀ d, c0.pwm.duty.now = some d →
        Leaves (.midUpdate t n) s t n fun c => c.pwm.set = some d ∧ c.pwm.setValid = true) ∧
      (c0.pwm.duty.now = none → Leaves (.midUpdate t n) s t n fun c => c.pwm.set = c0.pwm.set)) ∧
    (c0.pwm.updIn ≠ 1 → c0.pwm.updIn ≠ 2 → Leaves (.midUpdate t n) s t n fun c => c = s.chanAt t n)

/-! ### Chapter 06: sensing -/

/-- R247, R248, R269: a current slot runs at each update point in use, at its place on the carrier, which has been reached; it
starts there, or where the captures that run then have ended, and is then a delayed slot. R252: a free slot runs while the
island is on the idle oscillator, outside IDENT, for the first time at once and then 4,096 cycles after the last one. -/
def Obligations.SensingSlots : Prop :=
  ∀ (s : State) (t : Nat) (n : ChanId), (s.at t).powered = true →
    let c0 := s.chans[n]
    let now := max s.dtime t
    let opened (u : Nat) (free mid : Bool) (c : Chan) : Prop :=
      let start := max u (max (captureEnd c0.adc.capA) (captureEnd c0.adc.capB))
      c.adc.slot.map (fun x => (x.start, x.free, x.mid, x.step, x.delayed)) =
        some (start, free, mid, 0, decide (u < start)) ∧ c.adc.slotAt = start ∧ c.core = c0.core
    (∀ mid k, c0.core.onPll = true → c0.pwm.count0.isSome = true →
        (mid = true → c0.pwm.updIn = 1 ∨ c0.pwm.updIn = 2) → (mid = false → c0.pwm.updIn = 0 ∨ c0.pwm.updIn = 2) →
        c0.slotPeriod s.time.refaKHz mid (c0.ticksMost s.time (s.dieTemp n) now) = some k →
      Leaves (.currentSlot t n mid) s t n fun c => (∃ u ≤ now, opened u false mid c) ∧
        c.pwm.slotNo = (if mid then (c0.pwm.slotNo.1, k) else (k, c0.pwm.slotNo.2))) ∧
    (c0.core.onPll = false → c0.core.code ≠ .ident → (c0.adc.freeNo = 0 ∨ c0.adc.slotAt + freeSlotNs ≤ now) →
      Leaves (.freeSlot t n) s t n fun c => opened now true false c ∧ c.adc.freeNo = c0.adc.freeNo + 1)

/-- R243, R245, R253 to R256, R258, R380, R382: with no test of the channel running, the results of a slot's conversions, in
time, leave the corrected current codes, the corrected VBUS and NTC codes, the mid-scale deviations of a housekeeping slot, and
the words of the loop engine's inputs that carry them; each conversion uses the trim that the slot took for it. The position is
not in an invalid Hall state. -/
def Obligations.SensingResults : Prop :=
  ∀ (s : State) (t : Nat) (n : ChanId), (s.at t).powered = true →
    let c0 := s.chans[n]
    let now := max s.dtime t
    let raw (uv : Nat) : Int := (min (uv * 16384 / 3000000) 16383 : Nat)
    let mean (ds : List Int) : Int := if ds = [] then 0 else rndDiv (ds.foldl (· + ·) 0) ds.length
    let gain (m : Trim) (x : Int) : Int := rndDiv ((x - m.ofs.toInt) * (32768 + m.gain.toInt)) 32768
    let current (m : Trim) (ds : List Int) (uv : Nat) : Int := max (-8192) (min 8191 (gain m (raw uv - 8192 - mean ds)))
    let level (m : Trim) (ds : List Int) (uv : Nat) : Nat := (max 0 (min 16383 (gain m (raw uv - mean ds)))).toNat
    Cells.wf 0 c0.nle.inp = true → c0.adc.cmpTest = none → c0.core.lb = none →
    (∀ x uvU uvV, c0.adc.slot = some x → x.step = 0 → x.start + 200 ≤ now → now ≤ x.start + 400 →
        (c0.posMode ≠ 3 ∨ (hallOf c0.pos.pins.toNat).isSome = true) →
      Leaves (.slotResult t n uvU uvV) s t n fun c =>
        let iu := current x.trim[0] c0.adc.devA uvU
        let iv := current x.trim[1] c0.adc.devB uvV
        c.adc.iu = iu ∧ c.adc.iv = iv ∧ Cells.get 0 c.nle.inp 0x200 = BitVec.ofInt 16 (4 * iu) ∧
        Cells.get 0 c.nle.inp 0x201 = BitVec.ofInt 16 (4 * iv) ∧
        Cells.get 0 c.nle.inp 0x202 = BitVec.ofInt 16 (max (-32768) (min 32767 (-(4 * iu + 4 * iv))))) ∧
    (∀ x uvA uvB, c0.adc.slot = some x → x.step = 1 → x.start + 400 ≤ now → now ≤ x.start + 600 →
      Leaves (.vbusResult t n uvA uvB) s t n fun c =>
        c.adc.vbus = level x.trim[2] c0.adc.devA uvA ∧
        c.adc.vbusB = (if x.xchk then level x.trim[3] c0.adc.devB uvB else c0.adc.vbusB) ∧
        Cells.get 0 c.nle.inp 0x203 = BitVec.ofNat 16 (2 * c.adc.vbus)) ∧
    (∀ x uvNtc midA midB, c0.adc.slot = some x → x.step = 2 → x.hk = true → c0.adc.hkEnd x ≤ now →
        now ≤ c0.adc.hkEnd x + 200 →
      Leaves (.housekeepingResult t n uvNtc midA midB) s t n fun c =>
        c.adc.ntc = level x.trim[4] c0.adc.devA uvNtc ∧ c.adc.slot = none ∧
        c.adc.devA = ((raw midA - 8192) :: c0.adc.devA).take 8 ∧ c.adc.devB = ((raw midB - 8192) :: c0.adc.devB).take 8 ∧
        Cells.get 0 c.nle.inp 0x204 = BitVec.ofNat 16 (2 * c.adc.ntc))

/-- R277, R278: a slot's conversion without a result 400 ns after its start sets CONV_TO and is source ADC cause 1, to which a
channel in RUN answers with LOCKED, and which leaves one in OFF in its state. R260: the auto-zero that has its 64 slots writes
the offset of an input whose spread and mean lie within its limits, and sets AZ_SKIP for one whose do not. R281, R282: the
comparator test, all its parts done, reports the comparators that fail; a failure in ARMED is source ADC cause 2. -/
def Obligations.SensingFaultsAndAutoZero : Prop :=
  ∀ (s : State) (t : Nat) (n : ChanId), (s.at t).powered = true →
    let c0 := s.chans[n]
    let now := max s.dtime t
    (∀ x, c0.adc.slot = some x → c0.adc.slotDue x + 250 ≤ now →
      Leaves (.convTimeout t n) s t n (fun c =>
        c.adc.slot = none ∧ c.adc.flags.getLsbD 0 = true ∧ c.prot.latched.getLsbD 7 = true) ∧
      (c0.core.code = .run → Leaves (.convTimeout t n) s t n fun c =>
        c.core.code = .locked ∧ c.core.cause = 0x31 ∧ c.prot.firstSrc = 7 ∧ c.prot.firstCause = 1) ∧
      (c0.core.code = .off → Leaves (.convTimeout t n) s t n fun c => c.core = c0.core)) ∧
    (∀ z xu xv, c0.adc.az = some z → z.slots = 64 → z.u = some xu → z.v = some xv →
      let good (x : AzSum) : Prop := x.hi - x.lo ≤ 64 ∧ x.sum.natAbs ≤ 65536
      let written (m : Trim) (x : AzSum) : Trim := { m with ofs := BitVec.ofInt 12 (rndDiv x.sum 64), azValid := true }
      Leaves (.autoZeroDone t n) s t n (fun c => c.adc.az = none ∧ c.core = c0.core ∧ c.adc.cfg = c0.adc.cfg) ∧
      (good xu → Leaves (.autoZeroDone t n) s t n fun c => c.adc.trim[0] = written c0.adc.trim[0] xu) ∧
      (good xv → Leaves (.autoZeroDone t n) s t n fun c => c.adc.trim[1] = written c0.adc.trim[1] xv) ∧
      (¬ good xu → Leaves (.autoZeroDone t n) s t n fun c =>
        c.adc.trim[0] = c0.adc.trim[0] ∧ c.adc.flags.getLsbD 18 = true) ∧
      (¬ good xv → Leaves (.autoZeroDone t n) s t n fun c =>
        c.adc.trim[1] = c0.adc.trim[1] ∧ c.adc.flags.getLsbD 18 = true)) ∧
    (∀ f fails codes, c0.adc.cmpTest = some f → f + 20000 ≤ now →
      Leaves (.cmpTestDone t n ⟨fails, codes⟩) s t n (fun c => c.adc.cmpTest = none ∧
        ∀ k : Fin 5, c.adc.cmpFail.getLsbD k =
          (fails.getLsbD k || !c0.adc.passable k || !c0.adc.codeOk k (codes.getD k.val 0))) ∧
      (c0.core.code ≠ .armed → Leaves (.cmpTestDone t n ⟨fails, codes⟩) s t n fun c => c.core = c0.core) ∧
      (c0.core.code = .armed → fails ≠ 0 → Leaves (.cmpTestDone t n ⟨fails, codes⟩) s t n fun c =>
        c.core.code = .locked ∧ c.prot.firstSrc = 7 ∧ c.prot.firstCause = 2))

/-- R229, R263: a change of FLTN is taken with its instant; a comparator whose threshold does not settle is active once its pin
has passed the threshold, and inactive once its pin is more than 16 mV back. R229, R447, R449: a source whose level has been
active for its filter length qualifies, and a channel in RUN goes to TRIPPED where its map entry has RETRY and this is the
first trip of RETRY_MAX, and to LOCKED where it has not; it releases after the same length of inactivity. -/
def Obligations.TripInputs : Prop :=
  ∀ (s : State) (t : Nat) (n : ChanId), (s.at t).powered = true →
    let c0 := s.chans[n]
    let now := max s.dtime t
    (∀ level, c0.prot.trip[0].raw ≠ (level == 0) → Leaves (.tripInputChange t n .fltn level) s t n fun c =>
      c.prot.trip[0] = { c0.prot.trip[0] with raw := level == 0, since := now } ∧
      c = { s.chanAt t n with prot := { c0.prot with trip := c.prot.trip } }) ∧
    (∀ (k : Fin 5) uv, c0.adc.settle[k] = none →
      let low : Prop := k.val = 1 ∨ k.val = 3
      let thr := c0.adc.threshold k * 3000000
      ((if low then uv * 1024 < thr else thr < uv * 1024) →
        Leaves (.tripInputChange t n (.cmp k) uv) s t n fun c => c.adc.live.getLsbD k = true ∧
          (∀ j : Fin 5, j ≠ k → c.adc.live.getLsbD j = c0.adc.live.getLsbD j) ∧ c.core = c0.core) ∧
      ((if low then thr + 16000 * 1024 < uv * 1024 else uv * 1024 + 16000 * 1024 < thr) →
        Leaves (.tripInputChange t n (.cmp k) uv) s t n fun c => c.adc.live.getLsbD k = false ∧
          (∀ j : Fin 5, j ≠ k → c.adc.live.getLsbD j = c0.adc.live.getLsbD j) ∧ c.core = c0.core)) ∧
    (∀ src : TripSrc,
      let x := c0.prot.trip[tripIdx src]
      let m := c0.prot.map[(tripIdx src).val]
      fld m 9 0 * tickU ≤ c0.ticksWithin s.time x.since now →
      (x.raw = true → x.qual = false →
          (src = .fltn ∨ cmpLevel (c0.adc.live &&& ~~~(c0.adc.underTestMask now)) src = true) →
        Leaves (.tripQualified t n src) s t n (fun c =>
          (c.prot.trip[tripIdx src]).qual = true ∧ c.prot.latched.getLsbD (tripIdx src).val = true) ∧
        (c0.core.code = .run → bitOf m 23 = true → c0.prot.stamps = [] → 1 ≤ fld c0.prot.retry 17 14 →
          Leaves (.tripQualified t n src) s t n fun c =>
            c.core.code = .tripped ∧ c.core.prev = .run ∧ c.core.cause = 0x30 ∧ c.prot.firstSrc = (tripIdx src).val ∧
            c.prot.wait = some (x.since, false)) ∧
        (c0.core.code = .run → bitOf m 23 = false → Leaves (.tripQualified t n src) s t n fun c =>
          c.core.code = .locked ∧ c.core.prev = .run ∧ c.core.cause = 0x31 ∧ c.prot.firstSrc = (tripIdx src).val ∧
          c.prot.wait = none) ∧
        (c0.core.code = .off → Leaves (.tripQualified t n src) s t n fun c => c.core = c0.core)) ∧
      (x.raw = false → x.qual = true → Leaves (.tripReleased t n src) s t n fun c =>
        (c.prot.trip[tripIdx src]).qual = false ∧
        c = { s.chanAt t n with prot := { c0.prot with trip := c.prot.trip } }))

/-- R258, R268, R271: a pending capture starts on an idle converter with the trim of that moment, and its result, in time, is
delivered with its value, its comparator and its stamps, and leaves the channel's state. R266: a threshold write lets its
comparators settle for 1 µs, after which each follows its pin. R275, R290: a window write leaves the window disarmed, with
WIN_OUT clear. -/
def Obligations.CapturesThresholdsWindows : Prop :=
  ∀ (s : State) (t : Nat) (n : ChanId), (s.at t).powered = true →
    let c0 := s.chans[n]
    let now := max s.dtime t
    let trimOf (y : Capture) (k : Fin 5) : Trim := if y.cmp = 4 then c0.adc.trim[2] else c0.adc.trim[k]
    (∀ y, (s.chanAt t n).adc.idle false now = true → c0.adc.capA = some y → y.sample = none →
      Leaves (.captureStart t n .a) s t n fun c => c = { s.chanAt t n with adc := { (s.chanAt t n).adc with
        capA := some { y with sample := some (now + 60), trim := trimOf y 0 } } }) ∧
    (∀ y, (s.chanAt t n).adc.idle true now = true → c0.adc.capB = some y → y.sample = none →
      Leaves (.captureStart t n .b) s t n fun c => c = { s.chanAt t n with adc := { (s.chanAt t n).adc with
        capB := some { y with sample := some (now + 60), trim := trimOf y 1 } } }) ∧
    (∀ y ts uv, Cells.wf 0 c0.nle.inp = true → c0.adc.capA = some y → y.sample = some ts → y.cmp ≠ 4 →
        ts - 60 + 200 ≤ now → now ≤ ts - 60 + 400 →
      Leaves (.captureDelivery t n .a uv) s t n fun c =>
        c.adc.capA = none ∧
        Cells.get 0 c.nle.inp 0x230 = BitVec.ofInt 16 (4 * y.trim.current (c0.adc.convOfs false) (rawCode uv)) ∧
        Cells.get 0 c.nle.inp 0x231 = BitVec.ofNat 16 y.cmp ∧ c.nle.capNew.getLsbD 0 = true ∧ c.core = c0.core) ∧
    (∀ y ts uv, Cells.wf 0 c0.nle.inp = true → c0.adc.capA = some y → y.sample = some ts → y.cmp = 4 →
        ts - 60 + 200 ≤ now → now ≤ ts - 60 + 400 →
      Leaves (.captureDelivery t n .a uv) s t n fun c =>
        c.adc.capA = none ∧
        Cells.get 0 c.nle.inp 0x230 = BitVec.ofNat 16 (2 * y.trim.level (c0.adc.convOfs false) (rawCode uv)) ∧
        Cells.get 0 c.nle.inp 0x231 = BitVec.ofNat 16 y.cmp ∧ c.nle.capNew.getLsbD 0 = true ∧ c.core = c0.core) ∧
    (∀ y ts uv, Cells.wf 0 c0.nle.inp = true → c0.adc.capB = some y → y.sample = some ts → y.cmp ≠ 4 →
        ts - 60 + 200 ≤ now → now ≤ ts - 60 + 400 →
      Leaves (.captureDelivery t n .b uv) s t n fun c =>
        c.adc.capB = none ∧
        Cells.get 0 c.nle.inp 0x238 = BitVec.ofInt 16 (4 * y.trim.current (c0.adc.convOfs true) (rawCode uv)) ∧
        Cells.get 0 c.nle.inp 0x239 = BitVec.ofNat 16 y.cmp ∧ c.nle.capNew.getLsbD 1 = true ∧ c.core = c0.core) ∧
    (∀ (k : Fin 5) w uv, c0.adc.settle[k] = some w → w + 1000 ≤ now →
      Leaves (.thresholdSettled t n k uv) s t n fun c => c.adc.settle[k] = none ∧
        c.adc.live.getLsbD k = cmpNext k (c0.adc.threshold k) uv (c0.adc.live.getLsbD k) ∧ c.core = c0.core) ∧
    (∀ p v, (s.at t).busUp p = true → s.ownerOf (chUnit n) = some p →
      (c0.core.code = .off ∨ c0.core.code = .ready ∨ c0.core.code = .armed →
        Leaves (.thresholdWrite t p n false v) s t n (fun c =>
          c.adc.cmpA = (c0.adc.cmpA &&& 0xC0000000#32) ||| (v &&& 0x3FFFFFFF#32) ∧ c.adc.settle[0] = some now ∧
          c.adc.settle[1] = some now ∧ c.adc.settle[2] = c0.adc.settle[2] ∧ c.adc.settle[3] = c0.adc.settle[3] ∧
          c.adc.settle[4] = some now ∧ c.core = c0.core) ∧
        Leaves (.thresholdWrite t p n true v) s t n (fun c =>
          c.adc.cmpB = (c0.adc.cmpB &&& 0xE0000000#32) ||| (v &&& 0x1FFFFFFF#32) ∧ c.adc.settle[0] = c0.adc.settle[0] ∧
          c.adc.settle[2] = some now ∧ c.adc.settle[3] = some now ∧ c.core = c0.core)) ∧
      Leaves (.windowWrite t p n v) s t n fun c =>
        (let w := c.adc.win[(⟨fld v 31 30 % 4, Nat.mod_lt _ (by decide)⟩ : Fin 4)]
         w.cfg = BitVec.ofNat 30 (v &&& 0x3CFFFFFF#32).toNat ∧ w.armed = false ∧ w.out = false) ∧
        (∀ j : Fin 4, j.val ≠ fld v 31 30 % 4 → c.adc.win[j] = c0.adc.win[j]) ∧
        c = { s.chanAt t n with adc := { (s.chanAt t n).adc with win := c.adc.win, winIdx := c.adc.winIdx } })

/-! ### Chapters 03, 11: plug, identification, protection -/

/-- R140 to R144, R154: a deassertion that has lasted 8 samples, with PLUG_EN, unplugs the channel, which leads every state but
SAFE, LOCKED and UNPLUGGED to UNPLUGGED; without PLUG_EN it is only taken. An assertion that has lasted as long starts the
debounce of an unplugged channel, which leads from UNPLUGGED to OFF or, with AUTO_IDENT, a motor profile and step 1's checks
passed, to IDENT. A write of PLUG_EN in OFF, READY or ARMED stores it, and unplugs a channel whose plug is open; in any other
state it is dropped. -/
def Obligations.Plug : Prop :=
  ∀ (s : State) (t : Nat) (n : ChanId), (s.at t).powered = true →
    let c0 := s.chans[n]
    let now := max s.dtime t
    let held (first : Nat) : Prop := first ≤ now ∧ 8 * tickU ≤ c0.ticksWithin s.time first now
    let unplugs (c : Chan) : Prop := c.core.isUnplugged = true ∧ c.core.unplugCnt = min (c0.core.unplugCnt + 1) 65535 ∧
      c.prot.latched.getLsbD 5 = true ∧ c.core.verified = false ∧ c.core.ident = none
    let unplugged (c : Chan) : Prop := c.core.code = .unplugged ∧ c.core.prev = c0.core.code ∧ c.core.cause = 0x50 ∧
      c.nle.enabled = false ∧ c.core.onPll = false
    (∀ first, held first →
      (c0.core.plugEn = true → c0.core.plugPin = true → Leaves (.tailDrop ⟨t, first⟩ n) s t n unplugs) ∧
      (c0.core.plugEn = true → c0.core.plugPin = true → c0.core.code ≠ .safe → c0.core.code ≠ .locked →
        c0.core.code ≠ .unplugged → Leaves (.tailDrop ⟨t, first⟩ n) s t n unplugged) ∧
      (c0.core.plugEn = true → c0.core.plugPin = true →
        (c0.core.code = .safe ∨ c0.core.code = .locked ∨ c0.core.code = .unplugged) →
        Leaves (.tailDrop ⟨t, first⟩ n) s t n fun c => c.core.code = c0.core.code) ∧
      (c0.core.plugEn = false → c0.core.plugPin = true → Leaves (.tailDrop ⟨t, first⟩ n) s t n fun c =>
        c = { s.chanAt t n with core := { c0.core with plugPin := false } }) ∧
      (c0.core.plugPin = false → Leaves (.plugAsserted ⟨t, first⟩ n) s t n fun c =>
        c = { s.chanAt t n with core := { c0.core with
          plugPin := true, debounce := if c0.core.plugEn && c0.core.isUnplugged then some now else c0.core.debounce } })) ∧
    (∀ f, c0.core.debounce = some f → f + 200000000 ≤ now →
      (c0.core.code = .unplugged →
        (c0.profileSet = false ∨ bitOf c0.core.config 3 = false ∨ s.clusterFailed n = true ∨ s.hk.basking = true) →
        Leaves (.plugged t n) s t n fun c =>
          c.core.isUnplugged = false ∧ c.core.debounce = none ∧ c.core.code = .off ∧ c.core.cause = 0x51) ∧
      (c0.core.code = .unplugged → c0.profileSet = true → bitOf c0.core.config 3 = true → s.clusterFailed n = false →
        s.hk.basking = false → 1024 ≤ c0.adc.vbus → c0.active &&& 0xF = 0 → c0.posMode = 0 →
        Leaves (.plugged t n) s t n fun c =>
          c.core.isUnplugged = false ∧ c.core.debounce = none ∧ c.core.code = .ident ∧ c.core.cause = 0x51) ∧
      (c0.core.code ≠ .unplugged → Leaves (.plugged t n) s t n fun c =>
        c = { s.chanAt t n with core := { c0.core with isUnplugged := false, debounce := none } })) ∧
    (∀ p v, (s.at t).busUp p = true → s.ownerOf (chUnit n) = some p →
      (c0.core.code = .off ∨ c0.core.code = .ready ∨ c0.core.code = .armed →
        (bitOf v 0 = true → c0.core.plugEn = false → c0.core.plugPin = false →
          Leaves (.plugEnWrite t p n v) s t n fun c => c.core.plugEn = true ∧ unplugs c ∧ unplugged c) ∧
        (bitOf v 0 = false ∨ c0.core.plugEn = true ∨ c0.core.plugPin = true →
          Leaves (.plugEnWrite t p n v) s t n fun c =>
            c = { s.chanAt t n with core := { c0.core with plugEn := bitOf v 0 } })) ∧
      (¬ (c0.core.code = .off ∨ c0.core.code = .ready ∨ c0.core.code = .armed) →
        Leaves (.plugEnWrite t p n v) s t n fun c =>
          c = { s.chanAt t n with core := { c0.core with rwlDrop := c.core.rwlDrop } }))

/-- R135, R155: a write of the motor profile clears VERIFIED. R145, R146: step 3, done 31 ms after the start, gives the phase
resistance of its samples; R147: the identification, done 73 ms after its start with 16 pulses, reports what it measured and
leads to READY, verified, or, with a measurement outside its tolerance, to WRONG_MOTOR; the comparison is before saturation
(the model's choice, log 42). R148: VBUS below its minimum aborts it, which leads to OFF. -/
def Obligations.Identification : Prop :=
  ∀ (s : State) (t : Nat) (n : ChanId), (s.at t).powered = true →
    let c0 := s.chans[n]
    let now := max s.dtime t
    (∀ p v, (s.at t).busUp p = true → s.ownerOf (chUnit n) = some p →
      Leaves (.motorProfileWrite t p n false v) s t n (fun c => c = { s.chanAt t n with core := { c0.core with
        motorRs := (c0.core.motorRs &&& 0x00F00000#32) ||| (v &&& 0xFF0FFFFF#32), verified := false } }) ∧
      Leaves (.motorProfileWrite t p n true v) s t n (fun c => c = { s.chanAt t n with core := { c0.core with
        motorLs := (c0.core.motorLs &&& 0x00F00000#32) ||| (v &&& 0xFF0FFFFF#32), verified := false } })) ∧
    (∀ i, c0.core.ident = some i →
      (∀ m, i.start + 31000000 ≤ now →
        let volts := m.foldl (fun x (p : Nat × Nat × Nat) => x + c0.adc.vbusOf p.1 * p.2.1) 0
        let amps := m.foldl (fun (x : Int) (p : Nat × Nat × Nat) => x + c0.adc.currentOf false p.2.2) 0
        0 < amps → Leaves (.identDone t n (.steady m)) s t n fun c =>
          c = { s.chanAt t n with core := { c0.core with ident := some { i with
            rsMeas := some (rndDiv (volts * i.vFs * 100000 : Nat) (65536 * 3 * amps.toNat * i.iFs)).toNat } } }) ∧
      (∀ uv, c0.adc.vbusOf uv < 1024 → Leaves (.identDone t n (.bus uv)) s t n fun c =>
        c.core.ident = none ∧ c.core.code = .off ∧ c.core.cause = 0x54 ∧ c.core.verified = false ∧
        fld c.core.identRs 31 24 = 1 ∧ c.core.identLs = 0) ∧
      (∀ m rs, i.rsMeas = some rs → i.start + 73000000 ≤ now → m.length = 16 → m.all c0.identPulseOk = true →
        let ls := identLs c0.adc i m (s.freeCtr + 1)
        let out (profile : Word) (x : Nat) : Prop := min (fld profile 31 24) 100 ≠ 0 ∧
          fld profile 19 0 * min (fld profile 31 24) 100 < 100 * ((x : Int) - fld profile 19 0).natAbs
        Leaves (.identDone t n (.completed m)) s t n (fun c =>
          c.core.ident = none ∧ fld c.core.identRs 19 0 = min rs 1048575 ∧ fld c.core.identLs 19 0 = min ls 1048575 ∧
          fld c.core.identRs 31 24 = 0 ∧ (bitOf c.core.identRs 23 = true ↔ out i.rs rs) ∧
          (bitOf c.core.identLs 23 = true ↔ out i.ls ls)) ∧
        (¬ out i.rs rs → ¬ out i.ls ls → Leaves (.identDone t n (.completed m)) s t n fun c =>
          c.core.code = .ready ∧ c.core.cause = 0x52 ∧ c.core.verified = true) ∧
        (out i.rs rs ∨ out i.ls ls → Leaves (.identDone t n (.completed m)) s t n fun c =>
          c.core.code = .wrongMotor ∧ c.core.cause = 0x53 ∧ c.core.verified = false)))

/-- R132: STOP_LIMIT ends STOPPING, unless a flux-linkage WRONG_MOTOR is pending (log 110). R448, R450: RETRY_WAIT ends TRIPPED:
with a level source active in LOCKED, else in RUN with AUTO_RUN and a permission, in ARMED without either, and in OFF/READY when
the PLL does not run; the trip was not one of the thermal source, nor a die thermal shutdown. -/
def Obligations.StopLimitAndRetry : Prop :=
  ∀ (s : State) (t : Nat) (n : ChanId), (s.at t).powered = true →
    let c0 := s.chans[n]
    let now := max s.dtime t
    (∀ f, c0.core.stopFrom = some f → c0.core.code = .stopping → c0.fcu.phase ≠ .wrongMotorAsc →
        timedOut (f + max (fld c0.core.configIn 15 8) 1 * 100000000) now = true →
      Leaves (.stopLimitExpired t n) s t n fun c =>
        c.core.code = (if c0.core.verified then .ready else .off) ∧ c.core.prev = .stopping ∧ c.core.cause = 0x21 ∧
        c.pwm.released = false ∧ c.nle.enabled = false ∧ c.core.onPll = false) ∧
    (∀ f, c0.prot.wait = some (f, false) → c0.core.code = .tripped → c0.core.thermal = false → f + c0.retryWait ≤ now →
      (c0.activeNoPlg ≠ 0 → Leaves (.retryWaitExpired t n) s t n fun c =>
        c.core.code = .locked ∧ c.core.prev = .tripped ∧ c.core.cause = 0x31) ∧
      (c0.activeNoPlg = 0 → c0.core.onPll = true → bitOf c0.core.configIn 4 = true → s.permit n = true →
        Leaves (.retryWaitExpired t n) s t n fun c =>
          c.core.code = .run ∧ c.core.prev = .tripped ∧ c.core.cause = 0x32 ∧ c.pwm.release = true ∧
          c.pwm.released = false ∧ c.pwm.set = none ∧ c.fcu.startDone = false ∧ c.prot.held = 0) ∧
      (c0.activeNoPlg = 0 → c0.core.onPll = true → (bitOf c0.core.configIn 4 = false ∨ s.permit n = false) →
          c0.adc.cmpFail = 0 →
        Leaves (.retryWaitExpired t n) s t n fun c =>
          c.core.code = .armed ∧ c.core.prev = .tripped ∧ c.core.cause = 0x32 ∧ c.nle.enabled = true ∧
          c.pwm.released = false ∧ c.prot.held = 0) ∧
      (c0.activeNoPlg = 0 → c0.core.onPll = false → Leaves (.retryWaitExpired t n) s t n fun c =>
        c.core.code = (if c0.core.verified then .ready else .off) ∧ c.core.cause = 0x32 ∧ c.prot.held = 0))

/-- R439: a gate readback that differs is source STO, which a channel in RUN answers with LOCKED. R455, R457: a chopper that
fails its check stays off, and while the motor regenerates is source OV1 cause 1. R464: too fast a rise is source THERM cause
2, and with its parameter 0 or without an NTC there is none. R60, R61, R359: a discharge whose VBUS has been low for 1 ms within its time limit, or
has not by then, leaves DISCHARGE. -/
def Obligations.ProtectionChecks : Prop :=
  ∀ (s : State) (t : Nat) (n : ChanId), (s.at t).powered = true →
    let c0 := s.chans[n]
    let now := max s.dtime t
    (c0.prot.sto = false → Leaves (.stoReadbackFault t n true) s t n fun c =>
      c.prot.sto = true ∧ c.prot.latched.getLsbD 6 = true) ∧
    (c0.prot.sto = false → c0.core.code = .run → Leaves (.stoReadbackFault t n true) s t n fun c =>
      c.core.code = .locked ∧ c.core.cause = 0x31 ∧ c.prot.firstSrc = 6) ∧
    Leaves (.stoReadbackFault t n false) s t n (fun c =>
      c = { s.chanAt t n with prot := { c0.prot with sto := false } }) ∧
    (∀ k, c0.prot.chop = some k → timedOut k.deadline now = true →
      Leaves (.chopFault t n) s t n (fun c =>
        c.prot.chopFlt = true ∧ c.prot.chopOn = false ∧ c.prot.chop = none) ∧
      (c0.regenerating s.hk.shut now = false → Leaves (.chopFault t n) s t n fun c => c.core = c0.core) ∧
      (c0.regenerating s.hk.shut now = true → c0.core.code = .run → Leaves (.chopFault t n) s t n fun c =>
        c.core.code = .locked ∧ c.prot.firstSrc = 3 ∧ c.prot.firstCause = 1)) ∧
    (now % 100000000 = 0 →
      (c0.thermPar 15 = 0 ∨ c0.ntcEn = false → Leaves (.riseCheck t n) s t n fun c =>
        c = { s.chanAt t n with therm := { c0.therm with rise := false } }) ∧
      (∀ x y, c0.thermPar 15 ≠ 0 → c0.ntcEn = true → c0.therm.hist.head? = some x →
        c0.therm.hist.find? (fun h => decide (h.stamp + 1000000000 ≤ now)) = some y → x.broken = false → y.broken = false →
        c0.therm.rise = false → (c0.thermPar 15 : Int) * 1048576 < (x.temp - y.temp) * 10 →
        Leaves (.riseCheck t n) s t n (fun c => c.therm.rise = true ∧ c.prot.latched.getLsbD 9 = true) ∧
        (c0.core.code = .run → bitOf c0.prot.map[9] 23 = false → Leaves (.riseCheck t n) s t n fun c =>
          c.core.code = .locked ∧ c.prot.firstSrc = 9 ∧ c.prot.firstCause = 2))) ∧
    (∀ d, c0.fcu.dis = some d → c0.core.code = .discharge →
      let ended (c : Chan) : Prop := c.core.code = (if c0.core.verified then .ready else .off) ∧ c.core.prev = .discharge ∧
        c.core.cause = 0x22 ∧ c.fcu.dis = none ∧ c.fcu.phase = .idle
      let limit := d.start + c0.fcuPar 32 * 1000000
      (∀ f, d.low = some f → f + 1000000 ≤ limit → f + 1000000 ≤ now →
        Leaves (.dischargeDone t n .voltage) s t n ended) ∧
      (timedOut limit now = true → (∀ f, d.low = some f → limit < f + 1000000) →
        Leaves (.dischargeDone t n .limit) s t n ended))

/-! ### Chapters 07, 08: position, field control -/

/-- With no loop-back test running, and a level that has been present for FILT ticks (R296). R298: in QUAD and QUAD_INDEX a change
of A or B is one edge, which steps the count in the direction of the sequence and of DIR_INV; R299: a change of both leaves the
count, sets QUAD_ERR and resets the speed estimate. R300, R304: in HALL a change to an adjacent sector is one edge; R302: it is
stamped at its qualification where it leaves an invalid state (no slot in progress), and entry into an invalid state holds the
count and sets HALL_INVALID. R301: two sectors at once are a skip, which moves the count by two. R311, R312: an edge
renews the speed estimate. R306 to R309: an index event references the count, finds it right, corrects it within INDEX_WIN, or
is an index error. R148, R359: an edge aborts an identification, and ends a discharge through the windings. R314: an axis
without edges for STILL_T and the wait for one to qualify is declared to stand still. -/
def Obligations.PositionCounting : Prop :=
  ∀ (s : State) (t stamp16 : Nat) (n : ChanId), (s.at t).powered = true →
    let c0 := s.chans[n]
    let p0 := c0.pos
    let now := max s.dtime t
    let renewed (up : Bool) (st : Nat) (c : Chan) : Prop :=
      let fresh : Bool := p0.still || decide (p0.stillDue < st) || (p0.dirKnown && p0.down == up) || p0.n == 0
      c.pos.down = !up ∧ c.pos.edge = st ∧ c.pos.still = false ∧ c.pos.uncertain = fresh ∧
      c.pos.n = (if fresh then 1 else p0.n + 1) ∧
      c.pos.speed = (if fresh then 0 else if up then (speedMag (st - p0.edge) : Int) else -(speedMag (st - p0.edge) : Int))
    let moved (up : Bool) (st : Nat) (c : Chan) : Prop :=
      c.pos.count = (if up then (if p0.count + 1 = c0.cpr then 0 else p0.count + 1)
        else if p0.count = 0 then c0.cpr - 1 else p0.count - 1) ∧
      c.pos.rev = (if up then (if p0.count + 1 = c0.cpr then p0.rev + 1 else p0.rev)
        else if p0.count = 0 then p0.rev - 1 else p0.rev) ∧ renewed up st c
    c0.core.lb = none →
    (stamp16 ≤ 16 * now → fld p0.cfg 7 0 * tickU ≤ c0.ticksWithin s.time (stamp16 / 16) now →
      (∀ a b z, c0.posMode = 1 ∨ (c0.posMode = 2 ∧ z = p0.pins.getLsbD 2) →
        let before := 2 * b2n (p0.pins.getLsbD 0) + b2n (p0.pins.getLsbD 1)
        let after := 2 * b2n a + b2n b
        let up := ((before, after) == (0, 2) || (before, after) == (2, 3) || (before, after) == (3, 1) ||
          (before, after) == (1, 0)) != bitOf p0.cfg 29
        (before + after ≠ 3 → before ≠ after → Leaves (.positionEdge t stamp16 n a b z) s t n (moved up stamp16)) ∧
        (before + after = 3 → Leaves (.positionEdge t stamp16 n a b z) s t n fun c =>
          c.pos.count = p0.count ∧ c.pos.rev = p0.rev ∧ c.pos.uncertain = true ∧ c.pos.n = 0 ∧ c.pos.speed = 0 ∧
          c.pos.flags.getLsbD 7 = true) ∧
        (before ≠ after → c0.core.code = .ident → c0.core.ident.isSome = true →
          Leaves (.positionEdge t stamp16 n a b z) s t n fun c =>
            c.core.code = .off ∧ c.core.cause = 0x54 ∧ c.core.ident = none ∧ fld c.core.identRs 31 24 = 3) ∧
        (∀ d, before ≠ after → c0.core.code = .discharge → c0.fcu.dis = some d → d.mode ≠ 0 →
          Leaves (.positionEdge t stamp16 n a b z) s t n fun c =>
            c.core.code = (if c0.core.verified then .ready else .off) ∧ c.core.cause = 0x22 ∧ c.fcu.dis = none) ∧
        (before ≠ after → c0.core.code ≠ .ident → c0.core.code ≠ .discharge →
          Leaves (.positionEdge t stamp16 n a b z) s t n fun c => c.core = c0.core)) ∧
      (∀ a b z l k, c0.posMode = 3 → pinsOf a b z ≠ p0.pins → p0.sector = some l → l < 6 →
        hallOf (pinsOf a b z).toNat = some k → (hallOf p0.pins.toNat).isSome = true →
        (k = (l + 1) % 6 → Leaves (.positionEdge t stamp16 n a b z) s t n (moved (!bitOf p0.cfg 29) stamp16)) ∧
        (k = (l + 5) % 6 → Leaves (.positionEdge t stamp16 n a b z) s t n (moved (bitOf p0.cfg 29) stamp16)) ∧
        (k = (l + 2) % 6 → Leaves (.positionEdge t stamp16 n a b z) s t n fun c =>
          c.pos.count = (p0.steps c0.cpr (bitOf p0.cfg 29) 2).count ∧ c.pos.down = bitOf p0.cfg 29 ∧ c.pos.n = 0 ∧
          c.pos.uncertain = true ∧ c.pos.edge = stamp16 ∧ c.pos.flags.getLsbD 6 = true)) ∧
      (∀ a b z l k, c0.posMode = 3 → p0.sector = some l → l < 6 → hallOf (pinsOf a b z).toNat = some k →
        hallOf p0.pins.toNat = none → c0.adc.slot = none → k = (l + 1) % 6 →
        Leaves (.positionEdge t stamp16 n a b z) s t n (moved (!bitOf p0.cfg 29) (16 * now))) ∧
      (∀ a b z, c0.posMode = 3 → hallOf (pinsOf a b z).toNat = none → (hallOf p0.pins.toNat).isSome = true →
        Leaves (.positionEdge t stamp16 n a b z) s t n fun c =>
          c.pos.count = p0.count ∧ c.pos.rev = p0.rev ∧ c.pos.flags.getLsbD 5 = true) ∧
      (∀ z, c0.posMode = 2 → p0.dirKnown = true → z = !p0.down → p0.pins.getLsbD 2 = !z →
        let ip := p0.indexPos % c0.cpr
        let d := foldCount c0.cpr ((p0.count : Int) - ip)
        (p0.acquire = true → Leaves (.indexEdge t stamp16 n z) s t n fun c =>
          c.pos.count = ip ∧ c.pos.referenced = true ∧ c.pos.acquire = false ∧ c.pos.rev = p0.rev) ∧
        (p0.acquire = false → d = 0 → Leaves (.indexEdge t stamp16 n z) s t n fun c =>
          c.pos.count = p0.count ∧ c.pos.errRun = 0 ∧ c.pos.slip = p0.slip) ∧
        (p0.acquire = false → d ≠ 0 → d.natAbs ≤ fld p0.cfg 28 24 → Leaves (.indexEdge t stamp16 n z) s t n fun c =>
          c.pos.count = ip ∧ c.pos.slip = max (-32768) (min 32767 (p0.slip + d)) ∧ c.pos.errRun = 0) ∧
        (p0.acquire = false → fld p0.cfg 28 24 < d.natAbs → Leaves (.indexEdge t stamp16 n z) s t n fun c =>
          c.pos.count = p0.count ∧ c.pos.errRun = min 15 (p0.errRun + 1) ∧ c.pos.flags.getLsbD 4 = true))) ∧
    (c0.posMode ≠ 0 → p0.still = false →
        p0.stillDue + 16 * max 250 (c0.ticksNs s.time now (fld p0.cfg 7 0 + 8)) ≤ 16 * now →
      Leaves (.standstill t n) s t n fun c =>
        c.pos.still = true ∧ c.pos.speed = 0 ∧ c.pos.uncertain = false ∧ c.pos.n = 0 ∧ c.pos.count = p0.count ∧
        c.kept = c0.kept)

/-- With no loop-back test running and the Hall state, where it is read, valid. R295, R323, R324: a write of POS_CFG or POS_CPR
in OFF, READY or ARMED takes effect, and a change of MODE, DIR_INV or COUNTS_PER_REV resets the position state; in any other
state it is dropped. R307: REARM arms the index again and clears REFERENCED, ERR_RUN and SLIP; R325: in OFF, READY or ARMED
INDEX_POS takes the value written. -/
def Obligations.PositionWrites : Prop :=
  ∀ (s : State) (t : Nat) (p : PortId) (n : ChanId) (v : Word), (s.at t).busUp p = true → s.ownerOf (chUnit n) = some p →
    let c0 := s.chans[n]
    let opens := c0.core.code = .off ∨ c0.core.code = .ready ∨ c0.core.code = .armed
    let isReset (c : Chan) : Prop := c.pos.count = 0 ∧ c.pos.rev = 0 ∧ c.pos.n = 0 ∧ c.pos.speed = 0 ∧ c.pos.still = true ∧
      c.pos.acquire = true ∧ c.pos.referenced = false ∧ c.pos.slip = 0 ∧ c.pos.errRun = 0
    c0.core.lb = none → (c0.posMode ≠ 3 ∨ (hallOf c0.pos.pins.toNat).isSome = true) →
    (opens → Leaves (.posConfigWrite t p n false v) s t n fun c => c.pos.cfg = v ∧ c.core = c0.core) ∧
    (opens → fld (c0.pos.cfg ^^^ v) 31 29 ≠ 0 → Leaves (.posConfigWrite t p n false v) s t n isReset) ∧
    (opens → fld (c0.pos.cfg ^^^ v) 31 29 = 0 → Leaves (.posConfigWrite t p n false v) s t n fun c =>
      c.pos.count = c0.pos.count ∧ c.pos.referenced = c0.pos.referenced ∧ c.pos.edge = c0.pos.edge) ∧
    (opens → Leaves (.posConfigWrite t p n true v) s t n fun c => c.pos.cpr = v ∧ c.core = c0.core) ∧
    (opens → c0.pos.cpr ≠ v → Leaves (.posConfigWrite t p n true v) s t n isReset) ∧
    (opens → c0.pos.cpr = v → Leaves (.posConfigWrite t p n true v) s t n fun c => c.pos.count = c0.pos.count) ∧
    (¬ opens → ∀ cpr, Leaves (.posConfigWrite t p n cpr v) s t n fun c =>
      c.core = { c0.core with rwlDrop := c.core.rwlDrop } ∧ c.pos.count = c0.pos.count ∧ c.kept = c0.kept) ∧
    Leaves (.rearm t p n v) s t n (fun c =>
      c.pos.acquire = true ∧ c.pos.referenced = false ∧ c.pos.errRun = 0 ∧ c.pos.slip = 0 ∧ c.pos.count = c0.pos.count) ∧
    (opens → c0.pos.indexPos < 2 ^ 31 → Leaves (.rearm t p n v) s t n fun c => c.pos.indexPos = v.toNat % 2 ^ 31) ∧
    (¬ opens → Leaves (.rearm t p n v) s t n fun c => c.pos.indexPos = c0.pos.indexPos)

/-- R333: the modulator answers a run that waits for it with three compares at the angle of the midpoint of the period they
serve, and a command beyond the linear circle sets V_SAT. R337: a rise or a fall of the blend weight ends at its limit. R361:
KE_T outside the wrong-motor band begins the short circuit, and R135 clears VERIFIED; KE_T below KE_DEMAG sets DEMAG, and R362:
KE_T at or above KE_DEMAG + 8 clears it. -/
def Obligations.FieldControl : Prop :=
  ∀ (s : State) (t : Nat) (n : ChanId), (s.at t).powered = true →
    let c0 := s.chans[n]
    let now := max s.dtime t
    (∀ u, c0.nle.run = some u → u.waitsMod = true → Cells.wf 0 c0.nle.out = true →
      let vd := (BitVec.ofNat 16 (c0.outWord 0x280)).toInt
      let vq := (BitVec.ofNat 16 (c0.outWord 0x281)).toInt
      let mid : Int := ((s.at t).chanIn n).setMid
      let th := angle (c0.fcu.theta + rndDiv (c0.fcu.omega * (mid - c0.fcu.sampleAt)) 1000000000)
      let three := compares vd vq th (actPeriod c0.pwm.period)
      Leaves (.modulatorAnswer t n) s t n (fun c =>
        c.nle.run = some { u with waitsMod := false } ∧ c.core = c0.core) ∧
      (vd * vd + vq * vq ≤ 32767 * 32767 → c0.injecting now = false → Leaves (.modulatorAnswer t n) s t n fun c =>
        c.fcu.vSat = c0.fcu.vSat ∧ c.outLong 0x282 = three.1.toNat ∧ c.outLong 0x284 = three.2.1.toNat ∧
        c.outLong 0x286 = three.2.2.toNat) ∧
      (32767 * 32767 < vd * vd + vq * vq → c0.injecting now = false →
        Leaves (.modulatorAnswer t n) s t n fun c => c.fcu.vSat = true)) ∧
    (c0.fcu.blendDir = .rising → c0.blendW now = 65536 → Leaves (.blendEnd t n) s t n fun c =>
      c = { s.chanAt t n with fcu := { c0.fcu with blend := 65536, blendDir := .steady, blendAt := now } }) ∧
    (c0.fcu.blendDir = .falling → c0.blendW now = 0 → Leaves (.blendEnd t n) s t n fun c =>
      c = { s.chanAt t n with fcu := { c0.fcu with blend := 0, blendDir := .steady, blendAt := now } }) ∧
    (∀ a, c0.fcu.keAt = some a → c0.fcu.phase ≠ .wrongMotorAsc →
      (c0.keOut = true → c0.fcuPar 24 * 1000000 ≤ c0.fcu.keWrong + (now - a) →
        Leaves (.keTimer t n) s t n fun c => c.fcu.phase = .wrongMotorAsc ∧ c.fcu.startFrom = none ∧
          c.core = { c0.core with verified := false }) ∧
      (c0.keOut = false → c0.keWeak = true → c0.fcu.demag = false →
        c0.fcuPar 24 * 1000000 ≤ c0.fcu.keLow + (now - a) →
        Leaves (.keTimer t n) s t n fun c => c.fcu.demag = true ∧ c.fcu.phase = c0.fcu.phase ∧ c.core = c0.core) ∧
      (c0.keOut = false → c0.keStrong = true → c0.fcu.demag = true →
        c0.fcuPar 24 * 1000000 ≤ c0.fcu.keBack + (now - a) →
        Leaves (.keTimer t n) s t n fun c => c.fcu.demag = false ∧ c.core = c0.core))

/-- R352 to R354: a pulse of a probe, its conversions done, is kept, and the last one decides with one of the six outcomes.
R341: a polarity test, both its vectors stopped at START_I, settles the direction of the rotor or counts, and the third without
a result is source POS cause 3. R351: ALIGN_T ends an align start. R347: START_T is source POS cause 2, and a start that ends
later does not complete. -/
def Obligations.Starts : Prop :=
  ∀ (s : State) (t : Nat) (n : ChanId), (s.at t).powered = true →
    let c0 := s.chans[n]
    let now := max s.dtime t
    let done (c : Chan) : Prop := c.fcu.startDone = true ∧ c.fcu.startFrom = none ∧ c.fcu.phase = .done ∧ c.core = c0.core
    (∀ uvU uvV, c0.fcu.phase = .probe → c0.probeEnd c0.fcu.probe.length + 140 ≤ now →
      (c0.fcu.probe.length + 1 < c0.fcuPar 16 → Leaves (.probePulse t n uvU uvV) s t n fun c =>
        c.fcu.phase = .probe ∧ c.fcu.probe.tail = c0.fcu.probe ∧ c.fcu.probe.length = c0.fcu.probe.length + 1 ∧
        c.core = c0.core) ∧
      (c0.fcuPar 16 ≤ c0.fcu.probe.length + 1 → Leaves (.probePulse t n uvU uvV) s t n fun c =>
        1 ≤ c.fcu.outcome ∧ c.fcu.outcome ≤ 6)) ∧
    (∀ f (x y : PolPulse), c0.fcu.phase = .polarity → c0.fcu.startFrom = some f → now ≤ f + c0.fcuPar 19 * 1000000 →
      c0.fcu.polarityAt + x.ns + 1000000 + y.ns ≤ now → c0.polarityStops x c0.fcu.hfi.theta = true →
      c0.polarityStops y (angle ((c0.fcu.hfi.theta : Int) + 32768)) = true →
      let m := 100 - c0.fcuPar 20
      (x.ns * 100 < y.ns * m → Leaves (.polarityTest t n x y) s t n fun c =>
        done c ∧ c.fcu.hfi.theta = c0.fcu.hfi.theta) ∧
      (y.ns * m ≤ x.ns * 100 → y.ns * 100 < x.ns * m → Leaves (.polarityTest t n x y) s t n fun c =>
        done c ∧ c.fcu.hfi.theta = (c0.fcu.hfi.theta + 32768) % 65536) ∧
      (y.ns * m ≤ x.ns * 100 → x.ns * m ≤ y.ns * 100 → c0.fcu.polarity < 2 →
        Leaves (.polarityTest t n x y) s t n fun c =>
          c.fcu.polarity = c0.fcu.polarity + 1 ∧ c.core = c0.core ∧ c.fcu.phase = .polarity) ∧
      (y.ns * m ≤ x.ns * 100 → x.ns * m ≤ y.ns * 100 → 2 ≤ c0.fcu.polarity →
        Leaves (.polarityTest t n x y) s t n fun c => c.prot.latched.getLsbD 10 = true)) ∧
    (∀ f, c0.fcu.phase = .align → c0.fcu.startFrom = some f → c0.fcu.alignFrom + 10000000 + c0.fcuPar 22 * 1000000 ≤ now →
        now ≤ f + c0.fcuPar 19 * 1000000 →
      Leaves (.alignDone t n) s t n done ∧
      (c0.angleSrc = 0 → Leaves (.alignDone t n) s t n fun c => c.fcu.aligned = some c0.pos.count)) ∧
    (∀ f, c0.fcu.startFrom = some f → timedOut (f + c0.fcuPar 19 * 1000000) now = true →
      Leaves (.startTimeout t n) s t n (fun c => c.pos.flt = true ∧ c.prot.latched.getLsbD 10 = true) ∧
      (c0.core.code = .run → bitOf c0.prot.map[10] 23 = false → Leaves (.startTimeout t n) s t n fun c =>
        c.core.code = .locked ∧ c.core.cause = 0x31 ∧ c.prot.firstSrc = 10 ∧ c.prot.firstCause = 2))

/-! ### Chapters 09, 10, 15: the engines -/

/-- R420, R425, R430, R433: control flow in a channel. NOP goes on; JMP, JAL and JR go to their target; the branches go to T when
their condition holds and on otherwise; LOOP counts its index register down first; END ends the run. -/
def Obligations.EngineControlFlow : Prop :=
  ∀ (s : State) (t : Nat) (n : ChanId) (u : RunS) (a b : Fin 32) (T : Nat), Runs s t n u → T < 1024 →
    let r := s.chans[n].nle.regs
    let brn (c : Prop) [Decidable c] : RegsS := r.goTo (if c then T else r.pc + 1)
    let ok (c : Prop) : Prop := c ∨ r.pc + 1 < 1024
    (Stands s n (engWord 0x01 0 0 0) → r.pc + 1 < 1024 → StepsTo .nleNop s t n u (r.goTo (r.pc + 1))) ∧
    (Stands s n (engWord 0x02 0 0 0) → ∀ f : EngFault, f.parity = false → Leaves (.endRun t (.ch n) f) s t n fun c =>
      c.nle.run = none ∧ c.nle.regs = r ∧ c.nle.psm = s.chans[n].nle.psm ∧ c.nle.store = s.chans[n].nle.store) ∧
    (Stands s n (engWord 0x03 0 0 T) → StepsTo .jmp s t n u (r.goTo T)) ∧
    (Stands s n (engWord 0x04 a 0 T) → StepsTo .jal s t n u ((r.putNum a (r.pc + 1)).goTo T)) ∧
    (Stands s n (engWord 0x05 0 b 0) → (r.bits b).toNat < 1024 → StepsTo .jr s t n u (r.goTo (r.bits b).toNat)) ∧
    (Stands s n (engWord 0x06 a b T) → ok (r.dAt a = r.dAt b) → StepsTo .beq s t n u (brn (r.dAt a = r.dAt b))) ∧
    (Stands s n (engWord 0x07 a b T) → ok (r.dAt a ≠ r.dAt b) → StepsTo .bne s t n u (brn (r.dAt a ≠ r.dAt b))) ∧
    (Stands s n (engWord 0x08 a b T) → ok (r.dAt a < r.dAt b) → StepsTo .blt s t n u (brn (r.dAt a < r.dAt b))) ∧
    (Stands s n (engWord 0x09 a b T) → ok (r.dAt b ≤ r.dAt a) → StepsTo .bge s t n u (brn (r.dAt b ≤ r.dAt a))) ∧
    (Stands s n (engWord 0x0A a b T) →
      (b.val = 0 → ok (r.dAt a = 0) → StepsTo .bcz s t n u (brn (r.dAt a = 0))) ∧
      (b.val = 1 → ok (r.dAt a ≠ 0) → StepsTo .bcz s t n u (brn (r.dAt a ≠ 0))) ∧
      (b.val = 2 → ok (r.dAt a < 0) → StepsTo .bcz s t n u (brn (r.dAt a < 0))) ∧
      (b.val = 3 → ok (0 ≤ r.dAt a) → StepsTo .bcz s t n u (brn (0 ≤ r.dAt a))) ∧
      (b.val = 4 → ok (0 < r.dAt a) → StepsTo .bcz s t n u (brn (0 < r.dAt a))) ∧
      (b.val = 5 → ok (r.dAt a ≤ 0) → StepsTo .bcz s t n u (brn (r.dAt a ≤ 0))) ∧
      (6 ≤ b.val → Refuses .bcz s t n)) ∧
    (∀ x : Fin 4, Stands s n (engWord 0x0B ⟨x.val, by omega⟩ 0 T) →
      let left : Nat := (r.ix[x] + 1023) % 1024
      r.ix[x] < 1024 → ok (left ≠ 0) → StepsTo .loop s t n u ((r.putIx x left).goTo (if left ≠ 0 then T else r.pc + 1))) ∧
    (Stands s n (engWord 0x0C a b T) → b.val < 16 → ok ((r.bits a).getLsbD b = true) →
      StepsTo .bbs s t n u (brn ((r.bits a).getLsbD b = true))) ∧
    (Stands s n (engWord 0x0D a b T) → b.val < 16 → ok ((r.bits a).getLsbD b = false) →
      StepsTo .bbc s t n u (brn ((r.bits a).getLsbD b = false)))

/-- R420, R331: moves between registers, immediates, index registers; sine and cosine. R421, R422, R420: arithmetic and logic on D registers, saturating or on bit patterns as R414 says. -/
def Obligations.EngineRegisters : Prop :=
  (∀ (s : State) (t : Nat) (n : ChanId) (u : RunS) (d a : Fin 32) (x : Fin 4) (imm : Half), Runs s t n u →
    let r := s.chans[n].nle.regs
    r.pc + 1 < 1024 →
    let steps (mk : Nat → Eng → EngFault → Instr) (r' : RegsS) : Prop := StepsTo mk s t n u (r'.goTo (r.pc + 1))
    let x32 : Fin 32 := ⟨x.val, by omega⟩
    (Stands s n (engWord 0x12 d 0 imm.toNat) → steps .ldi (r.putD d imm)) ∧
    (Stands s n (engWord 0x13 d a 0) → steps .mov (r.putD d (r.bits a))) ∧
    (Stands s n (engWord 0x16 x32 0 imm.toNat) → steps .lix (r.putIx x imm.toNat)) ∧
    (Stands s n (engWord 0x17 x32 0 imm.toNat) → steps .aix (r.putIx x (r.ix[x] + imm.toInt))) ∧
    (Stands s n (engWord 0x18 x32 a 0) → steps .mix (r.putIx x (r.bits a).toNat)) ∧
    (Stands s n (engWord 0x18 d x32 1) → steps .mix (r.putD d (BitVec.ofNat 16 r.ix[x]))) ∧
    (Stands s n (engWord 0x1A d a 0) →
      steps .sincos ((r.putNum d (sin16 (r.bits a).toNat)).putNum (d.val + 1) (cos16 (r.bits a).toNat)))) ∧
  (∀ (s : State) (t : Nat) (n : ChanId) (u : RunS) (d a b : Fin 32) (rnd : Bool) (sh : Fin 16) (imm : Half), Runs s t n u →
    let r := s.chans[n].nle.regs
    let x := r.dAt a
    let y := r.dAt b
    let z := r.dAt (b.val + 1)
    r.pc + 1 < 1024 →
    let num (mk : Nat → Eng → EngFault → Instr) (v : Int) : Prop := StepsTo mk s t n u ((r.putNum d v).goTo (r.pc + 1))
    let pat (mk : Nat → Eng → EngFault → Instr) (v : Half) : Prop := StepsTo mk s t n u ((r.putD d v).goTo (r.pc + 1))
    let alu (fn : Fin 16) : Prop := Stands s n (wordR 0x20 d a b 0 false 0 fn)
    let one (fn : Fin 16) : Prop := Stands s n (wordR 0x20 d a 0 0 false 0 fn)
    let shift (rnd : Bool) (fn : Fin 16) : Prop := Stands s n (wordR 0x25 d a 0 0 rnd sh fn)
    (alu 0 → num .alu (limited 16 (x + y))) ∧ (alu 1 → num .alu (limited 16 (x - y))) ∧
    (alu 2 → num .alu (min x y)) ∧ (alu 3 → num .alu (max x y)) ∧
    (alu 4 → pat .alu (r.bits a &&& r.bits b)) ∧ (alu 5 → pat .alu (r.bits a ||| r.bits b)) ∧
    (alu 6 → pat .alu (r.bits a ^^^ r.bits b)) ∧
    (one 7 → num .alu (limited 16 (-x))) ∧ (one 8 → num .alu (limited 16 x.natAbs)) ∧
    (alu 9 → num .alu (min (max x y) z)) ∧
    (Stands s n (engWord 0x21 d a imm.toNat) → num .addi (limited 16 (x + imm.toInt))) ∧
    (Stands s n (engWord 0x22 d a imm.toNat) → pat .andi (r.bits a &&& imm)) ∧
    (Stands s n (engWord 0x23 d a imm.toNat) → pat .ori (r.bits a ||| imm)) ∧
    (Stands s n (engWord 0x24 d a imm.toNat) → pat .xori (r.bits a ^^^ imm)) ∧
    (shift false 0 → num .shift (limited 16 (x * 2 ^ sh.val))) ∧ (shift rnd 1 → num .shift (shifted rnd x sh.val)) ∧
    (shift false 2 → pat .shift (BitVec.ofNat 16 ((r.bits a).toNat * 2 ^ sh.val))) ∧
    (shift false 3 → pat .shift (BitVec.ofNat 16 ((r.bits a).toNat / 2 ^ sh.val))) ∧
    (Stands s n (wordR 0x26 d a b 0 rnd sh 0) → num .mul (limited 16 (shifted rnd (x * y * 2 ^ sh.val) 15))) ∧
    (Stands s n (engWord 0x27 d a imm.toNat) → num .muli (limited 16 (shifted true (x * imm.toInt) 15)))) ∧
  (∀ (s : State) (t : Nat) (n : ChanId) (u : RunS) (d a b : Fin 32) (ac : Fin 4) (rnd : Bool) (sh fn : Fin 16), Runs s t n u →
    (Stands s n (wordR 0x20 d a b ac rnd sh fn) →
      10 ≤ fn.val ∨ ac ≠ 0 ∨ rnd = true ∨ sh ≠ 0 ∨ ((fn.val = 7 ∨ fn.val = 8) ∧ b ≠ 0) → Refuses .alu s t n) ∧
    (Stands s n (wordR 0x25 d a b ac rnd sh fn) →
      4 ≤ fn.val ∨ b ≠ 0 ∨ ac ≠ 0 ∨ (rnd = true ∧ fn.val ≠ 1) → Refuses .shift s t n))

/-- R420, R379, R380, R383, R403, R419, R428: loads and stores, in every addressing mode. A word of the PSM or a plain output
word takes the value; a write of an input word or of an unlisted one is dropped; VQ starts the wait for the modulator,
FE_REF is noted, STOP_DONE ends STOPPING; an access that waits for the converters or for the modulator leaves the run
where it is. That a pending WRONG_MOTOR goes before STOP_DONE is the model's choice (log 110). -/
def Obligations.EngineMemory : Prop :=
  ∀ (s : State) (t : Nat) (n : ChanId) (u : RunS) (d : Fin 32) (acc x am : Fin 4) (addr : Nat),
    Runs s t n u → addr < 1024 →
    let c0 := s.chans[n]
    let r := c0.nle.regs
    let ea := r.eaOf x am addr
    let eb := (ea + 1) % 1024
    let word (a : Nat) : Half := c0.nle.read u a
    let plain (a : Nat) : Bool := a < 0x200 || (0x282 ≤ a && a ≤ 0x287) || a == 0x262 || a == 0x263 || a == 0x280 ||
      a == 0x288 || a == 0x28B || (0x28D ≤ a && a ≤ 0x291)
    let dropped (a : Nat) : Bool := (0x200 ≤ a && a < 0x262) || (0x264 ≤ a && a < 0x280) || 0x294 ≤ a
    let free (w : Word) : Prop := u.stalls (c0.nle.eng u) r w = false
    -- what the data words hold after a store of `v` to `k`
    let holds (c : Chan) (vs : List (Nat × Half)) : Prop :=
      c = { s.chanAt t n with nle := { c0.nle with regs := c.nle.regs, run := c.nle.run, psm := c.nle.psm, out := c.nle.out }, tag := c.tag } ∧
      (∀ k < 0x400, (c.nle.read u k) = (match vs.find? (fun w => w.1 == k) with
        | some w => if dropped k || k == 0x288 then word k else w.2
        | none => word k))
    let after (c : Chan) (step : Nat) : Prop := c.nle.regs = (r.stepIx x am step).goTo (r.pc + 1) ∧
      c.nle.run = some { u with count := u.count + 1 }
    r.pc + 1 < 1024 → (∀ y : Fin 4, r.ix[y] < 1024) → Cells.wf 0 c0.nle.psm = true → Cells.wf 0 c0.nle.out = true →
    (Stands s n (wordM 0x10 d x am addr) → free (wordM 0x10 d x am addr) →
      StepsTo .ld s t n u (((r.stepIx x am 1).putD d (word ea)).goTo (r.pc + 1))) ∧
    (Stands s n (wordM 0x11 d x am addr) → free (wordM 0x11 d x am addr) → (plain ea || dropped ea) = true →
      ∀ f : EngFault, f.parity = false → Leaves (.st t (.ch n) f) s t n fun c =>
        holds c [(ea, r.bits d)] ∧ after c 1) ∧
    (∀ f : EngFault, f.parity = false → Stands s n (wordM 0x11 d x am addr) → free (wordM 0x11 d x am addr) →
      let stored (c : Chan) : Prop := c.nle.regs = (r.stepIx x am 1).goTo (r.pc + 1) ∧ c.nle.psm = c0.nle.psm ∧
        Cells.get 0 c.nle.out ea = r.bits d
      ((plain ea || dropped ea) = false → Leaves (.st t (.ch n) f) s t n stored) ∧
      (ea = 0x281 → Leaves (.st t (.ch n) f) s t n fun c =>
        stored c ∧ c.nle.run = some { u with count := u.count + 1, waitsMod := true } ∧ c.core = c0.core) ∧
      (ea = 0x292 → Leaves (.st t (.ch n) f) s t n fun c =>
        stored c ∧ c.nle.feWritten = true ∧ c.core = c0.core) ∧
      (ea = 0x28C → c0.core.code = .stopping → (r.bits d).getLsbD 0 = true → c0.fcu.phase ≠ .wrongMotorAsc →
        Leaves (.st t (.ch n) f) s t n fun c =>
          stored c ∧ c.core.code = (if c0.core.verified then .ready else .off) ∧ c.core.prev = .stopping ∧
          c.core.cause = 0x20) ∧
      (ea = 0x28C → (c0.core.code ≠ .stopping ∨ (r.bits d).getLsbD 0 = false) → Leaves (.st t (.ch n) f) s t n fun c =>
        stored c ∧ c.core = c0.core)) ∧
    (Stands s n (wordM 0x14 ⟨acc.val, by omega⟩ x am addr) → free (wordM 0x14 ⟨acc.val, by omega⟩ x am addr) →
      StepsTo .lda s t n u (((r.stepIx x am 2).putAcc acc (word eb ++ word ea).toInt).goTo (r.pc + 1))) ∧
    (Stands s n (wordM 0x15 ⟨acc.val, by omega⟩ x am addr) → free (wordM 0x15 ⟨acc.val, by omega⟩ x am addr) →
      ((plain ea || dropped ea) && (plain eb || dropped eb)) = true →
      ∀ f : EngFault, f.parity = false → Leaves (.sta t (.ch n) f) s t n fun c =>
        let v : BitVec 32 := BitVec.ofInt 32 (limited 32 (r.accAt acc))
        holds c [(ea, v.setWidth 16), (eb, (v >>> 16).setWidth 16)] ∧ after c 2) ∧
    (∀ w, Stands s n w → u.stalls (c0.nle.eng u) r w = true → opOf w ∈ [0x10, 0x11, 0x14, 0x15, 0x19] →
      ∀ row ∈ engineRows, row.1 = opOf w → ∀ f : EngFault, f.parity = false →
        Leaves (row.2 t (.ch n) f) s t n fun c => c = s.chanAt t n)

/-- R423, R424, R420: products and sums in the accumulators, and the way back into a D register. R426, R427: one PI step, written out as the rule gives it. -/
def Obligations.EngineAccumulatorsAndPi : Prop :=
  (∀ (s : State) (t : Nat) (n : ChanId) (u : RunS) (d a b : Fin 32) (k l : Fin 4) (rnd : Bool) (sh : Fin 16), Runs s t n u →
    let r := s.chans[n].nle.regs
    let A := r.accAt k
    let B := r.accAt l
    r.pc + 1 < 1024 →
    let acc (mk : Nat → Eng → EngFault → Instr) (v : Int) : Prop := StepsTo mk s t n u ((r.putAcc k v).goTo (r.pc + 1))
    let p := r.dAt a * r.dAt b * 2 ^ (1 + sh.val)
    let mac (fn : Fin 16) : Prop := sh.val < 8 ∧ Stands s n (wordR 0x30 0 a b k false sh fn)
    let self (fn : Fin 16) : Prop := Stands s n (wordR 0x31 0 0 0 k false 0 fn)
    let two (fn : Fin 16) : Prop := Stands s n (wordR 0x31 0 ⟨l.val, by omega⟩ 0 k false 0 fn)
    (mac 0 → acc .mac p) ∧ (mac 1 → acc .mac (limited 40 (A + p))) ∧ (mac 2 → acc .mac (limited 40 (A - p))) ∧
    (self 0 → acc .aop 0) ∧ (two 1 → acc .aop (limited 40 (A + B))) ∧ (two 2 → acc .aop (limited 40 (A - B))) ∧
    (two 3 → acc .aop B) ∧ (self 4 → acc .aop (limited 40 (-A))) ∧ (self 5 → acc .aop (limited 32 A)) ∧
    (Stands s n (wordR 0x31 0 0 0 k false sh 6) → acc .aop (limited 40 (A * 2 ^ sh.val))) ∧
    (Stands s n (wordR 0x31 0 0 0 k rnd sh 7) → acc .aop (shifted rnd A sh.val)) ∧
    (Stands s n (wordR 0x31 0 a 0 k false 0 8) → acc .aop (r.dAt a * 65536)) ∧
    (Stands s n (wordR 0x31 0 a 0 k false 0 9) → acc .aop (limited 40 (A + r.dAt a * 65536))) ∧
    (Stands s n (wordR 0x32 d 0 0 k rnd sh 0) →
      StepsTo .racc s t n u ((r.putNum d (limited 16 (shifted rnd (A * 2 ^ sh.val) 16))).goTo (r.pc + 1)))) ∧
  (∀ (s : State) (t : Nat) (n : ChanId) (u : RunS) (d a b : Fin 32) (k : Fin 4) (rnd aw pif : Bool) (ksh : Fin 8), Runs s t n u →
    let r := s.chans[n].nle.regs
    r.pc + 1 < 1024 →
    Stands s n (wordR 0x33 d a b k rnd ⟨ksh.val + 8 * b2n aw, by cases aw <;> simp [b2n] <;> omega⟩
      ⟨b2n pif, by cases pif <;> simp [b2n]⟩) →
    let hi := r.dAt (b.val + 3)
    let lo := min (r.dAt (b.val + 2)) hi
    let p := 2 * r.dAt b * r.dAt a * 2 ^ ksh.val
    let step := 2 * r.dAt (b.val + 1) * r.dAt a
    let u0 := p + r.accAt k
    let hold : Bool := aw && ((decide (hi * 65536 ≤ u0) && decide (0 < step)) || (decide (u0 ≤ lo * 65536) && decide (step < 0)))
    let i := limited 40 (r.accAt k + if hold then 0 else step)
    let i' := min (max i (lo * 65536)) (hi * 65536)
    let v := limited 16 (shifted rnd (p + i') 16)
    let flags := b2n (decide (hi < v)) + 2 * b2n (decide (v < lo)) + 4 * b2n (decide (hi * 65536 < i)) +
      8 * b2n (decide (i < lo * 65536)) + 16 * b2n hold
    let r1 := (r.putNum d (min (max v lo) hi)).putAcc k i'
    StepsTo .pi s t n u ((if pif then r1.putD (d.val + 1) (BitVec.ofNat 16 flags) else r1).goTo (r.pc + 1))) ∧
  (∀ (s : State) (t : Nat) (n : ChanId) (u : RunS) (d a b : Fin 32) (k : Fin 4) (rnd : Bool) (sh fn : Fin 16), Runs s t n u →
    (Stands s n (wordR 0x30 d a b k rnd sh fn) → 3 ≤ fn.val ∨ 8 ≤ sh.val ∨ d ≠ 0 ∨ rnd = true → Refuses .mac s t n) ∧
    (Stands s n (wordR 0x31 d a b k rnd sh fn) →
      10 ≤ fn.val ∨ d ≠ 0 ∨ (rnd = true ∧ fn.val ≠ 7) ∨ (sh ≠ 0 ∧ fn.val ≠ 6 ∧ fn.val ≠ 7) ∨
        (4 ≤ a.val ∧ 1 ≤ fn.val ∧ fn.val ≤ 3) ∨ (a ≠ 0 ∧ (fn.val = 0 ∨ (4 ≤ fn.val ∧ fn.val ≤ 7))) → Refuses .aop s t n) ∧
    (Stands s n (wordR 0x33 d a b k rnd sh fn) → 2 ≤ fn.val → Refuses .pi s t n))


/-- R429, R200, R202, R433, R434, R378: DSET hands the three words to the modulator as one set in RUN and STOPPING; R392: not in
a late UPDATE run. A word that names no instruction, the instruction after the 65,536th and a memory error stop the run before
anything is written, as source LATE cause 2 or 3; a word that names no instruction is executed by the command of any row, and
the command of another row leaves the run where it is (the model's choices, log 118). -/
def Obligations.EngineDutySetAndExceptions : Prop :=
  ∀ (s : State) (t : Nat) (n : ChanId) (u : RunS) (f : EngFault), (s.at t).powered = true → s.chans[n].nle.run = some u →
    s.chans[n].nle.overdue (max s.dtime t) = false →
    let c0 := s.chans[n]
    let late : Prop := u.entry = .update ∧ u.trig.deadline < max s.dtime t
    let handed : DutySet := { cu := c0.outLong 0x282 % 2 ^ 24, cv := c0.outLong 0x284 % 2 ^ 24, cw := c0.outLong 0x286 % 2 ^ 24 }
    let goesOn (c : Chan) : Prop :=
      c.nle.regs = c0.nle.regs.goTo (c0.nle.regs.pc + 1) ∧ c.nle.run = some { u with count := u.count + 1 } ∧
      c.nle.psm = c0.nle.psm ∧ c.nle.out = c0.nle.out ∧ c.core = c0.core
    let stops (c : Chan) (bit : Nat) : Prop := c.nle.run = none ∧ c.nle.regs = c0.nle.regs ∧ c.nle.psm = c0.nle.psm ∧
      c.nle.out = c0.nle.out ∧ c.nle.flags.getLsbD bit = true ∧ c.nle.flags.getLsbD 2 = true ∧
      c.prot.latched.getLsbD 8 = true
    (Stands s n (engWord 0x19 0 0 0) → u.count < 65536 → f.parity = false → c0.nle.regs.pc + 1 < 1024 → u.waitsMod = false →
      (late → Leaves (.dset t (.ch n) f) s t n fun c => goesOn c ∧ c.pwm = c0.pwm) ∧
      (¬ late → (c0.core.code = .run ∨ c0.core.code = .stopping) → c0.fcu.startDone = true → c0.pwm.count0.isSome = true →
        Leaves (.dset t (.ch n) f) s t n fun c => goesOn c ∧
          c.pwm.duty = c0.pwm.duty.put (((s.at t).chanIn n).near c0.nextUpdate.2) handed) ∧
      ((c0.core.code ≠ .run ∧ c0.core.code ≠ .stopping) ∨ c0.fcu.startDone = false ∨ c0.pwm.count0 = none →
        Leaves (.dset t (.ch n) f) s t n fun c => goesOn c ∧ c.pwm = c0.pwm)) ∧
    (∀ row ∈ engineRows,
      (∀ x, Stands s n x → f.parity = false → (∀ other ∈ engineRows, other.1 ≠ opOf x) →
        Leaves (row.2 t (.ch n) f) s t n fun c => stops c 3) ∧
      (∀ x, Stands s n x → f.parity = false → row.1 = opOf x → (65536 ≤ u.count ∨ 0x38 ≤ row.1) →
        Leaves (row.2 t (.ch n) f) s t n fun c => stops c 3) ∧
      (∀ x, Stands s n x → f.parity = true → row.1 = opOf x →
        Leaves (row.2 t (.ch n) f) s t n fun c => stops c 4) ∧
      (∀ x, Stands s n x → (∃ other ∈ engineRows, other.1 = opOf x) → row.1 ≠ opOf x →
        Leaves (row.2 t (.ch n) f) s t n fun c => c = s.chanAt t n))

/-- R388, R380, R390, R404: an idle engine that has no chunk of a host's transfer to move first (R400) and has not been disabled
for 1 ms takes the pending trigger of the highest priority; 1 ms after it was disabled the engine drops its run and its triggers;
FE_OVER that has held for FE_T, or is still held when it ends, is source POS cause 6. R61: neither is declared before the first
tick after its instant. -/
def Obligations.EngineRuns : Prop :=
  ∀ (s : State) (t : Nat) (n : ChanId), (s.at t).powered = true →
    let c0 := s.chans[n]
    let now := max s.dtime t
    (∀ (e : Entry) (g : Trigger) (pc : Nat), c0.nle.run = none → c0.nle.overdue now = false → c0.nle.chunkFirst = false → c0.nle.pend[e.idx] = some g →
      c0.nle.entries[e.idx] = some pc → (∀ k : Fin 4, k.val < e.idx.val → c0.nle.pend[k] = none) →
      Leaves (.runStart t n) s t n fun c =>
        c.nle.pend[e.idx] = none ∧ (∀ k : Fin 4, k ≠ e.idx → c.nle.pend[k] = c0.nle.pend[k]) ∧
        c.nle.regs = c0.nle.regs.goTo (pc % 1024) ∧ c.nle.entry = e ∧
        (∃ u, c.nle.run = some u ∧ u.entry = e ∧ u.trig = g ∧ u.inp = c.nle.inp ∧ u.count = 0 ∧ u.waitsMod = false) ∧
        c.core = c0.core ∧ c.nle.psm = c0.nle.psm ∧ c.nle.out = c0.nle.out) ∧
    (∀ u, c0.nle.run = some u → Leaves (.runStart t n) s t n fun c => c = s.chanAt t n) ∧
    (∀ d, c0.nle.disabledAt = some d → c0.nle.enabled = false →
      (d + 1000000 + 250 ≤ now → Leaves (.runStopTimeout t n) s t n fun c =>
        c = { s.chanAt t n with nle := { c0.nle with run := none, pend := Vector.replicate 4 none, orphans := 0 } }) ∧
      (now < d + 1000000 + 250 → Leaves (.runStopTimeout t n) s t n fun c => c = s.chanAt t n)) ∧
    (∀ a, c0.nle.feAt = some a → c0.feActs = true →
      let due := a + (max 1 (fld c0.nle.feIn 24 16) * 1000000 - c0.nle.feTime)
      (due + 250 ≤ now → Leaves (.feTimeout t n) s t n fun c => c.pos.flt = true ∧ c.prot.latched.getLsbD 10 = true) ∧
      (now < due + 250 → Leaves (.feTimeout t n) s t n fun c => c = s.chanAt t n))

/-- R431, R586, R591, R599: the safety executive executes the same rows. An instruction without output changes the registers of A,
the data words and the count alone; CHKPT, SIOW and PSTS enter their values in the output delay buffer; SIOR and PSTR read
the input delay buffer; END of A starts B at ENTRY. -/
def Obligations.SafetyProgram : Prop :=
  ∀ (s : State) (t : Nat) (u : SeRun), RunsA s t u →
    let r := s.se.regsA
    let x := Cells.get 0 s.se.store r.pc
    let g := s.seEng u
    let on (u' : SeRun) (r' : RegsS) (psm : Cells 16) : SeS :=
      { s.se with regsA := r', psm := psm, dbgPass := false, run := some { u' with countA := u.countA + 1 } }
    (∀ row ∈ engineRows, ∀ p, row.1 = opOf x → g.plan r x = some p → p.act = .none → (∀ w ∈ p.writes, w.1 < 0x1000) →
      Does (row.2 t .se noFault) s fun s1 =>
        s1 = { s.at t with se := on u p.regs (p.writes.foldl (fun m w => Cells.set 0 m w.1 w.2) s.se.psm) }) ∧
    (∀ (d : Fin 32) (k : Fin 8) (id : Nat), id < 16384 → x = engWord 0x38 d ⟨4 * k.val, by omega⟩ id →
      r.pc + 1 < 16384 → u.a.outs.length + k.val + 1 ≤ 1024 →
      Does (.chkpt t .se noFault) s fun s1 => ∃ a : SeIssued,
        s1 = { s.at t with se := on { u with a := a } (r.goTo (r.pc + 1)) s.se.psm } ∧
        a = { u.a with outs := a.outs, issued := u.a.issued + 1 } ∧
        a.outs = ((List.range (k.val + 1)).map fun i =>
          SeOut.mk (SeKind.chkpt id (k.val + 1)) (r.bits (d.val + i))).reverse ++ u.a.outs) ∧
    (∀ (d : Fin 32) (p : Fin 24), x = engWord 0x39 d 0 p.val → r.pc + 1 < 16384 →
      Does (.sior t .se noFault) s fun s1 =>
        s1 = { s.at t with se := on u ((r.putD d s.se.latchSi[p]).goTo (r.pc + 1)) s.se.psm }) ∧
    (∀ (d : Fin 32) (q : Fin 8), x = engWord 0x3A d 0 q.val → r.pc + 1 < 16384 → u.a.outs.length + 1 ≤ 1024 →
      Does (.siow t .se noFault) s fun s1 => ∃ a : SeIssued, s1 = { s.at t with se := on { u with a := a } (r.goTo (r.pc + 1)) s.se.psm } ∧
        slotGet a.pairs q.val = some (r.bits d) ∧ a.outs = { kind := .pair q.val, value := r.bits d } :: u.a.outs ∧
        a.issued = u.a.issued + 1 ∧ a.words = u.a.words ∧ a.frames = u.a.frames) ∧
    (∀ (len : Fin 32) (ix am : Fin 4) (k : Fin 16) (addr : Nat), addr < 8192 →
      let b : Fin 32 := ⟨8 * ix.val + 2 * am.val + k.val / 8, by omega⟩
      let ea := g.ea r x
      1 ≤ len.val → len.val ≤ 24 → r.pc + 1 < 16384 →
      (x = engWord 0x3B len b (k.val % 8 * 8192 + addr) → ea + len.val ≤ 2048 → u.a.outs.length + len.val ≤ 1024 →
        Does (.psts t .se noFault) s fun s1 => ∃ a : SeIssued,
          s1 = { s.at t with se := on { u with a := a } ((g.afterM r x len.val).goTo (r.pc + 1)) s.se.psm } ∧
          (∃ f ∈ a.frames, f.slot = k.val ∧ f.vals = (List.range len.val).map (fun i => Cells.get 0 s.se.psm (ea + i))) ∧
          a.issued = u.a.issued + 1) ∧
      (x = engWord 0x3C len b (k.val % 8 * 8192 + addr) → ea + len.val + 1 ≤ 2048 → Cells.wf 0 s.se.psm = true →
        Does (.pstr t .se noFault) s fun s1 => ∃ psm,
          s1 = { s.at t with se := on u ((g.afterM r x (len.val + 1)).goTo (r.pc + 1)) psm } ∧
          ∀ a, Cells.get 0 psm a = if a = ea then s.se.latchPst[k].status
            else if ea < a ∧ a ≤ ea + len.val then s.se.latchPst[k].vals.getD (a - ea - 1) 0
            else Cells.get 0 s.se.psm a)) ∧
    (x = engWord 0x02 0 0 0 → s.se.dbgLog = [] → Does (.endRun t .se noFault) s fun s1 =>
      s1.se.run = some { u with countA := u.countA + 1, second := true, left := u.a.outs.reverse } ∧
      s1.se.regsB = s.se.regsB.goTo (s.se.img.entry % 16384) ∧ s1.se.regsA = r ∧ s1.se.psm = s.se.psm ∧
      s1.se.xStop = false ∧ s1.se.released = s.se.released)

/-- R596, R597: instance B, over mirrored registers and negated data words, does the mirror image of what A does, for every
instruction whose transform involves no saturation, no signed comparison and no rounding; and where A meets an exception, so
does B. -/
def Obligations.MirrorExact : Prop :=
  ∀ (g : EngCfg) (r : RegsS) (x : Word), g.mir = false → exactMirror x = true →
    g.mirror.plan r.mirror x = (g.plan r x).map Plan.mirror

/-! ### Chapters 12, 13: field position engine, coverage raster -/

/-- R474 to R476, R479, R481, R483, R508: on an enabled port, a frame with a wrong CRC (and no SYNC byte after its first) or of
another type counts as an error and a looped-back one in LB_CNT, and neither reaches a source; the built-in frame goes out at
most every 10 ms. A fix whose epoch and quality pass R481 becomes its source's last one, another is counted; FPE_FIX answers the
outcome. A source whose last fix is older than STALE_T is no longer fresh; R63: one whose deadline passed before a later fix came
goes stale first, and that fix makes it fresh again. That a frame of another type is skipped whole is the model's choice
(log 126). -/
def Obligations.PositionFixes : Prop :=
  ∀ (s : State) (t : Nat), (s.at t).powered = true →
    let now := max s.dtime t
    let only (s1 : State) : Prop := s1.quiet = { (s.at t).quiet with fpe := s1.fpe }
    let port (p : Fin 2) (x : PosPort) (s1 : State) : Prop :=
      s1.quiet = { (s.at t).quiet with fpe := { s.fpe with ports := s.fpe.ports.set p x } }
    let errs (p : Fin 2) : State → Prop :=
      port p { s.fpe.ports[p] with frameErr := min 65535 (s.fpe.ports[p].frameErr + 1) }
    let loops (p : Fin 2) : State → Prop := port p { s.fpe.ports[p] with lbCnt := min 65535 (s.fpe.ports[p].lbCnt + 1) }
    let sent (p : Fin 2) : PosPort := { s.fpe.ports[p] with lbAt := some now }
    let takes (k : Fin 3) (arrival : Nat) (bs : List Byte) (s1 : State) : Prop :=
      (∃ x, s1.fpe.src[k].last = some x ∧ x.east = toSigned 32 (ofBytes (bs.take 4)) ∧
        x.north = toSigned 32 (ofBytes ((bs.drop 4).take 4)) ∧ x.arrival = arrival) ∧
      s1.fpe.src[k].prev = s.fpe.src[k].last ∧ s1.fpe.src[k].fresh = true ∧ s1.fpe.pose = true ∧
      s1.fpe.fixReject = s.fpe.fixReject ∧ (∀ j, j ≠ k → s1.fpe.src[j] = s.fpe.src[j])
    let drops (k : Fin 3) (s1 : State) : Prop :=
      s1.fpe.src[k].last = s.fpe.src[k].last ∧ s1.fpe.src[k].run = 0 ∧
      s1.fpe.fixReject = min 65535 (s.fpe.fixReject + 1) ∧ (∀ j, j ≠ k → s1.fpe.src[j] = s.fpe.src[j])
    (∀ p : Fin 2, bitOf s.fpe.ports[p].cfg 31 = true →
      Does (.frameGap t p) s (errs p) ∧ (∀ b, Does (.framingError t p b) s (errs p)) ∧
      (fld s.fpe.ports[p].cfg 30 29 ≠ 0 → (∀ a, s.fpe.ports[p].lbAt = some a → a + 10000000 ≤ now) →
        Does (.lbFrame t p true) s (port p { sent p with lbCnt := min 65535 (s.fpe.ports[p].lbCnt + 1) }) ∧
        Does (.lbFrame t p false) s (port p (sent p))) ∧
      (∀ (ty : Byte) (body : List Byte) (crc : Nat), 40 ≤ body.length → body.length ≤ 64 → crc < 65536 →
        let head : List Byte := [ty, BitVec.ofNat 8 body.length]
        let frame : List Byte := [0xA7, 0x4E] ++ head ++ body ++ leBytes 2 crc
        let k : Fin 3 := ⟨p.val, by omega⟩
        (crc ≠ ccitt (head ++ body) → (0xA7#8 : Byte) ∉ [ty] ++ body ++ leBytes 2 crc →
          Does (.fixFrame t p frame) s (errs p)) ∧
        (crc = ccitt (head ++ body) → ty ≠ 1 → Does (.fixFrame t p frame) s (errs p)) ∧
        (crc = ccitt (head ++ body) → ty = 1 →
          (fld s.fpe.ports[p].cfg 30 29 ≠ 0 → Does (.fixFrame t p frame) s (loops p)) ∧
          (fld s.fpe.ports[p].cfg 30 29 = 0 → (s.ownerOf fpeUnit).isSome = true → s.fpeFailed = false →
            let bs := body.take 40
            let why := s.fpe.rejectFix k now (s.fixEpoch now bs) bs
            (why = none → Does (.fixFrame t p frame) s fun s1 => only s1 ∧ takes k now bs s1) ∧
            (why ≠ none → Does (.fixFrame t p frame) s fun s1 => only s1 ∧ drops k s1)))) ∧
      (∀ bs : List Byte, 0xA7#8 ∉ bs → Does (.fixFrame t p bs) s fun s1 => s1.quiet = (s.at t).quiet)) ∧
    (∀ (q : SqRef) (f : Fetched) (got : List Byte), Next s t q 0x30 f → Passes s t q f (fpeFixExec f.stamp (.arrived got)) →
      let bs := if f.desc.length = 0 then f.desc.param.take 40 else got.take 40
      let why := s.fpe.rejectFix 2 f.stamp (s.fixEpoch f.stamp bs) bs
      (why = none → Does (.fpeFix t q (.arrived got)) s fun s1 =>
        only s1 ∧ takes 2 f.stamp bs s1 ∧ Reports s1 q f 0 0 0) ∧
      (∀ r, why = some r → Does (.fpeFix t q (.arrived got)) s fun s1 =>
        only s1 ∧ drops 2 s1 ∧ Reports s1 q f 0 0 (r + 1))) ∧
    (∀ (k : Fin 3) x, s.fpe.src[k].last = some x → s.fpe.src[k].owed = none →
      let d := x.arrival + min 1000 (max 10 (fld s.fpe.srcCfg 9 0)) * 1000000
      (s.fpe.src[k].fresh = true → d + 250 ≤ now → Does (.sourceStale t k) s fun s1 =>
        only s1 ∧ s1.fpe.src[k] = { s.fpe.src[k] with fresh := false, run := 0 } ∧
        (∀ j, j ≠ k → s1.fpe.src[j] = s.fpe.src[j])) ∧
      (s.fpe.src[k].fresh = true → d + 250 ≤ now → (∀ j, j ≠ k → s.fpe.src[j].fresh = false) →
        Does (.sourceStale t k) s fun s1 => s1.fpe.pose = false) ∧
      (now < d + 250 → Does (.sourceStale t k) s fun s1 => s1.quiet = (s.at t).quiet)) ∧
    (∀ (k : Fin 3) x d a, s.fpe.src[k].last = some x → s.fpe.src[k].owed = some (d, a) → d < x.arrival → d + 250 ≤ now →
      Does (.sourceStale t k) s fun s1 => only s1 ∧ s1.fpe.pose = true ∧
        s1.fpe.src[k] = { s.fpe.src[k] with fresh := true, owed := none } ∧
        (∀ j, j ≠ k → s1.fpe.src[j] = s.fpe.src[j]))

/-- R487, R493, R500, R504, R506, R509: with the FPE bound and in service, the computation of a tick starts at its instant (one
DTIME tick after it in the model, so that what happens at the instant comes before it: DESIGN CHOICE, log 1), takes a waiting
geometry first, or waits for the one in progress; at its end the registers take its results, and it counts as late or ends a run
of late ones; LATE_MAX late ones in a row stop a running FPE; a decision made in time reaches its channel. -/
def Obligations.FpeTicks : Prop :=
  ∀ (s : State) (t : Nat), (s.at t).powered = true →
    let now := max s.dtime t
    let period := s.fpe.period
    let instant := now / period * period
    ((s.ownerOf fpeUnit).isSome = true → s.fpeFailed = false →
      (instant ≤ s.fpe.lastTick → s.fpe.runAt = none → Does (.fpeTick t) s fun s1 => s1 = s.at t) ∧
      (s.fpe.lastTick < instant → instant + 250 ≤ now → s.fpe.tick = none →
        let starts (s1 : State) : Prop := s1.quiet = { (s.at t).quiet with fpe := s1.fpe } ∧
          s1.fpe.tick.map (fun k => (k.instant, k.deadline, k.active)) = some (instant, instant + period, s.fpe.isRunning) ∧
          s1.fpe.lastTick = instant ∧ s1.fpe.geoWait = none ∧ s1.fpe.state = s.fpe.state
        (s.fpe.geoWait = none → Does (.fpeTick t) s fun s1 =>
          starts s1 ∧ s1.fpe.geo = s.fpe.geo ∧ s1.fpe.impl = s.fpe.impl) ∧
        (∀ w, s.fpe.geoWait = some w → Does (.fpeTick t) s fun s1 =>
          starts s1 ∧ s1.fpe.impl = w.impl.getD s.fpe.impl ∧ ∀ n : Fin 128,
            s1.fpe.geo[n] = if w.first ≤ n.val then w.recs.getD (n.val - w.first) s.fpe.geo[n] else s.fpe.geo[n])) ∧
      (∀ k, s.fpe.lastTick < instant → instant + 250 ≤ now → s.fpe.tick = some k → s.fpe.wait = none →
          Does (.fpeTick t) s fun s1 =>
        s1.fpe.tick = some k ∧ s1.fpe.wait = some instant ∧ s1.fpe.lastTick = s.fpe.lastTick)) ∧
    (∀ k, s.fpe.tick = some k → s.fpe.wait = none →
      let shown (s1 : State) : Prop := s1.fpe.tick = none ∧ s1.fpe.poseE = k.east ∧ s1.fpe.poseN = k.north ∧
        s1.fpe.hdg = k.heading ∧ s1.fpe.hdgI = k.heading2 ∧ s1.fpe.poseSpd = k.speed ∧ s1.fpe.jack = k.jack ∧
        s1.fpe.gamma = k.gamma ∧ s1.fpe.srcShown = k.src ∧ s1.fpe.qual = k.qual
      let late (s1 : State) : Prop := shown s1 ∧
        s1.fpe.tickLate = min 65535 (s.fpe.tickLate + 1) ∧ s1.fpe.lateRun = min 7 (s.fpe.lateRun + 1)
      (k.deadline < now → s.fpe.state ≠ .running → Does (.fpeTickDone t) s fun s1 =>
        late s1 ∧ s1.fpe.state = s.fpe.state) ∧
      (k.deadline < now → s.fpe.state = .running → s.fpe.lateRun + 1 < s.fpe.lateMax → Does (.fpeTickDone t) s fun s1 =>
        late s1 ∧ s1.fpe.state = .running) ∧
      (k.deadline < now → s.fpe.state = .running → s.fpe.lateRun + 1 = s.fpe.lateMax → Does (.fpeTickDone t) s fun s1 =>
        late s1 ∧ s1.fpe.state = .stopping ∧ s1.fpe.stopAt = now ∧ s1.fpe.stopCause = 1) ∧
      (now ≤ k.deadline → Does (.fpeTickDone t) s fun s1 => shown s1 ∧ s1.fpe.lateRun = 0 ∧
        s1.fpe.tickLate = s.fpe.tickLate ∧ s1.fpe.state = s.fpe.state) ∧
      (∀ x, now ≤ k.deadline → k.rows = [x] → k.active = true → s.fpe.state ≠ .idle → s.fpe.owed = [] →
        s.fpe.geo[x.ch].epoch = 0 → Cells.wf 0 s.chans[x.ch].nle.inp = true → Does (.fpeTickDone t) s fun s1 =>
          s1.fpe.rows[x.ch].on = x.on ∧ (∀ n, n ≠ x.ch → s1.chans[n] = s.chans[n]) ∧
          (Cells.get 0 s1.chans[x.ch].nle.inp 0x248).toNat =
            b2n x.on + 2 * b2n x.stop + 4 * b2n (decide (s.fpe.geo[x.ch].forced ≠ 0)) ∧
          (Cells.get 0 s1.chans[x.ch].nle.inp 0x24B).toNat = k.instant % 65536)) ∧
    (s.fpe.tick = none → Does (.fpeTickDone t) s fun s1 => s1 = s.at t)

/-- R493, R504, R505: FPE_GEOMETRY waits for the next tick computation; FPE_MODE leads from IDLE to RUNNING and from RUNNING to
STOPPING and is otherwise done at once; STOPPING ends in IDLE once the longest L_OFF has passed, R535: with every dirty line of a
ready raster written back. -/
def Obligations.FpeModes : Prop :=
  ∀ (s : State) (t : Nat) (q : SqRef) (f : Fetched),
    let held (op : Nat) (s1 : State) : Prop := (s1.sqAt q).held.map (fun h => (h.opcode, h.cid)) = some (op, f.desc.cid)
    let only (s1 : State) (x : FpeS) : Prop := s1.quiet = { (s.at t).quiet with fpe := x }
    (∀ bs, Next s t q 0x31 f → Passes s t q f (fpeGeometryExec (.arrived bs)) →
      Does (.fpeGeometry t q (.arrived bs)) s fun s1 => held 0x31 s1 ∧
        ∃ w, only s1 { s.fpe with geoWait := some w } ∧ w.first = f.desc.byte 24 ∧ w.recs.length = f.desc.length / 32 ∧
          (w.impl = none ↔ (f.desc.byte 25).testBit 0 = false)) ∧
    (Next s t q 0x32 f → Passes s t q f fpeModeExec →
      (f.desc.byte 24 = 1 → s.fpe.state = .idle → Does (.fpeMode t q) s fun s1 => held 0x32 s1 ∧ only s1 { s.fpe with
        state := .running, rows := s.fpe.rows.map (fun r => { tip := r.tip }), phiI := none, owed := [],
        runAt := some (max s.dtime t), raster := s1.fpe.raster } ∧ s1.fpe.raster.queue = [] ∧ s1.fpe.raster.waits = []) ∧
      (f.desc.byte 24 = 1 → s.fpe.state = .running → Does (.fpeMode t q) s fun s1 =>
        s1.quiet = (s.at t).quiet ∧ Reports s1 q f 0 0 0) ∧
      (f.desc.byte 24 ≠ 1 → s.fpe.state = .running → Does (.fpeMode t q) s fun s1 => held 0x32 s1 ∧
        only s1 { s.fpe with state := .stopping, stopAt := max s.dtime t, stopCause := 0 }) ∧
      (f.desc.byte 24 ≠ 1 → s.fpe.state ≠ .running → Does (.fpeMode t q) s fun s1 =>
        s1.quiet = (s.at t).quiet ∧ Reports s1 q f 0 0 0)) ∧
    ((s.at t).powered = true → s.fpe.state = .stopping → ∀ host fail,
      (s.fpe.stopAt + s.fpe.longestOff ≤ max s.dtime t → Does (.fpeStopDone t host fail) s fun s1 =>
        s1.fpe.state = .idle ∧ s1.fpe.runAt = none ∧
        (∀ n : Fin 128, s1.fpe.rows[n].on = false ∧ s1.fpe.rows[n].apply = false)) ∧
      (s.fpe.stopAt + s.fpe.longestOff ≤ max s.dtime t → s.fpe.raster.ready = true → s.fpe.raster.paused = none →
        fail = none → (s.ports[s.rasterPort].link == .l0) = true → Does (.fpeStopDone t host fail) s fun s1 =>
          s1.fpe.raster.dirty = []) ∧
      (max s.dtime t < s.fpe.stopAt + s.fpe.longestOff → s.dev.phase ≠ .powerFail →
        Does (.fpeStopDone t host fail) s fun s1 => s1 = s.at t))

/-- R516, R517, R543: RASTER.CTRL.ENABLE takes the raster into service when the checks pass and out of it, with everything cached
discarded and counted; a fault empties the cache and stays. R521, R526, R528, R531: what a fetch brings enters its slot; a coverage line that is already valid keeps its bits; the oldest
waiting request takes a slot that is free. -/
def Obligations.RasterServiceAndFetches : Prop :=
  (∀ (s : State) (t : Nat),
    let r := s.fpe.raster
    let lost (r1 : RasterS) : Prop := r1.slots = Vector.replicate 32 none ∧ r1.waits = [] ∧ r1.queue = [] ∧
      r1.linesLost = min 65535 (r.linesLost + r.dirty.length) ∧ r1.swathLost = min 65535 (r.swathLost + r.queue.length)
    (∀ (p : PortId) (v : Word), (s.at t).busUp p = true → s.ownerOf fpeUnit = some p → s.fpe.state = .idle →
      (r.enable = false →
        let r0 : RasterS := { r with ctrl := merge r.ctrl (v ||| 0x80000000#32) 0x070FFFFF#32 }
        (r0.configErr = 0 → Does (.rasterEnable t p v) s fun s1 => s1.fpe.raster =
          { r0 with enable := true, cfgErr := 0, late := 0, dirErr := 0, swathLost := 0, linesLost := 0, missCnt := 0,
                    wbLines := 0, slots := Vector.replicate 32 none, waits := [], queue := [] }) ∧
        (r0.configErr ≠ 0 → Does (.rasterEnable t p v) s fun s1 =>
          s1.fpe.raster = { r0 with enable := false, cfgErr := r0.configErr })) ∧
      (r.enable = true → Does (.rasterDisable t p v) s fun s1 => s1.quiet = { (s.at t).quiet with fpe := s1.fpe } ∧
        lost s1.fpe.raster ∧ s1.fpe.raster.enable = false ∧ s1.fpe.raster.paused = none ∧ s1.fpe.raster.fault = false)) ∧
    (∀ write kind ofs, (r.enable = true → r.fault = false → Does (.rasterFault t write kind ofs) s fun s1 =>
        s1.quiet = { (s.at t).quiet with fpe := s1.fpe } ∧ lost s1.fpe.raster ∧ s1.fpe.raster.fault = true ∧
        s1.fpe.raster.enable = true) ∧
      (r.fault = true → Does (.rasterFault t write kind ofs) s fun s1 => s1 = s.at t))) ∧
  (∀ (s : State) (t : Nat), (s.at t).powered = true → s.fpe.raster.ready = true →
    let r := s.fpe.raster
    let only (s1 : State) : Prop := s1.quiet = { (s.at t).quiet with fpe := { s.fpe with raster := s1.fpe.raster } }
    (∀ (col row : Nat) (i : Fin 32) (x : Tile), r.find col row = some i → r.slots[i] = some x → r.outstanding x = true →
      (∀ lo hi, x.entry = .awaited →
        (bitOf lo 0 = false → Does (.tileFetchDone t col row (.entry lo hi)) s fun s1 => only s1 ∧
          (s1.fpe.raster.slots[i]).map (·.entry) = some .missing ∧
          (s1.fpe.raster.slots[i]).map (·.fetch) = some none ∧ s1.fpe.raster.dirErr = r.dirErr) ∧
        (bitOf lo 0 = true → r.entryErr x.col x.row lo hi = none →
          Does (.tileFetchDone t col row (.entry lo hi)) s fun s1 => only s1 ∧
            (s1.fpe.raster.slots[i]).map (·.entry) = some (.present (fld lo 31 14 * 16384))) ∧
        (bitOf lo 0 = true → r.entryErr x.col x.row lo hi ≠ none →
          Does (.tileFetchDone t col row (.entry lo hi)) s fun s1 => only s1 ∧
            (s1.fpe.raster.slots[i]).map (·.entry) = some .missing ∧ s1.fpe.raster.dirErr = min 65535 (r.dirErr + 1))) ∧
      (∀ o bits, x.entry = .present o → (∀ w ∈ r.queue, ¬ (w.col = x.col ∧ w.row = x.row)) →
        (∀ k : Fin 32, Does (.tileFetchDone t col row (.line ⟨k.val, by omega⟩ bits)) s fun s1 => only s1 ∧
          ∃ y, s1.fpe.raster.slots[i] = some y ∧ y.exc = x.exc ∧ (∀ j, j ≠ k → y.cov[j] = x.cov[j]) ∧
            y.cov[k] = if x.cov[k].st = .invalid then { st := .clean, bits := bits } else x.cov[k]) ∧
        (∀ k : Fin 32, Does (.tileFetchDone t col row (.line ⟨k.val + 32, by omega⟩ bits)) s fun s1 => only s1 ∧
          ∃ y, s1.fpe.raster.slots[i] = some y ∧ y.cov = x.cov ∧ y.exc = x.exc.set k (some bits)))) ∧
    (∀ c cs, r.waits = c :: cs →
      (∀ i, r.find c.1 c.2 = some i → Does (.cacheWaitEnd t) s fun s1 =>
        only s1 ∧ s1.fpe.raster = { r with waits := cs }) ∧
      (∀ i : Fin 32, r.find c.1 c.2 = none → r.slots[i] = none → (∀ j : Fin 32, j.val < i.val → r.slots[j].isSome = true) →
        (s.ports[s.rasterPort].link == .l0) = true → Does (.cacheWaitEnd t) s fun s1 => only s1 ∧
          s1.fpe.raster.waits = cs ∧
          (s1.fpe.raster.slots[i]).map (fun x => (x.col, x.row, x.fetch)) = some (c.1, c.2, some r.fetchNo) ∧
          (∀ j, j ≠ i → s1.fpe.raster.slots[j] = r.slots[j]))))


/-- With the port of the window up and no write failing. R532 to R536, R539 to R542: a line written back leaves the host a copy and is CLEAN; RASTER_FLUSH writes every dirty line and
answers how many, RASTER_PAUSE besides stops write-back, RASTER_INVALIDATE frees the slots in its range; a pause ends at its
limit. -/
def Obligations.RasterWriteBack : Prop :=
  ∀ (s : State) (t : Nat) (q : SqRef) (f : Fetched),
    let r := s.fpe.raster
    let up : Prop := (s.ports[s.rasterPort].link == .l0) = true
    let only (s1 : State) : Prop := s1.quiet = { (s.at t).quiet with fpe := { s.fpe with raster := s1.fpe.raster } }
    let told (s1 : State) (n : Nat) : Prop := Reports s1 q f 0 0 n
    (∀ col row (k i : Fin 32) (x : Tile), (s.at t).powered = true → r.paused = none → r.fault = false → up →
      r.find col row = some i → r.slots[i] = some x → (i, k) ∈ r.dirty →
      Does (.writeBackDue t col row k) s fun s1 => only s1 ∧
        s1.fpe.raster.wbLines = (r.wbLines + 1) % 2 ^ 32 ∧
        s1.fpe.raster.slots[i] = some { x with cov := x.cov.set k { x.cov[k] with st := .clean } } ∧
        Out.rasterLine s.rasterPort (r.base + x.lineOfs k) (leBytes 256 x.cov[k].bits.toNat) ∈ s1.outbox) ∧
    (Next s t q 0x34 f → Passes s t q f (rasterFlushExec none) → up → r.wbLines < 2 ^ 32 → Does (.rasterFlush t q none) s fun s1 => only s1 ∧
      s1.fpe.raster.dirty = [] ∧ s1.fpe.raster.wbLines = (r.wbLines + r.dirty.length) % 2 ^ 32 ∧ told s1 r.dirty.length) ∧
    (Next s t q 0x33 f → Passes s t q f (rasterInvalidateExec none) → up → Does (.rasterInvalidate t q none) s fun s1 =>
      only s1 ∧ (∀ i : Fin 32, (r.slots[i].any (inRange f.desc) = true → s1.fpe.raster.slots[i] = none) ∧
        (r.slots[i].any (inRange f.desc) = false → s1.fpe.raster.slots[i] = r.slots[i])) ∧
      told s1 ((List.finRange 32).filter fun i => r.slots[i].any (inRange f.desc)).length) ∧
    (∀ host, Next s t q 0x35 f → Passes s t q f (rasterPauseExec host none) → up →
      (f.desc.byte 24 = 1 → r.paused = none → Does (.rasterPause t q host none) s fun s1 => only s1 ∧
        s1.fpe.raster.dirty = [] ∧ s1.fpe.raster.paused = some (max s.dtime t) ∧ told s1 r.dirty.length) ∧
      (f.desc.byte 24 ≠ 1 → r.paused.isSome = true → Does (.rasterPause t q host none) s fun s1 => only s1 ∧
        s1.fpe.raster.dirty = [] ∧ s1.fpe.raster.paused = none ∧ told s1 r.dirty.length) ∧
      ((f.desc.byte 24 = 1 ↔ r.paused.isSome = true) → Does (.rasterPause t q host none) s fun s1 =>
        s1.quiet = (s.at t).quiet ∧ told s1 0)) ∧
    (∀ a host, (s.at t).powered = true → r.ready = true → r.paused = some a →
      (a + min 10000 (max 10 (fld r.ctrl 15 0)) * 1000000 ≤ max s.dtime t → up → Does (.rasterPauseLimit t host none) s fun s1 =>
        only s1 ∧ s1.fpe.raster.paused = none ∧ s1.fpe.raster.dirty = []) ∧
      (max s.dtime t < a + min 10000 (max 10 (fld r.ctrl 15 0)) * 1000000 →
        Does (.rasterPauseLimit t host none) s fun s1 => s1 = s.at t))

/-! ### Chapter 14: CAN FD controllers -/

/-- R553, R555, R556, R558, R561 to R563, R573 to R575, R580: MODE is taken out of OFF or refused, and takes effect there at once;
FD_EN and LB change in OFF only; another MODE takes effect at the end of a frame; integration and recovery end. A frame that the
controller hears, in a format it takes, is counted, filtered by the objects, and written to the receive ring or lost to it; R123:
a ring whose write fails stops. A bit-rate candidate is confirmed by a frame within its dwell time and left at its end. What
counts as OFF, and which writes are writes of FD_EN and LB, are the model's choices (log 127). -/
def Obligations.CanModesAndReception : Prop :=
  ∀ (s : State) (t : Nat) (k : CanId),
    let c := s.can[k]
    let now := max s.dtime t
    let only (s1 : State) : Prop := s1.quiet = { (s.at t).quiet with can := s1.can } ∧ ∀ j, j ≠ k → s1.can[j] = s.can[j]
    let is (x : CanS) (s1 : State) : Prop := only s1 ∧ s1.can[k] = x
    let live : Prop := (s.at t).powered = true ∧ s.canFailed = false
    let entered (m : Nat) : CanCode :=
      if m = 1 then .integrating else if m = 2 then .listening else if m = 3 then .abdSearch else .off
    (∀ p v, (s.at t).busUp p = true → s.ownerOf (canUnit k) = some p →
      let off : CanS := { c with ctrl := merge c.ctrl v 0x7F78#32 }
      let m := if fld v 2 0 < 4 then fld v 2 0 else 0
      (modeOf c.ctrl = 0 → c.mode = 0 → m = 0 →
        Does (.canModeWrite t p k v) s (is { c with ctrl := merge c.ctrl v 0x7F7F#32 })) ∧
      (modeOf c.ctrl = 0 → c.mode = 0 → c.state = .off → m ≠ 0 → off.refused = false → s.canFailed = false →
        Does (.canModeWrite t p k v) s fun s1 => only s1 ∧ s1.can[k].ctrl = merge c.ctrl v 0x7F7F#32 ∧
          s1.can[k].mode = m ∧ s1.can[k].state = entered m ∧ s1.can[k].objs = c.objs ∧ s1.can[k].cfgErr = c.cfgErr) ∧
      (modeOf c.ctrl = 0 → c.mode = 0 → m ≠ 0 → off.refused = true →
        Does (.canModeWrite t p k v) s (is { off with cfgErr := true })) ∧
      ((modeOf c.ctrl ≠ 0 ∨ c.mode ≠ 0) → v &&& 0x38#32 ≠ c.ctrl &&& 0x38#32 →
        Does (.canModeWrite t p k v) s fun s1 => only s1 ∧ s1.can[k].cfgErr = true ∧
          s1.can[k].ctrl &&& 0x38#32 = c.ctrl &&& 0x38#32) ∧
      (c.ring.enabled = true → fld v 15 0 < ringSize c.ring.cfg → Does (.canRxrHeadWrite t p k v) s fun s1 => only s1 ∧
        s1.can[k].ring.head = fld v 15 0 ∧ s1.can[k].ring.tail = c.ring.tail) ∧
      (c.ring.enabled = false ∨ ringSize c.ring.cfg ≤ fld v 15 0 → Does (.canRxrHeadWrite t p k v) s (is c))) ∧
    (live →
      (modeOf c.ctrl ≠ c.mode → c.onBus = none → c.state ≠ .busOff → c.state ≠ .recovering →
        Does (.canModeApplied t k) s fun s1 => only s1 ∧
          s1.can[k].mode = modeOf c.ctrl ∧ s1.can[k].state = entered (modeOf c.ctrl)) ∧
      (c.state = .integrating → Does (.canIntegrated t k) s
        (is { c with state := if 128 ≤ c.tec ∨ 128 ≤ c.rxErr then .errorPassive else .errorActive })) ∧
      (c.state = .recovering → c.mode = 1 → Does (.canRecoveryDone t k) s
        (is { c with state := .errorActive, tec := 0, rxErr := 0 })) ∧
      (c.state = .abdSearch → c.abdFrom + max 1 (fld c.abdCfg 15 8) * 10000000 + 250 ≤ now →
        Does (.abdDwellTimeout t k) s (is { c with abdIdx := c.nextCand c.abdIdx, abdFrom := now, abdRun := 0 })) ∧
      (∀ sof (f : CanFrame), c.lb ≠ 1 → c.lb ≠ 2 → (f.fdf = true → c.fdEn = true) →
        (∀ fail, c.state = .abdSearch → c.mode = 3 → modeOf c.ctrl = 3 →
          now ≤ c.abdFrom + max 1 (fld c.abdCfg 15 8) * 10000000 → Does (.canFrameReceived t k sof f fail) s fun s1 => only s1 ∧
            s1.can[k].abdDone = true ∧ s1.can[k].abdRate = c.abdIdx ∧
            s1.can[k].mode = (if fld c.abdCfg 17 16 = 1 then 1 else 2) ∧
            s1.can[k].state = (if fld c.abdCfg 17 16 = 1 then .integrating else .listening)) ∧
        (c.onLine = true → c.onBus = none → c.past = [] →
          let counted (s1 : State) : Prop := s1.can[k].tec = c.tec ∧
            if c.rxErr ≤ 127 then s1.can[k].rxErr = c.rxErr - 1 else 119 ≤ s1.can[k].rxErr ∧ s1.can[k].rxErr ≤ 127
          (∀ fail, s.acceptor k f = none → Does (.canFrameReceived t k sof f fail) s fun s1 => only s1 ∧ counted s1 ∧
            s1.can[k].noMatch = min 65535 (c.noMatch + 1) ∧ s1.can[k].objs = c.objs ∧ s1.can[k].ring = c.ring) ∧
          (∀ i, s.acceptor k f = some i → c.objs[i].pst = false → ∀ p, s.ownerOf (canUnit k) = some p →
            (c.ring.usable = true → c.ring.hasSpace = true → Does (.canFrameReceived t k sof f none) s fun s1 =>
              only s1 ∧ counted s1 ∧ s1.can[k].objs[i].count = (c.objs[i].count + 1) % 256 ∧
              s1.can[k].ring.tail = (c.ring.tail + 1) % ringSize c.ring.cfg ∧ s1.can[k].ring.head = c.ring.head ∧
              (∃ bs, Out.canEntry p (c.ring.base + 96 * c.ring.tail) bs ∈ s1.outbox ∧ bs.take 4 =
                leBytes 4 (f.id.toNat + 2 ^ 29 * b2n f.ide + 2 ^ 30 * b2n f.rtr)) ∧ s1.can[k].lostFlag = false) ∧
            (c.ring.hasSpace = false → Does (.canFrameReceived t k sof f none) s fun s1 =>
              only s1 ∧ counted s1 ∧ s1.can[k].ring = c.ring ∧ s1.can[k].lostFlag = true ∧
              s1.can[k].rxLost = min 65535 (c.rxLost + 1) ∧
              s1.can[k].objs[i].lost = min 255 (c.objs[i].lost + 1)) ∧
            (∀ kind, c.ring.usable = true → c.ring.hasSpace = true →
              Does (.canFrameReceived t k sof f (some kind)) s fun s1 => only s1 ∧
                s1.can[k].ring.err = 5 ∧ s1.can[k].ring.usable = false ∧ s1.can[k].lostFlag = true)))))

/-- R550, R564 to R569, R571 to R573: CAN_SEND makes an object pending, CAN_ABORT takes pending objects away, CAN_RESTART begins
the recovery; the pending frame with the lowest arbitration field goes on the bus and, once sent, leaves its object; R554: unless
its transmitter delay is beyond 127 cycles, which is a bit error; an error counts, ends the attempt and may lead to error-passive
or bus-off; R575: in ABD_SEARCH it moves the search on, or after three such errors beyond BRS confirms the candidate. The pin
held dominant too long is a bit error; that it is bit 0 is the model's choice (log 127). -/
def Obligations.CanTransmission : Prop :=
  ∀ (s : State) (t : Nat) (q : SqRef) (f : Fetched) (k : CanId), k.val = f.desc.unit % 16 →
    let c := s.can[k]
    let now := max s.dtime t
    let only (s1 : State) : Prop := s1.quiet = { (s.at t).quiet with can := s1.can } ∧ ∀ j, j ≠ k → s1.can[j] = s.can[j]
    let held (op : Nat) (s1 : State) : Prop := (s1.sqAt q).held.map (fun h => (h.opcode, h.cid)) = some (op, f.desc.cid)
    (∀ bs, Next s t q 0x40 f → Passes s t q f (canSendExec q (.arrived bs)) →
      let i : Fin 128 := ⟨f.desc.num 24 2 % 128, Nat.mod_lt _ (by decide)⟩
      let h := if f.desc.length = 0 then (f.desc.param.drop 4).take 8 else bs.take 8
      let made (s1 : State) : Prop := only s1 ∧
        ∃ x, s1.can[k] = { c with objs := c.objs.set i { c.objs[i] with pend := some x } } ∧
          x.frame.id = BitVec.ofNat 29 (ofBytes (h.take 4)) ∧ x.frame.ide = (ofBytes (h.take 4)).testBit 29 ∧
          x.frame.rtr = (ofBytes (h.take 4)).testBit 30 ∧ x.frame.dlc.val = (h.getD 4 0).toNat % 16 ∧
          x.frame.fdf = (h.getD 4 0).getLsbD 4 ∧ x.frame.brs = (h.getD 4 0).getLsbD 5 ∧ x.attempts = 0 ∧ x.abort = false
      ((f.desc.byte 26).testBit 0 = true → Does (.canSend t q (.arrived bs)) s fun s1 => made s1 ∧ held 0x40 s1) ∧
      ((f.desc.byte 26).testBit 0 = false → Does (.canSend t q (.arrived bs)) s fun s1 =>
        made s1 ∧ Reports s1 q f 0 0 0)) ∧
    (Next s t q 0x41 f → Passes s t q f canAbortExec → c.onBus = none → Does (.canAbort t q) s fun s1 => only s1 ∧
      ∀ i : Fin 128, if f.desc.num 24 2 = 0xFFFF ∨ f.desc.num 24 2 = i.val then s1.can[k].objs[i].pend = none
        else s1.can[k].objs[i] = c.objs[i]) ∧
    (Next s t q 0x42 f → Passes s t q f canRestartExec → Does (.canRestart t q) s fun s1 => only s1 ∧
      s1.can[k] = { c with state := .recovering } ∧ Reports s1 q f 0 0 0) ∧
    ((s.at t).powered = true → s.canFailed = false →
      (∀ sof, c.onLine = true → c.mode = 1 → c.onBus = none → c.pendings ≠ [] → Does (.canTxAttempt t k sof) s fun s1 =>
        only s1 ∧ ∃ (i : Fin 128) (x : CanTx), c.objs[i].pend = some x ∧ (∀ (j : Fin 128) (y : CanTx), c.objs[j].pend = some y → frameRank x.frame ≤ frameRank y.frame) ∧
          s1.can[k] = { c with onBus := some i, objs := c.objs.set i { c.objs[i] with
                          pend := some { x with attempts := x.attempts + 1, sof := sof } } }) ∧
      (∀ sof, (c.onLine = false ∨ c.onBus.isSome = true ∨ c.pendings = []) →
        Does (.canTxAttempt t k sof) s fun s1 => s1 = s.at t) ∧
      (∀ (i : Fin 128) (x : CanTx) tdc fail, c.onBus = some i → c.objs[i].pend = some x →
        (c.delayBad x.frame tdc = false → fld c.ctrl 5 4 = 0 → bitOf c.objs[i].cfg 9 = false → c.leaving = false →
          Does (.canTxDone t k tdc fail) s fun s1 => only s1 ∧ s1.can[k].onBus = none ∧ s1.can[k].objs[i].pend = none ∧
            s1.can[k].objs[i].count = (if c.objs[i].dir = 2 then (c.objs[i].count + 1) % 256 else c.objs[i].count) ∧
            s1.can[k].tec = c.tec - 1 ∧ s1.can[k].ackRun = 0 ∧ s1.can[k].lonely = false ∧
            (∀ j, j ≠ i → s1.can[k].objs[j].pend = c.objs[j].pend)) ∧
        (c.delayBad x.frame tdc = true → c.onLine = true → Does (.canTxDone t k tdc fail) s fun s1 => only s1 ∧
          s1.can[k].onBus = none ∧ s1.can[k].tec = c.tec + 8 ∧ s1.can[k].errors = min 65535 (c.errors + 1) ∧
          (s1.can[k].lastErr = 4 ∨ s1.can[k].lastErr = 5))) ∧
      (∀ e : CanErr, (fld c.ctrl 5 4 = 0 ∨ e.sender = false ∨ e.kind ≠ 3) →
        let noted (s1 : State) : Prop := only s1 ∧ s1.can[k].errors = min 65535 (c.errors + 1) ∧ s1.can[k].lastErr = e.kind % 8
        let first := if e.exempt = true ∧ (e.sender = false ∨ (e.kind = 3 ∧ c.state = .errorPassive) ∨ e.kind = 1) then 0 else 1
        let dwells : Prop := now ≤ c.abdFrom + max 1 (fld c.abdCfg 15 8) * 10000000
        (c.onLine = true → Does (.canError t k e) s fun s1 => noted s1 ∧ s1.can[k].onBus = none ∧
          s1.can[k].tec = (if e.sender then c.tec + 8 * first + 8 * e.extra else c.tec) ∧
          s1.can[k].rxErr = (if e.sender then c.rxErr else min 255 (c.rxErr + first + 8 * e.extra)) ∧
          s1.can[k].state = (if 255 < s1.can[k].tec then .busOff
            else if 128 ≤ s1.can[k].tec ∨ 128 ≤ s1.can[k].rxErr then .errorPassive else .errorActive)) ∧
        ((c.state = .off ∨ c.state = .integrating ∨ c.state = .busOff ∨ c.state = .recovering) →
          Does (.canError t k e) s fun s1 => only s1 ∧ s1.can[k] = { c with past := [] }) ∧
        (c.state = .listening → Does (.canError t k e) s fun s1 =>
          noted s1 ∧ s1.can[k].tec = c.tec ∧ s1.can[k].rxErr = c.rxErr ∧ s1.can[k].state = .listening) ∧
        (c.state = .abdSearch → c.mode = 3 → dwells → e.data = false → Does (.canError t k e) s fun s1 => noted s1 ∧
          s1.can[k].abdIdx = c.nextCand c.abdIdx ∧ s1.can[k].abdFrom = now ∧ s1.can[k].state = .abdSearch) ∧
        (c.state = .abdSearch → c.mode = 3 → dwells → e.data = true → c.abdRun < 2 → Does (.canError t k e) s fun s1 =>
          noted s1 ∧ s1.can[k].abdRun = c.abdRun + 1 ∧ s1.can[k].abdIdx = c.abdIdx ∧ s1.can[k].state = .abdSearch) ∧
        (c.state = .abdSearch → c.mode = 3 → dwells → e.data = true → 2 ≤ c.abdRun → Does (.canError t k e) s fun s1 =>
          noted s1 ∧ s1.can[k].abdDone = true ∧ s1.can[k].abdRate = c.abdIdx ∧ s1.can[k].state ≠ .abdSearch)) ∧
      (c.onLine = true → c.mode = 1 → c.lb ≠ 1 →
        let noted (s1 : State) : Prop := only s1 ∧ s1.can[k].errors = min 65535 (c.errors + 1) ∧ s1.can[k].lastErr = 5 ∧
          s1.can[k].onBus = none
        (c.onBus.isSome = true → Does (.dominantLimit t k) s fun s1 =>
          noted s1 ∧ s1.can[k].tec = c.tec + 8 ∧ s1.can[k].rxErr = c.rxErr) ∧
        (c.onBus = none → Does (.dominantLimit t k) s fun s1 =>
          noted s1 ∧ s1.can[k].rxErr = min 255 (c.rxErr + 1) ∧ s1.can[k].tec = c.tec)))

/-! ### Chapters 15, 16: safety executive, safety inputs and outputs, safe transfer, operator ports -/

/-- R591 to R593, R601, R602, R604, R606 to R610: a cycle starts on its multiple of the cycle time and latches its inputs; outside
split mode, with no debugger attached, B's END by the deadline releases the cycle's outputs when the counts agree; a fault of any
class abandons the cycle, locks out, turns every output off and requests safe-torque-off of every channel; the restart test leads
on or to HALTED. -/
def Obligations.SafetyCycle : Prop :=
  ∀ (s : State) (t : Nat), (s.at t).powered = true →
    let e := s.se
    let now := max s.dtime t
    let faulted (cls cause : Nat) (u : SeRun) (s1 : State) : Prop :=
      s1.se.run = none ∧ s1.se.lockout = true ∧ s1.se.fClass = cls ∧ s1.se.fCause = cause ∧ s1.se.fInst = u.second ∧
      s1.se.faults = min 65535 (e.faults + 1) ∧ (s1.se.state = .restart ∨ s1.se.state = .halted) ∧
      s1.se.released = e.released ∧ (∀ q : Fin 8, s1.io.so[q].on = false) ∧
      (∀ n : ChanId, s1.chans[n].core.stoActive = true)
    (∀ x, (s.at t).seStarts = false → Does (.seCycleStart t x) s fun s1 => s1 = s.at t) ∧
    (∀ x, (s.at t).seStarts = true → x.fault = none → Does (.seCycleStart t x) s fun s1 =>
      (∃ u, s1.se.run = some u ∧ u.second = false ∧ u.start = now ∧ u.countA = 0 ∧ u.countB = 0 ∧ u.a.outs = []) ∧
      s1.se.cycle = e.cycle + 1 ∧ s1.se.first = false ∧ s1.se.firstNow = (e.first || e.state == .restart) ∧
      s1.se.state = (if e.attached then .debug else if s.dev.seSplit then .split else .run) ∧
      s1.se.regsA = e.regsA.goTo (e.img.entry % 16384) ∧ s1.se.regsB = e.regsB ∧ s1.se.psm = e.psm ∧
      s1.se.released = e.released ∧ (∀ p : Fin 24, s1.se.latchSi[p] = s.io.si[p].word) ∧
      (∀ k : Fin 16, s1.se.latchPst[k] = s.io.pst[k].latch ∧ s1.io.pst[k] = s.io.pst[k].latched) ∧
      (∀ n : ChanId, s1.chans[n].adc.seN = 0)) ∧
    (∀ u, e.run = some u → e.state ≠ .debug →
      (e.deadline u.start + 250 ≤ now → s.dev.seSplit = false → Does (.lateCycle t) s (faulted 3 18 u)) ∧
      (now < e.deadline u.start + 250 → Does (.lateCycle t) s fun s1 => s1 = s.at t)) ∧
    (∀ u, RunsA s t u → ∀ row ∈ engineRows, row.1 = opOf (Cells.get 0 e.store e.regsA.pc) →
      Does (row.2 t .se { noFault with parity := true }) s (faulted 3 17 u) ∧
      (∀ c, 8 ≤ c → c ≤ 11 → Does (row.2 t .se { noFault with compare := some c }) s (faulted 2 c u)) ∧
      ((s.seEng u).plan e.regsA (Cells.get 0 e.store e.regsA.pc) = none → Does (row.2 t .se noFault) s (faulted 3 16 u))) ∧
    (∀ u, e.run = some u → u.second = true → u.overAt = none → s.dev.seSplit = false → e.attached = false →
      e.state ≠ .debug → e.firstNow = false →
      Cells.get 0 e.store e.regsB.pc = engWord 0x02 0 0 0 → now ≤ e.deadline u.start →
      (u.countA = u.countB + 1 → u.a.issued = u.b.issued → u.left = [] → Does (.endRun t .se noFault) s fun s1 =>
        s1.se.run = none ∧ s1.se.yStop = false ∧ s1.se.state = e.state ∧ s1.se.lockout = e.lockout ∧
        s1.se.released = u.a.words.foldl (fun m w => Cells.set 0 m w.1 w.2) e.released ∧
        s1.se.lastSlack = (e.deadline u.start : Int) - now) ∧
      ((u.countA ≠ u.countB + 1 ∨ u.a.issued ≠ u.b.issued ∨ u.left ≠ []) → Does (.endRun t .se noFault) s (faulted 1 4 u))) ∧
    (e.state = .restart → Does (.restartTest t true) s (fun s1 =>
        s1.quiet = { (s.at t).quiet with se := { e with tested := true } }) ∧
      Does (.restartTest t false) s fun s1 => s1.se.state = .halted ∧ s1.io.requests = []) ∧
    (e.state ≠ .restart → ∀ pass, Does (.restartTest t pass) s fun s1 => s1 = s.at t)

/-- R615 to R617: a debugger attaches only where the image permits it and not in HALTED, and applies the reaction of a fault; it
halts, steps and resumes the run, stops it at a breakpoint, and writes registers and data words, which are logged for B. -/
def Obligations.SafetyDebug : Prop :=
  ∀ (s : State) (t : Nat), (s.at t).powered = true →
    let e := s.se
    let is (x : SeS) (s1 : State) : Prop := s1.quiet = { (s.at t).quiet with se := x }
    (e.img.debugEn = true → e.attached = false → e.state ≠ .halted → s.dev.seSplit = false → Does (.seDebug t) s fun s1 =>
      s1.se.attached = true ∧ s1.se.state = .debug ∧ s1.se.run = none ∧ s1.se.lockout = true ∧ s1.se.faults = e.faults ∧
      s1.jtag.ir = .seDebug ∧ (∀ n : ChanId, s1.chans[n].core.stoActive = true)) ∧
    (e.img.debugEn = false → Does (.seDebug t) s fun s1 =>
      s1 = { s.at t with jtag := { s.jtag with ir := .bypass } }) ∧
    (e.attached = false →
      Does (.debugDetach t) s (fun s1 => s1 = s.at t) ∧ Does (.debugHalt t) s (fun s1 => s1 = s.at t) ∧
      Does (.debugResume t) s (fun s1 => s1 = s.at t) ∧ Does (.breakpointHit t) s (fun s1 => s1 = s.at t) ∧
      (∀ f, Does (.debugStep t f) s fun s1 => s1 = s.at t) ∧ (∀ x v, Does (.debuggerWrite t x v) s fun s1 => s1 = s.at t)) ∧
    (e.attached = true →
      Does (.debugDetach t) s (is { e with attached := false, dbgHalt := false, breaks := Vector.replicate 8 none }) ∧
      Does (.debugHalt t) s (is { e with dbgHalt := true }) ∧
      (e.dbgHalt = true → Does (.debugResume t) s (is { e with dbgHalt := false, dbgPass := true })) ∧
      (∀ i v, Does (.debuggerWrite t (.breakpoint i) v) s
        (is { e with breaks := e.breaks.set i (if v < 16384 then some v else none) })) ∧
      (∀ u, e.run = some u → u.second = false → s.dev.seSplit = false →
        (∀ i : Fin 8, e.breaks[i] = some e.regsA.pc → e.dbgPass = false →
          Does (.breakpointHit t) s (is { e with dbgHalt := true }) ∧
          ∀ row ∈ engineRows, ∀ f, Does (row.2 t .se f) s fun s1 => s1 = s.at t) ∧
        (e.dbgHalt = true → ∀ row ∈ engineRows, ∀ f, Does (row.2 t .se f) s fun s1 => s1 = s.at t) ∧
        (∀ p, e.dbgHalt = true → u.a.outs.length ≤ 1024 →
          (s.seEng u).plan e.regsA (Cells.get 0 e.store e.regsA.pc) = some p → p.act = .none → (∀ w ∈ p.writes, w.1 < 0x1000) →
          Does (.debugStep t noFault) s (is { e with
            regsA := p.regs, psm := p.writes.foldl (fun m w => Cells.set 0 m w.1 w.2) e.psm, dbgPass := false,
            run := some { u with countA := u.countA + 1 } })) ∧
        (∀ (r : Fin 32) v, e.dbgCount < 256 → Does (.debuggerWrite t (.d r) v) s
          (is { e with
            regsA := e.regsA.putD r (BitVec.ofNat 16 v), dbgCount := e.dbgCount + 1
            dbgLog := e.dbgLog ++ [{ count := u.countA, target := .d r, value := v }] })) ∧
        (∀ (a : Fin 2048) v, e.dbgCount < 256 → Does (.debuggerWrite t (.psm a) v) s
          (is { e with
            psm := Cells.set 0 e.psm a.val (BitVec.ofNat 16 v), dbgCount := e.dbgCount + 1
            dbgLog := e.dbgLog ++ [{ count := u.countA, target := .psm a, value := v }] })) ∧
        (∀ (r : Fin 32) v, 256 ≤ e.dbgCount → Does (.debuggerWrite t (.d r) v) s (is { e with dbgFull := true }))))

/-- R627, R629 to R633, R637, R638, R643, R647, R649 to R653: a level of a safety input pair that has been sampled for its filter
time, and the discrepancy it makes or ends; the readbacks and off-pulses of the output pairs; a slot's watchdog, and a frame sent
to a slot in OK; the operator ports: a key is pressed or released after 20 samples, 1 ms apart, and a count or a drive pulse is
taken when it is due. The phase of the samples is free (log 128). -/
def Obligations.SafetyPorts : Prop :=
  ∀ (s : State) (t : Nat), (s.at t).powered = true →
    let now := max s.dtime t
    let io (x : SafeIoS) (s1 : State) : Prop := s1.quiet = { (s.at t).quiet with io := x }
    let si (p : Fin 24) (x : SiS) : State → Prop := io { s.io with si := s.io.si.set p x }
    let so (q : Fin 8) (x : SoS) : State → Prop := io { s.io with so := s.io.so.set q x }
    let key (k : Fin 6) (x : KeyS) : State → Prop := io { s.io with keys := s.io.keys.set k x }
    let same (s1 : State) : Prop := s1 = s.at t
    (∀ (p : Fin 24) (v : Bool), let x := s.io.si[p]
      (∀ first, x.mode ≠ 0 → x.seenA = true → x.seenB = true → x.a ≠ v → (s.at t).siFiltered p first = true →
        -- the levels now make the unsafe combination, the safe one, or neither
        let wantB := if x.mode = 3 then v else !v
        let entered (s1 : State) : Prop :=
          s1.quiet = { (s.at t).quiet with io := s1.io } ∧ s1.io.si[p].a = v ∧ s1.io.si[p].b = x.b
        (v = false → Does (.siLevelQualified ⟨t, first⟩ p false v) s fun s1 => entered s1 ∧ s1.io.si[p].safe = false) ∧
        (x.b = wantB → x.disc = none → Does (.siLevelQualified ⟨t, first⟩ p false v) s fun s1 =>
          entered s1 ∧ s1.io.si[p].disc = some (now + x.discT) ∧ s1.io.si[p].safe = false) ∧
        (x.b ≠ wantB → v = true → x.discFault = false → x.testFault = false → x.startup = false → x.disc = none → x.inTime = true →
          Does (.siLevelQualified ⟨t, first⟩ p false v) s fun s1 => entered s1 ∧ s1.io.si[p].safe = true)) ∧
      (∀ d, x.disc = some d →
        (d + 250 ≤ now → Does (.discTimeout t p) s
          (si p { x with disc := none, discFault := true, sawUnsafe := false, inTime := false })) ∧
        (now < d + 250 → Does (.discTimeout t p) s same))) ∧
    (∀ q : Fin 8, let x := s.io.so[q]
      (∀ ra rb, x.en = true → x.fault = false → s.dev.seSplit = false → x.since + x.rbT ≤ now → x.pulse = none → x.pulsed = none →
        (ra = x.on → rb = x.on → Does (.outputFault t q ra rb) s (so q { x with ra := ra, rb := rb })) ∧
        (ra ≠ x.on → Does (.outputFault t q ra rb) s fun s1 => s1.io.so[q].fault = true ∧ s1.io.so[q].cause = 1 ∧
          s1.io.so[q].on = false) ∧
        (ra = x.on → rb ≠ x.on → Does (.outputFault t q ra rb) s fun s1 => s1.io.so[q].fault = true ∧
          s1.io.so[q].cause = 2 ∧ s1.io.so[q].on = false)) ∧
      (∀ low, x.on = true → x.cfg.getLsbD 1 = true → x.pulse = none → x.opPer ≤ now - x.since - (if low then x.opPer / 2 else 0) →
        (now - x.since - (if low then x.opPer / 2 else 0)) % x.opPer = 0 →
        Does (.offPulse t q low) s (so q { x with pulse := some (low, now) })) ∧
      (∀ low a, x.pulse = some (low, a) → a + x.opW ≤ now →
        Does (.offPulseEnd t q false) s (so q { x with
          pulse := none, pulsed := some (low, now), ra := (low && x.ra), rb := (!low && x.rb) }) ∧
        Does (.offPulseEnd t q true) s fun s1 => s1.io.so[q].fault = true ∧ s1.io.so[q].cause = (if low then 4 else 3) ∧
          s1.io.so[q].pulse = none ∧ s1.io.so[q].on = false)) ∧
    (∀ (k : Fin 16) d, s.io.pst[k].deadline = some d → let p := s.io.pst[k]
      (d + 250 ≤ now → p.state = .ok → p.late = [] → Does (.pstWatchdogTimeout t k) s (io { s.io with pst := s.io.pst.set k { p with
        state := .resync, count := 0, deadline := none, resetFrom := none, timeout := true } })) ∧
      (now < d + 250 → Does (.pstWatchdogTimeout t k) s same)) ∧
    (∀ (q : SqRef) (f : Fetched) (bs : List Byte) (k : Fin 16), Next s t q 0x50 f → k.val = f.desc.byte 24 →
      Passes s t q f (pstSendExec f.stamp (.arrived bs)) → s.io.pst[k].state = .ok → s.io.pst[k].late = [] →
      (∀ d, s.io.pst[k].deadline = some d → f.stamp ≤ d) → s.io.pst[k].rstEn = false →
      let p := s.io.pst[k]
      let fr := bs.take f.desc.length
      (p.outcome fr f.stamp = 0 → Does (.pstSend t q (.arrived bs)) s fun s1 => s1.io.pst[k].state = .ok ∧
        s1.io.pst[k].seq = ofBytes ((fr.drop 2).take 2) ∧ s1.io.pst[k].payload = (fr.drop 8).take p.plen ∧
        s1.io.pst[k].new = true ∧ s1.io.pst[k].accepted = (p.accepted + 1) % 65536 ∧
        s1.io.pst[k].deadline = some (f.stamp + max 1 p.cfg[2].toNat * 1000000) ∧
        (∀ j, j ≠ k → s1.io.pst[j] = s.io.pst[j]) ∧ Reports s1 q f 0 0 0) ∧
      (p.outcome fr f.stamp = 5 ∨ p.outcome fr f.stamp = 6 → Does (.pstSend t q (.arrived bs)) s fun s1 =>
        s1.io.pst[k].state = .resync ∧ s1.io.pst[k].seq = p.seq ∧ s1.io.pst[k].payload = p.payload ∧
        Reports s1 q f 0 0 (p.outcome fr f.stamp)) ∧
      (1 ≤ p.outcome fr f.stamp → p.outcome fr f.stamp ≤ 4 → Does (.pstSend t q (.arrived bs)) s fun s1 =>
        s1.io.pst[k] = { p with disc := true, discarded := min 65535 (p.discarded + 1) } ∧
        Reports s1 q f 0 0 (p.outcome fr f.stamp))) ∧
    (∀ (k : Fin 6) (first : Nat), let x := s.io.keys[k]
      (x.type = 1 → now = first + 19000000 → x.press = none → x.fault = false →
        Does (.keyPress ⟨t, first⟩ k) s (key k { x with press := some now, held := false, run := 0 })) ∧
      (∀ a, x.press = some a →
        (x.type = 1 → now = first + 19000000 → x.isReset = false → Does (.keyRelease ⟨t, first⟩ k) s
          (key k { x with press := none, held := false, run := 0, moved := now })) ∧
        (x.held = false → a + max 1 (hfld x.cfg 15 8) * 100000000 ≤ now →
          Does (.keyHold t k) s (key k { x with held := true })) ∧
        (x.type = 1 → now = first + 19000000 → x.isReset = true → x.fault = false → s.se.state = .run →
          100000000 ≤ now - a → now - a ≤ 5000000000 → Does (.keyRelease ⟨t, first⟩ k) s fun s1 => s1.io.requests = s.io.requests ++
            [{ source := k.val, stamp := now, ms := (now - a) / 1000000 }])) ∧
      (x.type = 1 → x.due ≤ now → x.fault = false → Does (.keyDrivePulse t k false) s
        (key k { x with due := now + 10000000, fault := true, press := none, held := false, run := 0 })) ∧
      (x.type = 1 → x.due ≤ now → Does (.keyDrivePulse t k true) s
        (key k { x with due := now + 10000000, fault := false })) ∧
      (∀ count b, x.type = 2 → x.due ≤ now → 0 < count → count < Config.touchFull → x.base = some b → x.press = none → x.fault = false →
        800 * count < b * (100 - 2 * max 1 (hfld x.cfg 7 4)) →
        (1 ≤ x.run → Does (.touchMeasurement t k count) s fun s1 => s1.io.keys[k].press = some now) ∧
        (x.run = 0 → Does (.touchMeasurement t k count) s fun s1 => s1.io.keys[k].press = none ∧ s1.io.keys[k].run = 1)))

/-! ### Chapter 17: the recorder and the storage ports -/

/-- R657, R660 to R662, R664 to R666, R668, R671 to R673: a record goes to the slot at NEXT; a write or an erase that fails
takes the medium out of use and loses the queue; SUPPRESSED and GAP; REC_READ copies slots; REC_MARK queues a record. R676, R677,
R735: commands on the S1 medium through S1_CMD and S1_BUF by the administrator port, refused in the bank in use and where
misaligned, and the storage loop-back. -/
def Obligations.RecorderAndStorage : Prop :=
  (∀ (s : State) (t : Nat), s.supplied = true →
    let r := s.recorder
    let now := max s.dtime t
    (∀ x rest ok, r.queue = x :: rest → r.ready = true → x.owes = false → (r.extended = true → ok = true) →
      Does (.recordWrite t ok) s fun s1 =>
        s1.recorder.slotBytes r.next = x.bytes r.lap ∧
        (∀ k, k ≠ r.next → s1.recorder.slotBytes k = r.slotBytes k) ∧
        s1.recorder.next = (if r.next + 1 < r.capacity then r.next + 1 else 0) ∧
        s1.recorder.lap = (if r.next + 1 < r.capacity then r.lap else 3 - r.lap) ∧
        s1.recorder.written = (r.written + 1) % 4294967296 ∧ s1.recorder.queue = rest ∧ s1.recorder.lost = r.lost) ∧
    (∀ x rest, r.queue = x :: rest → r.ready = true → x.owes = true → r.draining = false → r.closed = false →
      r.globalLevel now < 1000000000 → ∀ ok, Does (.recordWrite t ok) s fun s1 => s1 = s.at t) ∧
    (r.queue = [] ∨ r.ready = false → ∀ ok, Does (.recordWrite t ok) s fun s1 => s1 = s.at t) ∧
    (∀ x rest, r.queue = x :: rest → r.ready = true → x.owes = false → r.extended = true →
      Does (.recordWrite t false) s fun s1 => s1.recorder.mediaErr = 4 ∧ s1.recorder.ready = false ∧
        s1.recorder.queue = [] ∧ s1.recorder.next = r.next ∧ s1.recorder.slots = r.slots) ∧
    (∀ b rest, r.erasing = b :: rest →
      Does (.blockEraseDone t true) s (fun s1 => s1.recorder = { r with erasing := rest, s0 := s1.recorder.s0 } ∧
        (∀ k, k / 128 = b → slotGet s1.recorder.s0 k = none) ∧
        (∀ k, k / 128 ≠ b → slotGet s1.recorder.s0 k = slotGet r.s0 k)) ∧
      Does (.blockEraseDone t false) s fun s1 => s1.recorder.mediaErr = 4 ∧ s1.recorder.ready = false ∧
        s1.recorder.s0 = r.s0) ∧
    (now % 1000000000 ≠ 0 → Does (.suppressed t) s fun s1 => s1 = s.at t) ∧
    (∀ x, now % 1000000000 = 0 → r.supprAt ≠ some (now / 1000000000) → r.supprs = [x] → r.queue.length < 255 →
      r.closed = false → r.mediaErr ≠ 4 → r.lostSince = 0 → Does (.suppressed t) s fun s1 =>
        s1.recorder.supprs = [] ∧ ∃ y, s1.recorder.queue = r.queue ++ [y] ∧ y.code = 0x0040 ∧ y.unit = 0x0400 ∧
          y.data = [u16 16 x.code, u16 18 x.unit, u32 20 x.count, u32 24 x.first]) ∧
    (r.lostSince ≠ 0 → r.queue.length < 256 → r.mediaErr ≠ 4 → r.closed = false → Does (.gap t) s fun s1 =>
      s1.recorder.lostSince = 0 ∧ ∃ y, s1.recorder.queue = r.queue ++ [y] ∧ y.code = 0x0042 ∧
        y.data = [u32 20 r.lostSince])) ∧
  (∀ (s : State) (t : Nat) (q : SqRef) (f : Fetched), Next s t q 0x60 f → Passes s t q f (recReadExec true) →
    let r := s.recorder
    let slots := (List.range (f.desc.length / 32)).map fun k => r.slotBytes ((f.desc.num 24 4 + k) % r.capacity)
    Does (.recRead t q true) s fun s1 => s1.recorder = r ∧ Out.buffer q.port f.desc.bufAddr slots.flatten ∈ s1.outbox ∧
      ∃ x, Reports s1 q f 0 0 x ∧ x % 65536 = (slots.filter slotValid).length) ∧
  (∀ (s : State) (t : Nat) (q : SqRef) (f : Fetched) (bs : List Byte), Next s t q 0x61 f →
    Passes s t q f (recMarkExec q (.arrived bs)) →
    let r := s.recorder
    let n := f.desc.length
    let m := if n = 0 then f.desc.param.take 16 else bs.take n ++ List.replicate (16 - n) 0
    (r.ready = true → r.closed = false → r.mediaErr ≠ 4 → r.lostSince = 0 → Does (.recMark t q (.arrived bs)) s fun s1 =>
      (∃ h, (s1.sqAt q).held = some h ∧ h.opcode = 0x61 ∧ h.cid = f.desc.cid) ∧
      ∃ y, s1.recorder.queue = r.queue ++ [y] ∧ y.code = 0x0041 ∧ y.unit = ofBytes (m.take 2) ∧
        y.epoch = ofBytes ((m.drop 2).take 2) ∧ y.port = q.port.val ∧ y.mark = some q) ∧
    (r.ready = false → Does (.recMark t q (.arrived bs)) s fun s1 => Reports s1 q f stBadState 0x0412 0) ∧
    (n ≠ 0 → Does (.recMark t q .failed) s fun s1 => s1.recorder = r ∧ Reports s1 q f stDma 1 0)) ∧
  (∀ (s : State) (t : Nat) (p : PortId) (v : Word),
    let m := s.stor
    let row (i : Instr) (op : Nat) : Prop := (s.at t).busUp p = true →
      (s.admin ≠ p → Does i s fun s1 => s1.stor = m) ∧
      (s.admin = p →
        (m.busy = true → Does i s fun s1 => s1.stor = m) ∧
        (m.busy = false →
          let a := fld v 28 0 % m.density
          let unit := if op = 3 then 4096 else 256
          let free : Prop := m.bankUsed = false ∨ decide (m.density / 2 ≤ a) ≠ m.bankB
          let holds (s1 : State) : Prop := fld s1.stor.s1Cmd 31 30 = op ∧ fld s1.stor.s1Cmd 28 0 = fld v 28 0
          (free → a % unit = 0 → Does i s fun s1 => holds s1 ∧
            s1.stor = { m with s1Cmd := s1.stor.s1Cmd, s1Busy := true, s1Err := 0 }) ∧
          (free → a % unit ≠ 0 → Does i s fun s1 => holds s1 ∧ s1.stor = { m with s1Cmd := s1.stor.s1Cmd, s1Err := 2 }) ∧
          (¬ free → Does i s fun s1 => s1.stor = { m with s1Cmd := s1.stor.s1Cmd, s1Err := 1 })))
    row (.s1Read t p v) 1 ∧ row (.s1Program t p v) 2 ∧ row (.s1Erase t p v) 3 ∧
    ((s.at t).powered = true → m.s1Busy = true →
      let a := fld m.s1Cmd 28 0 % m.density
      let byte (x : StorS) (k : Nat) : Byte := Cells.get 0xFF#8 x.s1 k
      Does (.s1CommandDone t false) s (fun s1 => s1.stor = { m with s1Busy := false, s1Err := 3 }) ∧
      (fld m.s1Cmd 31 30 = 1 → Does (.s1CommandDone t true) s fun s1 =>
        s1.stor = { m with s1Busy := false, s1Buf := s1.stor.s1Buf } ∧
        ∀ i : Fin 256, s1.stor.s1Buf[i] = byte m (a + i)) ∧
      (Cells.wf 0xFF#8 m.s1 = true → fld m.s1Cmd 31 30 = 2 → Does (.s1CommandDone t true) s fun s1 =>
        s1.stor = { m with s1Busy := false, s1 := s1.stor.s1 } ∧ (∀ i : Fin 256, byte s1.stor (a + i) = m.s1Buf[i]) ∧
        ∀ k, k < a ∨ a + 256 ≤ k → byte s1.stor k = byte m k) ∧
      (Cells.wf 0xFF#8 m.s1 = true → fld m.s1Cmd 31 30 = 3 → Does (.s1CommandDone t true) s fun s1 =>
        s1.stor = { m with s1Busy := false, s1 := s1.stor.s1 } ∧
        (∀ k, k / 4096 = a / 4096 → byte s1.stor k = 0xFF#8) ∧ ∀ k, k / 4096 ≠ a / 4096 → byte s1.stor k = byte m k)) ∧
    ((s.at t).busUp p = true → s.admin = p → m.lbBusy = false →
      let refused := if bitOf v 8 then m.s1Busy else s.dev.variantAc || (s.recorder.extended && s.recorder.ready)
      let holds (s1 : State) : Prop := bitOf s1.stor.lbCfg 8 = bitOf v 8 ∧ fld s1.stor.lbCfg 5 4 = fld v 5 4
      (refused = true → Does (.storLbStart t p v) s fun s1 => holds s1 ∧
        s1.stor = { m with lbCfg := s1.stor.lbCfg, lbResult := 3 }) ∧
      (refused = false → Does (.storLbStart t p v) s fun s1 => holds s1 ∧
        s1.stor = { m with lbCfg := s1.stor.lbCfg, lbBusy := true, lbPort := bitOf v 8, lbResult := 0 })) ∧
    ((s.at t).busUp p = true → m.lbBusy = true →
      Does (.storLbStart t p v) s fun s1 => s1.stor = { m with lbCfg := s1.stor.lbCfg }) ∧
    ((s.at t).powered = true → m.lbBusy = true → ∀ pass, Does (.storLbDone t pass) s fun s1 =>
      s1.stor = { m with lbBusy := false, lbResult := if pass then 1 else 2 }))

/-! ### Chapters 18 and 19: housekeeping, supply, start and shut-down -/

/-- R679 to R688, R690 to R692, R695, R718, R719: what a housekeeping round of 64 inputs reads and does, with the log's choice
(129) that its results are entered at once, when a die comparator stands inactive at the end of basking included; a die thermal
shutdown reaches every channel but those that R683 leaves alone; the supply controller, the power-fail warning once its level
has been low for its time, and a rail reset. With the main supply off every unit is at its reset state (R717, R720). -/
def Obligations.HousekeepingAndSupply : Prop :=
  ∀ (s : State) (t : Nat),
    let now := max s.dtime t
    let same (s1 : State) : Prop := s1 = s.at t
    let shutdown (s1 : State) : Prop := s1.hk.shut = true ∧ s1.hk.basking = true ∧ s1.hk.shutAt = now ∧
      s1.aon.basking = true ∧ s1.aon.shutCnt = min 65535 (s.aon.shutCnt + 1) ∧
      ∀ n : ChanId, ∃ r : ChR, s1.chans[n] = r.settle.settle.c ∧
        (if s.chans[n].core.code = .safe ∨ s.chans[n].core.code = .locked ∨ s.chans[n].core.code = .unplugged then
          r.c = { s.chans[n] with adc := r.c.adc } else r.c.core.code = .tripped ∧ r.c.core.cause = 0x60)
    let off (aon : AonS) (sup : SupS) (due : Option Nat) (s1 : State) : Prop :=
      s1.aon = aon ∧ s1.sup = sup ∧ s1.dev = { s.dev with phase := .off, testing := false, due := due } ∧
      s1.dtime = now ∧ s1.time = s.time ∧ s1.pending = s.pending ∧ s1.stor.s1 = s.stor.s1 ∧
      s1.recorder.store = s.recorder.store ∧ s1.recorder.s0 = s.recorder.s0 ∧ s1.chans = State.reset.chans ∧
      s1.ports = State.reset.ports ∧ s1.units = State.reset.units ∧ s1.can = State.reset.can ∧ s1.fpe = State.reset.fpe ∧
      s1.se = State.reset.se ∧ s1.io = State.reset.io ∧ s1.hk = State.reset.hk
    ((s.at t).powered = true → now % 10000000 ≠ 0 → ∀ x, Does (.hkRound t x) s same) ∧
    ((s.at t).powered = true → now % 10000000 = 0 → s.dev.testing = false → ∀ x, x.samples.length = 64 →
      let code (i : Nat) : Nat := ((x.samples[i]?).map (·.1)).getD 0
      let val (i : Nat) : Int := ((x.samples[i]?).map (·.2)).getD 0
      let out (i : Fin 16) : Bool := decide (val i < -550 ∨ 1750 < val i)
      let die (i : Fin 16) : Int := if out i then 1750 else val i
      let warnAt : Int := 10 * min (max (fld s.hk.ctrl 7 0) 80) 134
      let cool := s.hk.shutAt + max 10 (fld s.hk.ctrl 23 16) * 1000000000
      let measured (s1 : State) : Prop :=
        (∀ i : Fin 64, s1.hk.inp[i] = { value := if i.val < 38 then val i else 0, code := code i % 4096 }) ∧
        (∀ i : Fin 16, s1.hk.broken.getLsbD i = out i ∧ s1.hk.die i = die i) ∧
        (∃ i : Fin 16, s1.hk.hot = i.val ∧ ∀ j : Fin 16, die j ≤ die i ∧ (j < i → die j < die i)) ∧
        s1.hk.warn = decide (∃ i : Fin 16, (if s.hk.warn then warnAt - 50 else warnAt) ≤ die i) ∧
        s1.sup.convOk = decide (11760 ≤ val 16 ∧ val 16 ≤ 12240) ∧
        s1.sup.vbatLow = (s.sup.vbatLow || decide (val 20 < 2200)) ∧
        ∀ n : ChanId, s1.chans[n].adc.ntcHk = s.chans[n].adc.ntc
      Does (.hkRound t x) s measured ∧
      ((∃ i : Fin 16, 1350 ≤ die i) → s.hk.shut = false → Does (.hkRound t x) s fun s1 => measured s1 ∧ shutdown s1) ∧
      ((∀ i : Fin 16, die i < 1100) → x.above = 0 → s.hk.basking = true → cool ≤ now →
        Does (.hkRound t x) s fun s1 => s1.hk.shut = false ∧ s1.hk.basking = false ∧ s1.aon.basking = false ∧
          ∀ n : ChanId, ∃ r : ChR, s1.chans[n] = r.settle.settle.c ∧
            (if s.chans[n].core.code = .tripped ∧ s.chans[n].core.thermal = true then
              (r.c.core.code = .off ∨ r.c.core.code = .ready) ∧ r.c.core.cause = 0x61
            else r.c = { s.chans[n] with adc := r.c.adc })) ∧
      ((∃ i : Fin 16, 1100 ≤ die i) ∨ x.above ≠ 0 ∨ (now : Int) < cool → s.hk.basking = true →
        Does (.hkRound t x) s fun s1 => s1.hk.basking = true)) ∧
    ((s.at t).powered = true → s.dev.testing = false → ∀ (first : Nat) (i : Fin 16) v,
      (now < first + 50000 → Does (.dieShutdown ⟨t, first⟩ i v) s same) ∧
      (first + 50000 ≤ now → s.hk.shut = false → Does (.dieShutdown ⟨t, first⟩ i v) s shutdown) ∧
      (first + 50000 ≤ now → s.hk.shut = true → Does (.dieShutdown ⟨t, first⟩ i v) s fun s1 => s1 = { s.at t with
        hk := { s.hk with above := s.hk.above ||| BitVec.ofNat 16 (2 ^ i.val) } })) ∧
    (s.supplied = true →
      (∀ first source vin vaux, s.sup.pf = false →
        let low := if source = 0 then decide (vin < fld s.sup.cfg 15 0) else decide (vaux < 11000)
        let long := decide (first + (if source = 0 then 400000 else 100000) ≤ now)
        (low = true → long = true → s.dev.phase ≠ .shutdown → Does (.powerFail ⟨t, first⟩ source vin vaux) s fun s1 =>
          s1.sup = { s.sup with pf := true } ∧ s1.dev = { s.dev with phase := .powerFail, warnAt := now } ∧
          s1.recorder.draining = true ∧ s1.chans = s.chans) ∧
        (low = true → long = true → s.dev.phase = .shutdown →
          Does (.powerFail ⟨t, first⟩ source vin vaux) s fun s1 => s1.dev.phase = .off ∧ s1.dev.testing = false) ∧
        (low = false ∨ long = false → Does (.powerFail ⟨t, first⟩ source vin vaux) s same)) ∧
      (s.sup.pf = true → ∀ first source vin vaux, Does (.powerFail ⟨t, first⟩ source vin vaux) s same) ∧
      (s.dev.phase = .powerFail →
        (s.dev.warnAt + 50000000 ≤ now → Does (.powerFailRestart t) s (off s.aon s.sup (some 4))) ∧
        (now < s.dev.warnAt + 50000000 → Does (.powerFailRestart t) s same)) ∧
      (∀ first code mv,
        let lo := if code = 1 then 570 else if code = 2 then 3000 else if code = 3 then 850 else if code = 4 then 1710 else 10500
        let hi := if code = 1 then 950 else if code = 2 then 3600 else if code = 3 then 950 else if code = 4 then 1890 else 14000
        (mv < lo ∨ hi < mv → first + 2000 ≤ now →
          Does (.railReset ⟨t, first⟩ ⟨code, mv⟩) s (off { s.aon with lastReset := code } s.sup (some 3))) ∧
        ((lo ≤ mv ∧ mv ≤ hi) ∨ now < first + 2000 → Does (.railReset ⟨t, first⟩ ⟨code, mv⟩) s same))) ∧
    (s.sup.ctl = .running → s.dev.phase ≠ .ready → ∀ cause, Does (.supFault t cause) s fun s1 =>
      s1 = { s.at t with sup := { s.sup with ctl := .held, heldAt := now, owed := s.sup.owed ++ [cause] } }) ∧
    (s.sup.ctl = .running → s.dev.phase = .ready → s.sup.owed = [] → ∀ cause, Does (.supFault t cause) s fun s1 =>
      s1.quiet = { (s.at t).quiet with sup := { s.sup with ctl := .held, heldAt := now } }) ∧
    (s.sup.ctl = .held →
      (s.sup.heldAt + 1000000000 ≤ now → Does (.softStart t) s fun s1 =>
        s1 = { s.at t with sup := { s.sup with ctl := .running } }) ∧
      (now < s.sup.heldAt + 1000000000 → Does (.softStart t) s same)) ∧
    Does (.supVddStop t) s (off s.aon { s.sup with ctl := .stopped } none) ∧
    (∀ v, (s.sup.ctl = .stopped → Does (.supplyControllerStart t v) s fun s1 => s1 = { s.at t with
        sup := { s.sup with ctl := .running, vehicle := v, cfg := if v then 0x025800A0#32 else 0x11940384#32 }
        dev := { s.dev with due := some 0 } }) ∧
      (s.sup.ctl ≠ .stopped → Does (.supplyControllerStart t v) s same))

/-- R703 to R709, R711 to R713, R716 to R718, R652, R48, R52: a start clears the device and keeps the always-on domain and the
media; its steps up to READY are taken at once (log 129). READY; SHUTDOWN with its check, and its steps at once; the test's
verdict, the off latch, and a wake key held for 20 ms in it. CALENDAR_SET. -/
def Obligations.StartAndShutdown : Prop :=
  (∀ (s : State) (t : Nat),
    let now := max s.dtime t
    let same (s1 : State) : Prop := s1 = s.at t
    (s.dev.due = none ∨ s.dev.phase ≠ .off ∨ s.sup.ctl ≠ .running → ∀ x, Does (.start t x) s same) ∧
    (∀ x cause, s.dev.due = some cause → s.dev.phase = .off → s.sup.ctl = .running →
      let tadpole : Prop := s.aon.selfTest.result = 1 ∧ s.aon.aonLost = false ∧ x.bootMode = 0 ∧ cause ≤ 2
      Does (.start t x) s (fun s1 =>
        s1.dtime = 0 ∧ s1.pending = s.pending ∧ s1.dev.phase = .starting ∧ s1.dev.admin = x.admin ∧ s1.dev.cause = cause ∧
        s1.dev.seSplit = x.seSplit ∧ s1.dev.recCfg = x.recCfg ∧ s1.dev.bootMode = x.bootMode ∧
        s1.dev.shutRes = s.aon.selfTest.result ∧ s1.aon.selfTest.result = 0 ∧
        s1.aon.pcycle = (if cause ≤ 1 then min 0xFFFFFFFF (s.aon.pcycle + 1) else s.aon.pcycle) ∧
        s1.aon.optime = s.aon.optime ∧ s1.hk.basking = s.aon.basking ∧ s1.hk.shut = s.aon.basking ∧
        s1.units = State.reset.units ∧ s1.can = State.reset.can ∧ s1.fpe = State.reset.fpe ∧
        (∀ n : ChanId, (s1.se.state = .halted ∨ s1.chans[n].core.code = .unplugged) ∧
          s1.chans[n].core.plugPin = x.plugs.getLsbD n) ∧
        s1.stor.s1 = s.stor.s1 ∧ s1.recorder.store = s.recorder.store) ∧
      (tadpole → Does (.start t x) s fun s1 => s1.dev.full = false ∧ s1.dev.startRes = 0 ∧ s1.dev.clFail = 0 ∧
        s1.dev.sharedFail = 0 ∧ s1.recorder.ready = true) ∧
      (¬ tadpole → Does (.start t x) s fun s1 => s1.dev.full = true ∧ s1.dev.clFail = x.test.clFail ∧
        s1.dev.sharedFail = x.test.sharedFail ∧
        s1.dev.startRes = (if x.test.clFail = 0 ∧ x.test.sharedFail = 0 then 1 else 2) ∧
        s1.recorder.ready = !x.test.sharedFail.getLsbD 4) ∧
      (x.bootMode = 2 → Does (.start t x) s fun s1 => s1.se.state = .init) ∧
      (¬ tadpole → x.test.sharedFail.getLsbD 0 = true → Does (.start t x) s fun s1 => s1.se.state = .init)) ∧
    (s.dev.phase = .starting → s.time.refaOk = true → ∀ ms, Does (.startReady t ms) s fun s1 =>
      s1.dev = { s.dev with phase := .ready, tReady := min 65535 ms, due := none }) ∧
    (s.dev.phase ≠ .starting ∨ (s.time.refaOk = false ∧ s.time.holdover = false) →
      ∀ ms, Does (.startReady t ms) s same) ∧
    (s.supplied = true → s.dev.testing = true → ∀ v : Verdict,
      let verdict : SelfTestRec := {
        result := if v.clFail = 0 ∧ v.sharedFail = 0 then 1 else 2, clFail := v.clFail,
        sharedFail := v.sharedFail, ms := v.ms, optime := s.aon.optime, pcycle := s.aon.pcycle }
      (s.dev.restart = true → Does (.selftestEnd t v) s fun s1 => s1.aon = { s.aon with selfTest := verdict } ∧
        s1.dev = { s.dev with phase := .off, testing := false, due := some 2 } ∧ s1.sup = s.sup ∧
        s1.chans = State.reset.chans) ∧
      (s.dev.restart = false → Does (.selftestEnd t v) s fun s1 => s1.aon = { s.aon with selfTest := verdict } ∧
        s1.dev = { s.dev with phase := .off, testing := false, due := none } ∧
        s1.sup = { s.sup with ctl := .offLatch, heldAt := now } ∧ s1.chans = State.reset.chans)) ∧
    (s.dev.testing = false → ∀ v, Does (.selftestEnd t v) s same) ∧
    (∀ k : Fin 6,
      (s.dev.phase = .off → s.sup.ctl = .offLatch → s.aon.wake.getLsbD k = true → s.sup.heldAt + 20000000 ≤ now →
        Does (.wakeKey t k) s fun s1 => s1 = { s.at t with
          sup := { s.sup with ctl := .running }, dev := { s.dev with due := some 1, wakeKey := k.val } }) ∧
      (s.sup.ctl ≠ .offLatch ∨ s.aon.wake.getLsbD k = false ∨ now < s.sup.heldAt + 20000000 →
        Does (.wakeKey t k) s same))) ∧
  (∀ (s : State) (t : Nat) (q : SqRef) (f : Fetched), Next s t q 0x7E f →
    let ms := if Desc.skipTest f.desc then 0 else if fld s.dev.shutCfg 1 0 ≤ 1 then 440 else 260
    let skips := Desc.skipTest f.desc || s.hk.basking || s.sup.pf
    (Passes s t q f shutdownExec → s.dev.phase = .ready →
      let ends (P : State → Prop) : Prop := Does (.shutdown t q) s fun s1 =>
        s1.chans = State.reset.chans ∧ s1.ports = State.reset.ports ∧ s1.can = State.reset.can ∧ s1.fpe = State.reset.fpe ∧
        P s1
      (Roomy s q → ends fun s1 => Answered s1 q f stOk 0 ms) ∧
      (skips = true → Desc.isRestart f.desc = true → ends fun s1 =>
        s1.aon.selfTest.result = 4 ∧ s1.dev.phase = .off ∧ s1.dev.due = some 2 ∧ s1.sup.ctl = s.sup.ctl) ∧
      (skips = true → Desc.isRestart f.desc = false → ends fun s1 =>
        s1.aon.selfTest.result = 4 ∧ s1.dev.phase = .off ∧ s1.dev.due = none ∧ s1.sup.ctl = .offLatch) ∧
      (skips = false → ends fun s1 =>
        s1.aon.selfTest.result = 3 ∧ s1.dev.phase = .shutdown ∧ s1.dev.testing = true ∧ s1.recorder.closed = true ∧
        s1.se.run = none) ∧
      (skips = false → s.se.run = none → ends fun s1 => s1.se.lockout = s.se.lockout)) ∧
    (((s.at t).take q).checks1to4 q.port f.desc = none → Desc.force f.desc = false →
      (∃ n : ChanId, s.chans[n].core.code ∈ [.armed, .run, .stopping, .brake, .discharge, .ident, .tripped, .safe]) →
      Does (.shutdown t q) s fun s1 => s1.quiet = (s.at t).quiet)) ∧
  (∀ (s : State) (t : Nat) (p : PortId), (s.at t).busUp p = true →
    let cal := (((max s.dtime t : Nat) : Int) + s.time.calOffset) % 2 ^ 64
    Does (.lowHalfRead t p ⟨false, 0x054018⟩) s fun s1 =>
      s1.lastRead = BitVec.ofInt 32 cal ∧ Cells.get 0 s1.ports[p].latches 0x054018 = BitVec.ofInt 32 (cal / 2 ^ 32)) ∧
  (∀ (s : State) (t : Nat) (q : SqRef) (f : Fetched), Next s t q 0x7F f →
    (s.admin ≠ q.port → unitIs f.desc.unit = some .device →
      Does (.calendarSet t q) s fun s1 => s1.quiet = (s.at t).quiet ∧ Reports s1 q f stNotOwner s.admin.val 0) ∧
    (Passes s t q f calendarSetExec →
      let now := max s.dtime t
      let ref := if f.desc.num 32 8 = 0 then now else f.desc.num 32 8
      Does (.calendarSet t q) s fun s1 =>
        s1.time = { s.time with calOffset := (f.desc.num 24 8 : Int) - (ref : Int) } ∧ s1.aon.calValid = true ∧
        s1.aon.clock = aonStep (s1.calendar now) ∧ s1.aon.clockAt = now ∧ s1.dtime = now))

/-! ### Chapter 20: performance counters and the test access port -/

/-- R320, R730 to R734, R737, R740, R744, R747: the end of a channel's loop-back test once it has run its length, with PASS and
the FAIL bits in RESULT; the end of a counting window, and a new window length; the copy of a tag sample; the instructions of
the test access port with what BOOT_MODE permits. -/
def Obligations.TestAndPerformance : Prop :=
  (∀ (s : State) (t : Nat) (n : ChanId), (s.at t).powered = true → ∀ b, s.chans[n].core.lb = some b →
    let c0 := s.chanAt t n
    let now := max s.dtime t
    let ends (found : LbFound) : Prop := Leaves (.lbTestDone t n found) s t n fun c => c.core.lb = none
    let taken : Prop := ∀ x, s.chans[n].adc.slot = some x → x.pos.isSome = true ∨ now ≤ x.start + 60
    let answers (found : LbFound) (P : Nat → Prop) : Prop :=
      ∀ (q : SqRef) (h : Held), (s.sqAt q).held = some h → h.opcode = 0x19 → h.unit = n.val → h.late = false →
        (∀ d, h.deadline = some d → now ≤ d) → (s.ports[q.port].cqs[(s.sqAt q).cqId]).usable = true →
        Does (.lbTestDone t n found) s fun s1 => (s1.sqAt q).held = none ∧
          ∃ x : Completion, ((∃ c i a ph, Out.completion q.port c i a ph x ∈ s1.outbox) ∨ x ∈ (s1.sqAt q).stalled) ∧
            x.cid = h.cid ∧ x.sqId = q.sq.val ∧ x.status = stOk ∧ P (x.result % 65536)
    let result (fails : BitVec 5) : Nat := (if fails = 0 then 1 else 0) + 2 * fails.toNat
    (∀ fails : BitVec 5,
      (b.target = 0 → b.depth ≠ 2 → taken → ends (.digital fails) ∧
        answers (.digital fails) (fun x => x = result (fails ||| b.bad))) ∧
      (b.target = 1 → b.start + 640 * (if s.chans[n].posMode = 3 then 98 else 8193) ≤ now →
        Leaves (.lbTestDone t n (.digital fails)) s t n (fun c => c.core.lb = none ∧ c.pos.count = 0) ∧
        answers (.digital fails) (fun x => ∃ more : BitVec 5, x = result (fails ||| more))) ∧
      (b.target = 2 → 4 * actPeriod s.chans[n].pwm.period * sixteenth ≤ c0.ticksWithin s.time b.start now → taken →
        Leaves (.lbTestDone t n (.digital fails)) s t n
          (fun c => c = { c0 with core := { c0.core with lb := none } }) ∧
        answers (.digital fails) (fun x => x = result (fails ||| b.bad)))) ∧
    (∀ codes cmps dacs, b.target = 0 → b.depth = 2 → taken → codes.length = 24 → cmps.length = 8 →
      let level (k : Nat) : Nat := 64 + 128 * k
      let near (k c : Nat) : Prop := level (k / 3) * 16 ≤ c + 128 ∧ c ≤ level (k / 3) * 16 + 128
      let agrees (k : Nat) (got : BitVec 5) (j : Fin 5) : Prop :=
        let thr := s.chans[n].adc.threshold j
        (level k ≤ thr + 16 ∧ thr ≤ level k + 16) ∨
          got.getLsbD j = decide (if j.val = 1 ∨ j.val = 3 then level k < thr else thr < level k)
      let good : Prop := (∀ k u v, codes[k]? = some (u, v) → near k u ∧ near k v ∧ u ≤ v + 64 ∧ v ≤ u + 64) ∧
        (∀ k got, cmps[k]? = some got → ∀ j : Fin 5, agrees k got j) ∧ dacs = false
      ends (.analog codes cmps dacs) ∧
      (good → answers (.analog codes cmps dacs) (fun x => x = 1)) ∧
      (¬ good → answers (.analog codes cmps dacs) (fun x => x % 2 = 0 ∧ x < 64 ∧ x ≠ 0)))) ∧
  (∀ (s : State) (t : Nat), s.supplied = true →
    let x := s.perf
    let len := max 1 (fld x.ctrl 15 0) * 100000
    let starts (s1 : State) (p : PortId) : Prop :=
      s1.ports[p].winBase = s1.ports[p].live ∧ s1.ports[p].live.desc = s.ports[p].live.desc
    (max s.dtime t < x.winEnd → Does (.perfWindowEnd t) s fun s1 => s1 = s.at t) ∧
    (x.winEnd ≤ max s.dtime t → x.winWait = true → Does (.perfWindowEnd t) s fun s1 =>
      s1.perf = { x with winEnd := x.winEnd + len, winWait := false } ∧
      ∀ p : PortId, starts s1 p ∧ s1.ports[p].win = s.ports[p].win) ∧
    (x.winEnd ≤ max s.dtime t → x.winWait = false → Does (.perfWindowEnd t) s fun s1 =>
      s1.perf = { x with bwSeq := (x.bwSeq + 1) % 4294967296, winEnd := x.winEnd + len } ∧
      ∀ p : PortId, starts s1 p ∧
        s1.ports[p].win.desc = since48 s.ports[p].live.desc s.ports[p].winBase.desc ∧
        s1.ports[p].win.rdBytes = since48 s.ports[p].live.rdBytes s.ports[p].winBase.rdBytes ∧
        s1.ports[p].win.wrBytes = since48 s.ports[p].live.wrBytes s.ports[p].winBase.wrBytes ∧
        s1.ports[p].win.mmio = since48 s.ports[p].live.mmio s.ports[p].winBase.mmio)) ∧
  (∀ (s : State) (t : Nat) (p : PortId), (s.at t).busUp p = true →
    (∀ v, let len := max 1 (fld v 15 0) * 100000
      (s.admin ≠ p → Does (.bwWinWrite t p v) s fun s1 => s1.perf = s.perf) ∧
      (s.admin = p → fld v 15 0 = fld s.perf.ctrl 15 0 → Does (.bwWinWrite t p v) s fun s1 =>
        s1.perf = { s.perf with ctrl := v &&& 0x000FFFFF#32 }) ∧
      (s.admin = p → fld v 15 0 ≠ fld s.perf.ctrl 15 0 → Does (.bwWinWrite t p v) s fun s1 =>
        s1.perf = { s.perf with ctrl := v &&& 0x000FFFFF#32, winEnd := s1.perf.winEnd, winWait := true } ∧
        s1.perf.winEnd % len = 0 ∧ max s.dtime t < s1.perf.winEnd ∧ s1.perf.winEnd ≤ max s.dtime t + len)) ∧
    (∀ n : ChanId, n.val = fld s.ports[p].tagSel 6 0 →
      let w := s.chans[n].tag.words
      Does (.tagSampleRead t p) s (fun s1 =>
        s1.ports[p].tagCopy[0] = w[0] ∧ s1.lastRead = w[0] ∧ s1.ports[p].tagCopy[5] = w[5] ∧ s1.ports[p].tagCopy[7] = 0#32 ∧
        (∀ p', p' ≠ p → s1.ports[p'] = s.ports[p']) ∧ s1.chans = s.chans) ∧
      (w ≠ Vector.replicate 6 0#32 → Does (.tagSampleRead t p) s fun s1 =>
        fld s1.ports[p].tagCopy[6] 7 0 = n.val ∧ fld s1.ports[p].tagCopy[6] 31 16 = max s.dtime t / 1024 % 65536))) ∧
  (∀ s : State,
    let ir (i : Instr) (x : JtagIr) : Prop := Does i s fun s1 => s1 = { s with jtag := { s.jtag with ir := x } }
    (s.supplied = true →
      Does .idcode s (fun s1 => s1 = { s with jtag := { s.jtag with ir := .idcode, dr := s1.jtag.dr } } ∧
        fld s1.jtag.dr 31 28 = 1 ∧ fld s1.jtag.dr 27 12 = 0x9128 ∧ fld s1.jtag.dr 11 1 = Config.manufacturer.toNat ∧
        bitOf s1.jtag.dr 0 = true) ∧
      (∀ bits, Does (.samplePreload bits) s fun s1 =>
        s1 = { s with jtag := { s.jtag with ir := .samplePreload, boundary := bits } }) ∧
      ir .bypass .bypass ∧
      (s.dev.bootMode = 2 → ir .extest .extest ∧ ir .clamp .clamp ∧ ir .highz .highz ∧ ir .prodTest .prodTest) ∧
      (s.dev.bootMode ≠ 2 → ir .extest .bypass ∧ ir .clamp .bypass ∧ ir .highz .bypass ∧ ir .prodTest .bypass)) ∧
    (s.supplied = false → ∀ i ∈ [Instr.idcode, .extest, .clamp, .highz, .prodTest, .bypass], Does i s fun s1 => s1 = s))

/-! ### The whole block -/

/-- One step takes the command that has waited longest and executes it on what is left of the queue; on an empty queue the
block idles (the model's choice, log entry 3). -/
def Obligations.StepRunsFront : Prop :=
  (∀ (c : Instr) (s : State) (rest : List Instr), s.pending = c :: rest → step s = exec c { s with pending := rest }) ∧
  (∀ s : State, s.pending = [] → step s = .next s)

/-- R76: every main power-up leaves every bindable unit unbound, with epoch 1 and role code 0. So does State.reset, which
besides has an empty queue, the device off, and the invariant. -/
def Obligations.ResetAndPowerUp : Prop :=
  (∀ (s : State) (t : Nat) (x : StartInputs) (cause : Nat),
    s.dev.due = some cause → s.dev.phase = .off → s.sup.ctl = .running →
    Does (.start t x) s fun s1 => ∀ i : Fin 145, s1.units[i].owner = none ∧ s1.units[i].epoch = 1 ∧ s1.units[i].role = 0) ∧
  (∀ i : Fin 145, State.reset.units[i].owner = none ∧ State.reset.units[i].epoch = 1 ∧ State.reset.units[i].role = 0) ∧
  State.reset.pending = [] ∧ State.reset.dev.phase = .off ∧ State.reset.dtime = 0 ∧ State.reset.Inv

/-- Every command, in every state, runs to an end: exec answers a next state, and leaves the queue alone. -/
def Obligations.EveryCommandCompletes : Prop :=
  ∀ (i : Instr) (s : State), ∃ s1, exec i s = Host.Outcome.next s1 ∧ s1.pending = s.pending

/-- R43, R53, R76, R82, R84, R588, R723: the invariant holds after every step from every state in which it holds. -/
def Obligations.InvariantKept : Prop :=
  ∀ s s1 : State, s.Inv → step s = Host.Outcome.next s1 → s1.Inv

/-- R8: an event or an instruction of one channel leaves every other channel as it was, and with them the units, the FPE, the
CAN controllers, the safety executive and its ports, housekeeping, the time unit and the start logic. -/
def Obligations.ChannelIsolation : Prop :=
  ∀ (i : Instr) (s s1 : State) (n : ChanId), Instr.chan i = some n → exec i s = Host.Outcome.next s1 →
    (∀ m : ChanId, m ≠ n → s1.chans[m] = s.chans[m]) ∧ s1.units = s.units ∧ s1.fpe = s.fpe ∧ s1.can = s.can ∧
    s1.se = s.se ∧ s1.io = s.io ∧ s1.hk = s.hk ∧ s1.time = s.time ∧ s1.dev = s.dev ∧ s1.aon = s.aon ∧ s1.stor = s.stor ∧
    s1.perf = s.perf ∧ s1.jtag = s.jtag ∧ s1.lastRead = s.lastRead
end

