-- ==== Sys2Proof/Laws/Cells.lean ====
section
/-! SUPPORT. The sparse memories: what a read after a write gives, and that every operation keeps the canonical form. -/
namespace Sys2Proof.Machine

/-- A canonical memory above `lo` reads `d` below it. -/
theorem Cells.get_below {w : Nat} (d : BitVec w) (m : Cells w) (lo k : Nat) (h : Cells.above d lo m = true) (hk : k < lo) :
    Cells.get d m k = d := by
  cases m with
  | nil => rfl
  | cons x rest =>
    simp only [Cells.above, Bool.and_eq_true, decide_eq_true_eq] at h
    simp only [Cells.get]; rw [if_neg (by omega), if_pos (by omega)]

/-- A lower bound may be lowered. -/
theorem Cells.above_mono {w : Nat} (d : BitVec w) (m : Cells w) (lo lo' : Nat) (h : Cells.above d lo m = true)
    (hl : lo' ≤ lo) : Cells.above d lo' m = true := by
  cases m with
  | nil => rfl
  | cons x rest =>
    simp only [Cells.above, Bool.and_eq_true, decide_eq_true_eq] at h ⊢
    exact ⟨⟨by omega, h.1.2⟩, h.2⟩

/-- A write keeps the canonical form. -/
theorem Cells.set_above {w : Nat} (d : BitVec w) (m : Cells w) (lo k : Nat) (v : BitVec w)
    (h : Cells.above d lo m = true) (hk : lo ≤ k) : Cells.above d lo (Cells.set d m k v) = true := by
  induction m generalizing lo with
  | nil =>
    simp only [Cells.set]; split
    · rfl
    · simp only [Cells.above, Bool.and_eq_true, decide_eq_true_eq]; exact ⟨⟨hk, by assumption⟩, trivial⟩
  | cons x rest ih =>
    simp only [Cells.above, Bool.and_eq_true, decide_eq_true_eq] at h
    simp only [Cells.set]; repeat' split
    · exact Cells.above_mono d rest _ lo h.2 (by omega)
    · simp only [Cells.above, Bool.and_eq_true, decide_eq_true_eq]
      exact ⟨⟨hk, by assumption⟩, by subst_vars; exact h.2⟩
    · simp only [Cells.above, Bool.and_eq_true, decide_eq_true_eq]; exact ⟨⟨by omega, h.1.2⟩, h.2⟩
    · simp only [Cells.above, Bool.and_eq_true, decide_eq_true_eq]
      exact ⟨⟨hk, by assumption⟩, ⟨by omega, h.1.2⟩, h.2⟩
    · simp only [Cells.above, Bool.and_eq_true, decide_eq_true_eq]
      exact ⟨h.1, ih (x.1 + 1) h.2 (by omega)⟩

/-- Every write keeps the canonical form. -/
theorem Cells.set_wf {w : Nat} (d : BitVec w) (m : Cells w) (k : Nat) (v : BitVec w) (h : Cells.wf d m = true) :
    Cells.wf d (Cells.set d m k v) = true := Cells.set_above d m 0 k v h (Nat.zero_le k)

/-- Writes at consecutive addresses keep the canonical form. -/
theorem Cells.setAll_wf {w : Nat} (d : BitVec w) (m : Cells w) (k : Nat) (vs : List (BitVec w))
    (h : Cells.wf d m = true) : Cells.wf d (Cells.setAll d m k vs) = true := by
  induction vs generalizing m k with
  | nil => exact h
  | cons v vs ih => exact ih _ _ (Cells.set_wf d m k v h)

/-- A memory built from a list is canonical. -/
theorem Cells.ofList_above {w : Nat} (d : BitVec w) (k : Nat) (vs : List (BitVec w)) :
    Cells.above d k (Cells.ofList d k vs) = true := by
  induction vs generalizing k with
  | nil => rfl
  | cons v vs ih =>
    simp only [Cells.ofList]; split
    · exact Cells.above_mono d _ _ k (ih (k + 1)) (by omega)
    · simp only [Cells.above, Bool.and_eq_true, decide_eq_true_eq]
      exact ⟨⟨Nat.le_refl k, by assumption⟩, ih (k + 1)⟩

/-- A memory built from a list is canonical. -/
theorem Cells.ofList_wf {w : Nat} (d : BitVec w) (k : Nat) (vs : List (BitVec w)) : Cells.wf d (Cells.ofList d k vs) = true :=
  Cells.above_mono d _ k 0 (Cells.ofList_above d k vs) (Nat.zero_le k)

/-- A read gives what was written last at its address. -/
theorem Cells.get_set_self {w : Nat} (d : BitVec w) (m : Cells w) (lo k : Nat) (v : BitVec w)
    (h : Cells.above d lo m = true) : Cells.get d (Cells.set d m k v) k = v := by
  induction m generalizing lo with
  | nil =>
    simp only [Cells.set]; split
    · simp only [Cells.get]; exact Eq.symm (by assumption)
    · simp [Cells.get]
  | cons x rest ih =>
    simp only [Cells.above, Bool.and_eq_true, decide_eq_true_eq] at h
    simp only [Cells.set]; repeat' split
    · rename_i hx hv; rw [hv]; exact Cells.get_below d rest (x.1 + 1) k h.2 (by omega)
    · simp [Cells.get]
    · rename_i hv; rw [hv]; simp only [Cells.get]; rw [if_neg (by omega), if_pos (by omega)]
    · simp [Cells.get]
    · simp only [Cells.get]; rw [if_neg (by omega), if_neg (by omega)]; exact ih (x.1 + 1) h.2

/-- A write leaves every other address. -/
theorem Cells.get_set_other {w : Nat} (d : BitVec w) (m : Cells w) (lo k j : Nat) (v : BitVec w)
    (h : Cells.above d lo m = true) (hj : j ≠ k) : Cells.get d (Cells.set d m k v) j = Cells.get d m j := by
  induction m generalizing lo with
  | nil =>
    simp only [Cells.set]; split
    · rfl
    · simp only [Cells.get]; rw [if_neg (by omega)]; split <;> rfl
  | cons x rest ih =>
    simp only [Cells.above, Bool.and_eq_true, decide_eq_true_eq] at h
    have hb (hk : x.1 = k) (hj' : j < x.1) : Cells.get d rest j = d := Cells.get_below d rest (x.1 + 1) j h.2 (by omega)
    have := ih (x.1 + 1) h.2
    simp only [Cells.set]; repeat' split
    all_goals simp only [Cells.get]
    all_goals repeat' split
    all_goals first
      | rfl
      | omega
      | assumption
      | exact hb (by assumption) (by omega)

end Sys2Proof.Machine
end

