-- ==== Sys2Proof/Laws/State.lean ====
section
/-! SUPPORT. What each plain update of the state changes and what it leaves: one lemma per field and update, true by
definition. -/
namespace Sys2Proof.Machine

/-! `State.at` -/
@[simp] theorem State.at_pending (s : State) (t : Nat) : (s.at t).pending = s.pending := rfl
@[simp] theorem State.at_dtime (s : State) (t : Nat) : (s.at t).dtime = max s.dtime t := rfl
@[simp] theorem State.at_time (s : State) (t : Nat) : (s.at t).time = s.time := rfl
@[simp] theorem State.at_dev (s : State) (t : Nat) : (s.at t).dev = s.dev := rfl
@[simp] theorem State.at_ports (s : State) (t : Nat) : (s.at t).ports = s.ports := rfl
@[simp] theorem State.at_fetchSeq (s : State) (t : Nat) : (s.at t).fetchSeq = s.fetchSeq := rfl
@[simp] theorem State.at_units (s : State) (t : Nat) : (s.at t).units = s.units := rfl
@[simp] theorem State.at_limits (s : State) (t : Nat) : (s.at t).limits = s.limits := rfl
@[simp] theorem State.at_chans (s : State) (t : Nat) : (s.at t).chans = s.chans := rfl
@[simp] theorem State.at_fpe (s : State) (t : Nat) : (s.at t).fpe = s.fpe := rfl
@[simp] theorem State.at_can (s : State) (t : Nat) : (s.at t).can = s.can := rfl
@[simp] theorem State.at_se (s : State) (t : Nat) : (s.at t).se = s.se := rfl
@[simp] theorem State.at_io (s : State) (t : Nat) : (s.at t).io = s.io := rfl
@[simp] theorem State.at_recorder (s : State) (t : Nat) : (s.at t).recorder = s.recorder := rfl
@[simp] theorem State.at_stor (s : State) (t : Nat) : (s.at t).stor = s.stor := rfl
@[simp] theorem State.at_hk (s : State) (t : Nat) : (s.at t).hk = s.hk := rfl
@[simp] theorem State.at_sup (s : State) (t : Nat) : (s.at t).sup = s.sup := rfl
@[simp] theorem State.at_aon (s : State) (t : Nat) : (s.at t).aon = s.aon := rfl
@[simp] theorem State.at_perf (s : State) (t : Nat) : (s.at t).perf = s.perf := rfl
@[simp] theorem State.at_jtag (s : State) (t : Nat) : (s.at t).jtag = s.jtag := rfl
@[simp] theorem State.at_outbox (s : State) (t : Nat) : (s.at t).outbox = s.outbox := rfl
@[simp] theorem State.at_lastRead (s : State) (t : Nat) : (s.at t).lastRead = s.lastRead := rfl
@[simp] theorem State.at_freeCtr (s : State) (t : Nat) : (s.at t).freeCtr = s.freeCtr + 1 := rfl

/-! `State.onTime` -/
@[simp] theorem State.onTime_pending (s : State) (f : TimeS → TimeS) : (s.onTime f).pending = s.pending := rfl
@[simp] theorem State.onTime_dtime (s : State) (f : TimeS → TimeS) : (s.onTime f).dtime = s.dtime := rfl
@[simp] theorem State.onTime_time (s : State) (f : TimeS → TimeS) : (s.onTime f).time = f s.time := rfl
@[simp] theorem State.onTime_dev (s : State) (f : TimeS → TimeS) : (s.onTime f).dev = s.dev := rfl
@[simp] theorem State.onTime_ports (s : State) (f : TimeS → TimeS) : (s.onTime f).ports = s.ports := rfl
@[simp] theorem State.onTime_fetchSeq (s : State) (f : TimeS → TimeS) : (s.onTime f).fetchSeq = s.fetchSeq := rfl
@[simp] theorem State.onTime_units (s : State) (f : TimeS → TimeS) : (s.onTime f).units = s.units := rfl
@[simp] theorem State.onTime_limits (s : State) (f : TimeS → TimeS) : (s.onTime f).limits = s.limits := rfl
@[simp] theorem State.onTime_chans (s : State) (f : TimeS → TimeS) : (s.onTime f).chans = s.chans := rfl
@[simp] theorem State.onTime_fpe (s : State) (f : TimeS → TimeS) : (s.onTime f).fpe = s.fpe := rfl
@[simp] theorem State.onTime_can (s : State) (f : TimeS → TimeS) : (s.onTime f).can = s.can := rfl
@[simp] theorem State.onTime_se (s : State) (f : TimeS → TimeS) : (s.onTime f).se = s.se := rfl
@[simp] theorem State.onTime_io (s : State) (f : TimeS → TimeS) : (s.onTime f).io = s.io := rfl
@[simp] theorem State.onTime_recorder (s : State) (f : TimeS → TimeS) : (s.onTime f).recorder = s.recorder := rfl
@[simp] theorem State.onTime_stor (s : State) (f : TimeS → TimeS) : (s.onTime f).stor = s.stor := rfl
@[simp] theorem State.onTime_hk (s : State) (f : TimeS → TimeS) : (s.onTime f).hk = s.hk := rfl
@[simp] theorem State.onTime_sup (s : State) (f : TimeS → TimeS) : (s.onTime f).sup = s.sup := rfl
@[simp] theorem State.onTime_aon (s : State) (f : TimeS → TimeS) : (s.onTime f).aon = s.aon := rfl
@[simp] theorem State.onTime_perf (s : State) (f : TimeS → TimeS) : (s.onTime f).perf = s.perf := rfl
@[simp] theorem State.onTime_jtag (s : State) (f : TimeS → TimeS) : (s.onTime f).jtag = s.jtag := rfl
@[simp] theorem State.onTime_outbox (s : State) (f : TimeS → TimeS) : (s.onTime f).outbox = s.outbox := rfl
@[simp] theorem State.onTime_lastRead (s : State) (f : TimeS → TimeS) : (s.onTime f).lastRead = s.lastRead := rfl
@[simp] theorem State.onTime_freeCtr (s : State) (f : TimeS → TimeS) : (s.onTime f).freeCtr = s.freeCtr := rfl

/-! `State.onHk` -/
@[simp] theorem State.onHk_pending (s : State) (f : HkS → HkS) : (s.onHk f).pending = s.pending := rfl
@[simp] theorem State.onHk_dtime (s : State) (f : HkS → HkS) : (s.onHk f).dtime = s.dtime := rfl
@[simp] theorem State.onHk_time (s : State) (f : HkS → HkS) : (s.onHk f).time = s.time := rfl
@[simp] theorem State.onHk_dev (s : State) (f : HkS → HkS) : (s.onHk f).dev = s.dev := rfl
@[simp] theorem State.onHk_ports (s : State) (f : HkS → HkS) : (s.onHk f).ports = s.ports := rfl
@[simp] theorem State.onHk_fetchSeq (s : State) (f : HkS → HkS) : (s.onHk f).fetchSeq = s.fetchSeq := rfl
@[simp] theorem State.onHk_units (s : State) (f : HkS → HkS) : (s.onHk f).units = s.units := rfl
@[simp] theorem State.onHk_limits (s : State) (f : HkS → HkS) : (s.onHk f).limits = s.limits := rfl
@[simp] theorem State.onHk_chans (s : State) (f : HkS → HkS) : (s.onHk f).chans = s.chans := rfl
@[simp] theorem State.onHk_fpe (s : State) (f : HkS → HkS) : (s.onHk f).fpe = s.fpe := rfl
@[simp] theorem State.onHk_can (s : State) (f : HkS → HkS) : (s.onHk f).can = s.can := rfl
@[simp] theorem State.onHk_se (s : State) (f : HkS → HkS) : (s.onHk f).se = s.se := rfl
@[simp] theorem State.onHk_io (s : State) (f : HkS → HkS) : (s.onHk f).io = s.io := rfl
@[simp] theorem State.onHk_recorder (s : State) (f : HkS → HkS) : (s.onHk f).recorder = s.recorder := rfl
@[simp] theorem State.onHk_stor (s : State) (f : HkS → HkS) : (s.onHk f).stor = s.stor := rfl
@[simp] theorem State.onHk_hk (s : State) (f : HkS → HkS) : (s.onHk f).hk = f s.hk := rfl
@[simp] theorem State.onHk_sup (s : State) (f : HkS → HkS) : (s.onHk f).sup = s.sup := rfl
@[simp] theorem State.onHk_aon (s : State) (f : HkS → HkS) : (s.onHk f).aon = s.aon := rfl
@[simp] theorem State.onHk_perf (s : State) (f : HkS → HkS) : (s.onHk f).perf = s.perf := rfl
@[simp] theorem State.onHk_jtag (s : State) (f : HkS → HkS) : (s.onHk f).jtag = s.jtag := rfl
@[simp] theorem State.onHk_outbox (s : State) (f : HkS → HkS) : (s.onHk f).outbox = s.outbox := rfl
@[simp] theorem State.onHk_lastRead (s : State) (f : HkS → HkS) : (s.onHk f).lastRead = s.lastRead := rfl
@[simp] theorem State.onHk_freeCtr (s : State) (f : HkS → HkS) : (s.onHk f).freeCtr = s.freeCtr := rfl

/-! `State.onSup` -/
@[simp] theorem State.onSup_pending (s : State) (f : SupS → SupS) : (s.onSup f).pending = s.pending := rfl
@[simp] theorem State.onSup_dtime (s : State) (f : SupS → SupS) : (s.onSup f).dtime = s.dtime := rfl
@[simp] theorem State.onSup_time (s : State) (f : SupS → SupS) : (s.onSup f).time = s.time := rfl
@[simp] theorem State.onSup_dev (s : State) (f : SupS → SupS) : (s.onSup f).dev = s.dev := rfl
@[simp] theorem State.onSup_ports (s : State) (f : SupS → SupS) : (s.onSup f).ports = s.ports := rfl
@[simp] theorem State.onSup_fetchSeq (s : State) (f : SupS → SupS) : (s.onSup f).fetchSeq = s.fetchSeq := rfl
@[simp] theorem State.onSup_units (s : State) (f : SupS → SupS) : (s.onSup f).units = s.units := rfl
@[simp] theorem State.onSup_limits (s : State) (f : SupS → SupS) : (s.onSup f).limits = s.limits := rfl
@[simp] theorem State.onSup_chans (s : State) (f : SupS → SupS) : (s.onSup f).chans = s.chans := rfl
@[simp] theorem State.onSup_fpe (s : State) (f : SupS → SupS) : (s.onSup f).fpe = s.fpe := rfl
@[simp] theorem State.onSup_can (s : State) (f : SupS → SupS) : (s.onSup f).can = s.can := rfl
@[simp] theorem State.onSup_se (s : State) (f : SupS → SupS) : (s.onSup f).se = s.se := rfl
@[simp] theorem State.onSup_io (s : State) (f : SupS → SupS) : (s.onSup f).io = s.io := rfl
@[simp] theorem State.onSup_recorder (s : State) (f : SupS → SupS) : (s.onSup f).recorder = s.recorder := rfl
@[simp] theorem State.onSup_stor (s : State) (f : SupS → SupS) : (s.onSup f).stor = s.stor := rfl
@[simp] theorem State.onSup_hk (s : State) (f : SupS → SupS) : (s.onSup f).hk = s.hk := rfl
@[simp] theorem State.onSup_sup (s : State) (f : SupS → SupS) : (s.onSup f).sup = f s.sup := rfl
@[simp] theorem State.onSup_aon (s : State) (f : SupS → SupS) : (s.onSup f).aon = s.aon := rfl
@[simp] theorem State.onSup_perf (s : State) (f : SupS → SupS) : (s.onSup f).perf = s.perf := rfl
@[simp] theorem State.onSup_jtag (s : State) (f : SupS → SupS) : (s.onSup f).jtag = s.jtag := rfl
@[simp] theorem State.onSup_outbox (s : State) (f : SupS → SupS) : (s.onSup f).outbox = s.outbox := rfl
@[simp] theorem State.onSup_lastRead (s : State) (f : SupS → SupS) : (s.onSup f).lastRead = s.lastRead := rfl
@[simp] theorem State.onSup_freeCtr (s : State) (f : SupS → SupS) : (s.onSup f).freeCtr = s.freeCtr := rfl

/-! `State.onAon` -/
@[simp] theorem State.onAon_pending (s : State) (f : AonS → AonS) : (s.onAon f).pending = s.pending := rfl
@[simp] theorem State.onAon_dtime (s : State) (f : AonS → AonS) : (s.onAon f).dtime = s.dtime := rfl
@[simp] theorem State.onAon_time (s : State) (f : AonS → AonS) : (s.onAon f).time = s.time := rfl
@[simp] theorem State.onAon_dev (s : State) (f : AonS → AonS) : (s.onAon f).dev = s.dev := rfl
@[simp] theorem State.onAon_ports (s : State) (f : AonS → AonS) : (s.onAon f).ports = s.ports := rfl
@[simp] theorem State.onAon_fetchSeq (s : State) (f : AonS → AonS) : (s.onAon f).fetchSeq = s.fetchSeq := rfl
@[simp] theorem State.onAon_units (s : State) (f : AonS → AonS) : (s.onAon f).units = s.units := rfl
@[simp] theorem State.onAon_limits (s : State) (f : AonS → AonS) : (s.onAon f).limits = s.limits := rfl
@[simp] theorem State.onAon_chans (s : State) (f : AonS → AonS) : (s.onAon f).chans = s.chans := rfl
@[simp] theorem State.onAon_fpe (s : State) (f : AonS → AonS) : (s.onAon f).fpe = s.fpe := rfl
@[simp] theorem State.onAon_can (s : State) (f : AonS → AonS) : (s.onAon f).can = s.can := rfl
@[simp] theorem State.onAon_se (s : State) (f : AonS → AonS) : (s.onAon f).se = s.se := rfl
@[simp] theorem State.onAon_io (s : State) (f : AonS → AonS) : (s.onAon f).io = s.io := rfl
@[simp] theorem State.onAon_recorder (s : State) (f : AonS → AonS) : (s.onAon f).recorder = s.recorder := rfl
@[simp] theorem State.onAon_stor (s : State) (f : AonS → AonS) : (s.onAon f).stor = s.stor := rfl
@[simp] theorem State.onAon_hk (s : State) (f : AonS → AonS) : (s.onAon f).hk = s.hk := rfl
@[simp] theorem State.onAon_sup (s : State) (f : AonS → AonS) : (s.onAon f).sup = s.sup := rfl
@[simp] theorem State.onAon_aon (s : State) (f : AonS → AonS) : (s.onAon f).aon = f s.aon := rfl
@[simp] theorem State.onAon_perf (s : State) (f : AonS → AonS) : (s.onAon f).perf = s.perf := rfl
@[simp] theorem State.onAon_jtag (s : State) (f : AonS → AonS) : (s.onAon f).jtag = s.jtag := rfl
@[simp] theorem State.onAon_outbox (s : State) (f : AonS → AonS) : (s.onAon f).outbox = s.outbox := rfl
@[simp] theorem State.onAon_lastRead (s : State) (f : AonS → AonS) : (s.onAon f).lastRead = s.lastRead := rfl
@[simp] theorem State.onAon_freeCtr (s : State) (f : AonS → AonS) : (s.onAon f).freeCtr = s.freeCtr := rfl

/-! `State.onDev` -/
@[simp] theorem State.onDev_pending (s : State) (f : DevS → DevS) : (s.onDev f).pending = s.pending := rfl
@[simp] theorem State.onDev_dtime (s : State) (f : DevS → DevS) : (s.onDev f).dtime = s.dtime := rfl
@[simp] theorem State.onDev_time (s : State) (f : DevS → DevS) : (s.onDev f).time = s.time := rfl
@[simp] theorem State.onDev_dev (s : State) (f : DevS → DevS) : (s.onDev f).dev = f s.dev := rfl
@[simp] theorem State.onDev_ports (s : State) (f : DevS → DevS) : (s.onDev f).ports = s.ports := rfl
@[simp] theorem State.onDev_fetchSeq (s : State) (f : DevS → DevS) : (s.onDev f).fetchSeq = s.fetchSeq := rfl
@[simp] theorem State.onDev_units (s : State) (f : DevS → DevS) : (s.onDev f).units = s.units := rfl
@[simp] theorem State.onDev_limits (s : State) (f : DevS → DevS) : (s.onDev f).limits = s.limits := rfl
@[simp] theorem State.onDev_chans (s : State) (f : DevS → DevS) : (s.onDev f).chans = s.chans := rfl
@[simp] theorem State.onDev_fpe (s : State) (f : DevS → DevS) : (s.onDev f).fpe = s.fpe := rfl
@[simp] theorem State.onDev_can (s : State) (f : DevS → DevS) : (s.onDev f).can = s.can := rfl
@[simp] theorem State.onDev_se (s : State) (f : DevS → DevS) : (s.onDev f).se = s.se := rfl
@[simp] theorem State.onDev_io (s : State) (f : DevS → DevS) : (s.onDev f).io = s.io := rfl
@[simp] theorem State.onDev_recorder (s : State) (f : DevS → DevS) : (s.onDev f).recorder = s.recorder := rfl
@[simp] theorem State.onDev_stor (s : State) (f : DevS → DevS) : (s.onDev f).stor = s.stor := rfl
@[simp] theorem State.onDev_hk (s : State) (f : DevS → DevS) : (s.onDev f).hk = s.hk := rfl
@[simp] theorem State.onDev_sup (s : State) (f : DevS → DevS) : (s.onDev f).sup = s.sup := rfl
@[simp] theorem State.onDev_aon (s : State) (f : DevS → DevS) : (s.onDev f).aon = s.aon := rfl
@[simp] theorem State.onDev_perf (s : State) (f : DevS → DevS) : (s.onDev f).perf = s.perf := rfl
@[simp] theorem State.onDev_jtag (s : State) (f : DevS → DevS) : (s.onDev f).jtag = s.jtag := rfl
@[simp] theorem State.onDev_outbox (s : State) (f : DevS → DevS) : (s.onDev f).outbox = s.outbox := rfl
@[simp] theorem State.onDev_lastRead (s : State) (f : DevS → DevS) : (s.onDev f).lastRead = s.lastRead := rfl
@[simp] theorem State.onDev_freeCtr (s : State) (f : DevS → DevS) : (s.onDev f).freeCtr = s.freeCtr := rfl

/-! `State.onFpe` -/
@[simp] theorem State.onFpe_pending (s : State) (f : FpeS → FpeS) : (s.onFpe f).pending = s.pending := rfl
@[simp] theorem State.onFpe_dtime (s : State) (f : FpeS → FpeS) : (s.onFpe f).dtime = s.dtime := rfl
@[simp] theorem State.onFpe_time (s : State) (f : FpeS → FpeS) : (s.onFpe f).time = s.time := rfl
@[simp] theorem State.onFpe_dev (s : State) (f : FpeS → FpeS) : (s.onFpe f).dev = s.dev := rfl
@[simp] theorem State.onFpe_ports (s : State) (f : FpeS → FpeS) : (s.onFpe f).ports = s.ports := rfl
@[simp] theorem State.onFpe_fetchSeq (s : State) (f : FpeS → FpeS) : (s.onFpe f).fetchSeq = s.fetchSeq := rfl
@[simp] theorem State.onFpe_units (s : State) (f : FpeS → FpeS) : (s.onFpe f).units = s.units := rfl
@[simp] theorem State.onFpe_limits (s : State) (f : FpeS → FpeS) : (s.onFpe f).limits = s.limits := rfl
@[simp] theorem State.onFpe_chans (s : State) (f : FpeS → FpeS) : (s.onFpe f).chans = s.chans := rfl
@[simp] theorem State.onFpe_fpe (s : State) (f : FpeS → FpeS) : (s.onFpe f).fpe = f s.fpe := rfl
@[simp] theorem State.onFpe_can (s : State) (f : FpeS → FpeS) : (s.onFpe f).can = s.can := rfl
@[simp] theorem State.onFpe_se (s : State) (f : FpeS → FpeS) : (s.onFpe f).se = s.se := rfl
@[simp] theorem State.onFpe_io (s : State) (f : FpeS → FpeS) : (s.onFpe f).io = s.io := rfl
@[simp] theorem State.onFpe_recorder (s : State) (f : FpeS → FpeS) : (s.onFpe f).recorder = s.recorder := rfl
@[simp] theorem State.onFpe_stor (s : State) (f : FpeS → FpeS) : (s.onFpe f).stor = s.stor := rfl
@[simp] theorem State.onFpe_hk (s : State) (f : FpeS → FpeS) : (s.onFpe f).hk = s.hk := rfl
@[simp] theorem State.onFpe_sup (s : State) (f : FpeS → FpeS) : (s.onFpe f).sup = s.sup := rfl
@[simp] theorem State.onFpe_aon (s : State) (f : FpeS → FpeS) : (s.onFpe f).aon = s.aon := rfl
@[simp] theorem State.onFpe_perf (s : State) (f : FpeS → FpeS) : (s.onFpe f).perf = s.perf := rfl
@[simp] theorem State.onFpe_jtag (s : State) (f : FpeS → FpeS) : (s.onFpe f).jtag = s.jtag := rfl
@[simp] theorem State.onFpe_outbox (s : State) (f : FpeS → FpeS) : (s.onFpe f).outbox = s.outbox := rfl
@[simp] theorem State.onFpe_lastRead (s : State) (f : FpeS → FpeS) : (s.onFpe f).lastRead = s.lastRead := rfl
@[simp] theorem State.onFpe_freeCtr (s : State) (f : FpeS → FpeS) : (s.onFpe f).freeCtr = s.freeCtr := rfl

/-! `State.onRaster` -/
@[simp] theorem State.onRaster_pending (s : State) (f : RasterS → RasterS) : (s.onRaster f).pending = s.pending := rfl
@[simp] theorem State.onRaster_dtime (s : State) (f : RasterS → RasterS) : (s.onRaster f).dtime = s.dtime := rfl
@[simp] theorem State.onRaster_time (s : State) (f : RasterS → RasterS) : (s.onRaster f).time = s.time := rfl
@[simp] theorem State.onRaster_dev (s : State) (f : RasterS → RasterS) : (s.onRaster f).dev = s.dev := rfl
@[simp] theorem State.onRaster_ports (s : State) (f : RasterS → RasterS) : (s.onRaster f).ports = s.ports := rfl
@[simp] theorem State.onRaster_fetchSeq (s : State) (f : RasterS → RasterS) : (s.onRaster f).fetchSeq = s.fetchSeq := rfl
@[simp] theorem State.onRaster_units (s : State) (f : RasterS → RasterS) : (s.onRaster f).units = s.units := rfl
@[simp] theorem State.onRaster_limits (s : State) (f : RasterS → RasterS) : (s.onRaster f).limits = s.limits := rfl
@[simp] theorem State.onRaster_chans (s : State) (f : RasterS → RasterS) : (s.onRaster f).chans = s.chans := rfl
@[simp] theorem State.onRaster_fpe (s : State) (f : RasterS → RasterS) : (s.onRaster f).fpe = { s.fpe with raster := f s.fpe.raster } := rfl
@[simp] theorem State.onRaster_can (s : State) (f : RasterS → RasterS) : (s.onRaster f).can = s.can := rfl
@[simp] theorem State.onRaster_se (s : State) (f : RasterS → RasterS) : (s.onRaster f).se = s.se := rfl
@[simp] theorem State.onRaster_io (s : State) (f : RasterS → RasterS) : (s.onRaster f).io = s.io := rfl
@[simp] theorem State.onRaster_recorder (s : State) (f : RasterS → RasterS) : (s.onRaster f).recorder = s.recorder := rfl
@[simp] theorem State.onRaster_stor (s : State) (f : RasterS → RasterS) : (s.onRaster f).stor = s.stor := rfl
@[simp] theorem State.onRaster_hk (s : State) (f : RasterS → RasterS) : (s.onRaster f).hk = s.hk := rfl
@[simp] theorem State.onRaster_sup (s : State) (f : RasterS → RasterS) : (s.onRaster f).sup = s.sup := rfl
@[simp] theorem State.onRaster_aon (s : State) (f : RasterS → RasterS) : (s.onRaster f).aon = s.aon := rfl
@[simp] theorem State.onRaster_perf (s : State) (f : RasterS → RasterS) : (s.onRaster f).perf = s.perf := rfl
@[simp] theorem State.onRaster_jtag (s : State) (f : RasterS → RasterS) : (s.onRaster f).jtag = s.jtag := rfl
@[simp] theorem State.onRaster_outbox (s : State) (f : RasterS → RasterS) : (s.onRaster f).outbox = s.outbox := rfl
@[simp] theorem State.onRaster_lastRead (s : State) (f : RasterS → RasterS) : (s.onRaster f).lastRead = s.lastRead := rfl
@[simp] theorem State.onRaster_freeCtr (s : State) (f : RasterS → RasterS) : (s.onRaster f).freeCtr = s.freeCtr := rfl

/-! `State.onCan` -/
@[simp] theorem State.onCan_pending (s : State) (k : CanId) (f : CanS → CanS) : (s.onCan k f).pending = s.pending := rfl
@[simp] theorem State.onCan_dtime (s : State) (k : CanId) (f : CanS → CanS) : (s.onCan k f).dtime = s.dtime := rfl
@[simp] theorem State.onCan_time (s : State) (k : CanId) (f : CanS → CanS) : (s.onCan k f).time = s.time := rfl
@[simp] theorem State.onCan_dev (s : State) (k : CanId) (f : CanS → CanS) : (s.onCan k f).dev = s.dev := rfl
@[simp] theorem State.onCan_ports (s : State) (k : CanId) (f : CanS → CanS) : (s.onCan k f).ports = s.ports := rfl
@[simp] theorem State.onCan_fetchSeq (s : State) (k : CanId) (f : CanS → CanS) : (s.onCan k f).fetchSeq = s.fetchSeq := rfl
@[simp] theorem State.onCan_units (s : State) (k : CanId) (f : CanS → CanS) : (s.onCan k f).units = s.units := rfl
@[simp] theorem State.onCan_limits (s : State) (k : CanId) (f : CanS → CanS) : (s.onCan k f).limits = s.limits := rfl
@[simp] theorem State.onCan_chans (s : State) (k : CanId) (f : CanS → CanS) : (s.onCan k f).chans = s.chans := rfl
@[simp] theorem State.onCan_fpe (s : State) (k : CanId) (f : CanS → CanS) : (s.onCan k f).fpe = s.fpe := rfl
@[simp] theorem State.onCan_can (s : State) (k : CanId) (f : CanS → CanS) : (s.onCan k f).can = s.can.set k (f s.can[k]) := rfl
@[simp] theorem State.onCan_se (s : State) (k : CanId) (f : CanS → CanS) : (s.onCan k f).se = s.se := rfl
@[simp] theorem State.onCan_io (s : State) (k : CanId) (f : CanS → CanS) : (s.onCan k f).io = s.io := rfl
@[simp] theorem State.onCan_recorder (s : State) (k : CanId) (f : CanS → CanS) : (s.onCan k f).recorder = s.recorder := rfl
@[simp] theorem State.onCan_stor (s : State) (k : CanId) (f : CanS → CanS) : (s.onCan k f).stor = s.stor := rfl
@[simp] theorem State.onCan_hk (s : State) (k : CanId) (f : CanS → CanS) : (s.onCan k f).hk = s.hk := rfl
@[simp] theorem State.onCan_sup (s : State) (k : CanId) (f : CanS → CanS) : (s.onCan k f).sup = s.sup := rfl
@[simp] theorem State.onCan_aon (s : State) (k : CanId) (f : CanS → CanS) : (s.onCan k f).aon = s.aon := rfl
@[simp] theorem State.onCan_perf (s : State) (k : CanId) (f : CanS → CanS) : (s.onCan k f).perf = s.perf := rfl
@[simp] theorem State.onCan_jtag (s : State) (k : CanId) (f : CanS → CanS) : (s.onCan k f).jtag = s.jtag := rfl
@[simp] theorem State.onCan_outbox (s : State) (k : CanId) (f : CanS → CanS) : (s.onCan k f).outbox = s.outbox := rfl
@[simp] theorem State.onCan_lastRead (s : State) (k : CanId) (f : CanS → CanS) : (s.onCan k f).lastRead = s.lastRead := rfl
@[simp] theorem State.onCan_freeCtr (s : State) (k : CanId) (f : CanS → CanS) : (s.onCan k f).freeCtr = s.freeCtr := rfl

/-! `State.onSe` -/
@[simp] theorem State.onSe_pending (s : State) (f : SeS → SeS) : (s.onSe f).pending = s.pending := rfl
@[simp] theorem State.onSe_dtime (s : State) (f : SeS → SeS) : (s.onSe f).dtime = s.dtime := rfl
@[simp] theorem State.onSe_time (s : State) (f : SeS → SeS) : (s.onSe f).time = s.time := rfl
@[simp] theorem State.onSe_dev (s : State) (f : SeS → SeS) : (s.onSe f).dev = s.dev := rfl
@[simp] theorem State.onSe_ports (s : State) (f : SeS → SeS) : (s.onSe f).ports = s.ports := rfl
@[simp] theorem State.onSe_fetchSeq (s : State) (f : SeS → SeS) : (s.onSe f).fetchSeq = s.fetchSeq := rfl
@[simp] theorem State.onSe_units (s : State) (f : SeS → SeS) : (s.onSe f).units = s.units := rfl
@[simp] theorem State.onSe_limits (s : State) (f : SeS → SeS) : (s.onSe f).limits = s.limits := rfl
@[simp] theorem State.onSe_chans (s : State) (f : SeS → SeS) : (s.onSe f).chans = s.chans := rfl
@[simp] theorem State.onSe_fpe (s : State) (f : SeS → SeS) : (s.onSe f).fpe = s.fpe := rfl
@[simp] theorem State.onSe_can (s : State) (f : SeS → SeS) : (s.onSe f).can = s.can := rfl
@[simp] theorem State.onSe_se (s : State) (f : SeS → SeS) : (s.onSe f).se = f s.se := rfl
@[simp] theorem State.onSe_io (s : State) (f : SeS → SeS) : (s.onSe f).io = s.io := rfl
@[simp] theorem State.onSe_recorder (s : State) (f : SeS → SeS) : (s.onSe f).recorder = s.recorder := rfl
@[simp] theorem State.onSe_stor (s : State) (f : SeS → SeS) : (s.onSe f).stor = s.stor := rfl
@[simp] theorem State.onSe_hk (s : State) (f : SeS → SeS) : (s.onSe f).hk = s.hk := rfl
@[simp] theorem State.onSe_sup (s : State) (f : SeS → SeS) : (s.onSe f).sup = s.sup := rfl
@[simp] theorem State.onSe_aon (s : State) (f : SeS → SeS) : (s.onSe f).aon = s.aon := rfl
@[simp] theorem State.onSe_perf (s : State) (f : SeS → SeS) : (s.onSe f).perf = s.perf := rfl
@[simp] theorem State.onSe_jtag (s : State) (f : SeS → SeS) : (s.onSe f).jtag = s.jtag := rfl
@[simp] theorem State.onSe_outbox (s : State) (f : SeS → SeS) : (s.onSe f).outbox = s.outbox := rfl
@[simp] theorem State.onSe_lastRead (s : State) (f : SeS → SeS) : (s.onSe f).lastRead = s.lastRead := rfl
@[simp] theorem State.onSe_freeCtr (s : State) (f : SeS → SeS) : (s.onSe f).freeCtr = s.freeCtr := rfl

/-! `State.onIo` -/
@[simp] theorem State.onIo_pending (s : State) (f : SafeIoS → SafeIoS) : (s.onIo f).pending = s.pending := rfl
@[simp] theorem State.onIo_dtime (s : State) (f : SafeIoS → SafeIoS) : (s.onIo f).dtime = s.dtime := rfl
@[simp] theorem State.onIo_time (s : State) (f : SafeIoS → SafeIoS) : (s.onIo f).time = s.time := rfl
@[simp] theorem State.onIo_dev (s : State) (f : SafeIoS → SafeIoS) : (s.onIo f).dev = s.dev := rfl
@[simp] theorem State.onIo_ports (s : State) (f : SafeIoS → SafeIoS) : (s.onIo f).ports = s.ports := rfl
@[simp] theorem State.onIo_fetchSeq (s : State) (f : SafeIoS → SafeIoS) : (s.onIo f).fetchSeq = s.fetchSeq := rfl
@[simp] theorem State.onIo_units (s : State) (f : SafeIoS → SafeIoS) : (s.onIo f).units = s.units := rfl
@[simp] theorem State.onIo_limits (s : State) (f : SafeIoS → SafeIoS) : (s.onIo f).limits = s.limits := rfl
@[simp] theorem State.onIo_chans (s : State) (f : SafeIoS → SafeIoS) : (s.onIo f).chans = s.chans := rfl
@[simp] theorem State.onIo_fpe (s : State) (f : SafeIoS → SafeIoS) : (s.onIo f).fpe = s.fpe := rfl
@[simp] theorem State.onIo_can (s : State) (f : SafeIoS → SafeIoS) : (s.onIo f).can = s.can := rfl
@[simp] theorem State.onIo_se (s : State) (f : SafeIoS → SafeIoS) : (s.onIo f).se = s.se := rfl
@[simp] theorem State.onIo_io (s : State) (f : SafeIoS → SafeIoS) : (s.onIo f).io = f s.io := rfl
@[simp] theorem State.onIo_recorder (s : State) (f : SafeIoS → SafeIoS) : (s.onIo f).recorder = s.recorder := rfl
@[simp] theorem State.onIo_stor (s : State) (f : SafeIoS → SafeIoS) : (s.onIo f).stor = s.stor := rfl
@[simp] theorem State.onIo_hk (s : State) (f : SafeIoS → SafeIoS) : (s.onIo f).hk = s.hk := rfl
@[simp] theorem State.onIo_sup (s : State) (f : SafeIoS → SafeIoS) : (s.onIo f).sup = s.sup := rfl
@[simp] theorem State.onIo_aon (s : State) (f : SafeIoS → SafeIoS) : (s.onIo f).aon = s.aon := rfl
@[simp] theorem State.onIo_perf (s : State) (f : SafeIoS → SafeIoS) : (s.onIo f).perf = s.perf := rfl
@[simp] theorem State.onIo_jtag (s : State) (f : SafeIoS → SafeIoS) : (s.onIo f).jtag = s.jtag := rfl
@[simp] theorem State.onIo_outbox (s : State) (f : SafeIoS → SafeIoS) : (s.onIo f).outbox = s.outbox := rfl
@[simp] theorem State.onIo_lastRead (s : State) (f : SafeIoS → SafeIoS) : (s.onIo f).lastRead = s.lastRead := rfl
@[simp] theorem State.onIo_freeCtr (s : State) (f : SafeIoS → SafeIoS) : (s.onIo f).freeCtr = s.freeCtr := rfl

/-! `State.onRec` -/
@[simp] theorem State.onRec_pending (s : State) (f : RecS → RecS) : (s.onRec f).pending = s.pending := rfl
@[simp] theorem State.onRec_dtime (s : State) (f : RecS → RecS) : (s.onRec f).dtime = s.dtime := rfl
@[simp] theorem State.onRec_time (s : State) (f : RecS → RecS) : (s.onRec f).time = s.time := rfl
@[simp] theorem State.onRec_dev (s : State) (f : RecS → RecS) : (s.onRec f).dev = s.dev := rfl
@[simp] theorem State.onRec_ports (s : State) (f : RecS → RecS) : (s.onRec f).ports = s.ports := rfl
@[simp] theorem State.onRec_fetchSeq (s : State) (f : RecS → RecS) : (s.onRec f).fetchSeq = s.fetchSeq := rfl
@[simp] theorem State.onRec_units (s : State) (f : RecS → RecS) : (s.onRec f).units = s.units := rfl
@[simp] theorem State.onRec_limits (s : State) (f : RecS → RecS) : (s.onRec f).limits = s.limits := rfl
@[simp] theorem State.onRec_chans (s : State) (f : RecS → RecS) : (s.onRec f).chans = s.chans := rfl
@[simp] theorem State.onRec_fpe (s : State) (f : RecS → RecS) : (s.onRec f).fpe = s.fpe := rfl
@[simp] theorem State.onRec_can (s : State) (f : RecS → RecS) : (s.onRec f).can = s.can := rfl
@[simp] theorem State.onRec_se (s : State) (f : RecS → RecS) : (s.onRec f).se = s.se := rfl
@[simp] theorem State.onRec_io (s : State) (f : RecS → RecS) : (s.onRec f).io = s.io := rfl
@[simp] theorem State.onRec_recorder (s : State) (f : RecS → RecS) : (s.onRec f).recorder = f s.recorder := rfl
@[simp] theorem State.onRec_stor (s : State) (f : RecS → RecS) : (s.onRec f).stor = s.stor := rfl
@[simp] theorem State.onRec_hk (s : State) (f : RecS → RecS) : (s.onRec f).hk = s.hk := rfl
@[simp] theorem State.onRec_sup (s : State) (f : RecS → RecS) : (s.onRec f).sup = s.sup := rfl
@[simp] theorem State.onRec_aon (s : State) (f : RecS → RecS) : (s.onRec f).aon = s.aon := rfl
@[simp] theorem State.onRec_perf (s : State) (f : RecS → RecS) : (s.onRec f).perf = s.perf := rfl
@[simp] theorem State.onRec_jtag (s : State) (f : RecS → RecS) : (s.onRec f).jtag = s.jtag := rfl
@[simp] theorem State.onRec_outbox (s : State) (f : RecS → RecS) : (s.onRec f).outbox = s.outbox := rfl
@[simp] theorem State.onRec_lastRead (s : State) (f : RecS → RecS) : (s.onRec f).lastRead = s.lastRead := rfl
@[simp] theorem State.onRec_freeCtr (s : State) (f : RecS → RecS) : (s.onRec f).freeCtr = s.freeCtr := rfl

/-! `State.onStor` -/
@[simp] theorem State.onStor_pending (s : State) (f : StorS → StorS) : (s.onStor f).pending = s.pending := rfl
@[simp] theorem State.onStor_dtime (s : State) (f : StorS → StorS) : (s.onStor f).dtime = s.dtime := rfl
@[simp] theorem State.onStor_time (s : State) (f : StorS → StorS) : (s.onStor f).time = s.time := rfl
@[simp] theorem State.onStor_dev (s : State) (f : StorS → StorS) : (s.onStor f).dev = s.dev := rfl
@[simp] theorem State.onStor_ports (s : State) (f : StorS → StorS) : (s.onStor f).ports = s.ports := rfl
@[simp] theorem State.onStor_fetchSeq (s : State) (f : StorS → StorS) : (s.onStor f).fetchSeq = s.fetchSeq := rfl
@[simp] theorem State.onStor_units (s : State) (f : StorS → StorS) : (s.onStor f).units = s.units := rfl
@[simp] theorem State.onStor_limits (s : State) (f : StorS → StorS) : (s.onStor f).limits = s.limits := rfl
@[simp] theorem State.onStor_chans (s : State) (f : StorS → StorS) : (s.onStor f).chans = s.chans := rfl
@[simp] theorem State.onStor_fpe (s : State) (f : StorS → StorS) : (s.onStor f).fpe = s.fpe := rfl
@[simp] theorem State.onStor_can (s : State) (f : StorS → StorS) : (s.onStor f).can = s.can := rfl
@[simp] theorem State.onStor_se (s : State) (f : StorS → StorS) : (s.onStor f).se = s.se := rfl
@[simp] theorem State.onStor_io (s : State) (f : StorS → StorS) : (s.onStor f).io = s.io := rfl
@[simp] theorem State.onStor_recorder (s : State) (f : StorS → StorS) : (s.onStor f).recorder = s.recorder := rfl
@[simp] theorem State.onStor_stor (s : State) (f : StorS → StorS) : (s.onStor f).stor = f s.stor := rfl
@[simp] theorem State.onStor_hk (s : State) (f : StorS → StorS) : (s.onStor f).hk = s.hk := rfl
@[simp] theorem State.onStor_sup (s : State) (f : StorS → StorS) : (s.onStor f).sup = s.sup := rfl
@[simp] theorem State.onStor_aon (s : State) (f : StorS → StorS) : (s.onStor f).aon = s.aon := rfl
@[simp] theorem State.onStor_perf (s : State) (f : StorS → StorS) : (s.onStor f).perf = s.perf := rfl
@[simp] theorem State.onStor_jtag (s : State) (f : StorS → StorS) : (s.onStor f).jtag = s.jtag := rfl
@[simp] theorem State.onStor_outbox (s : State) (f : StorS → StorS) : (s.onStor f).outbox = s.outbox := rfl
@[simp] theorem State.onStor_lastRead (s : State) (f : StorS → StorS) : (s.onStor f).lastRead = s.lastRead := rfl
@[simp] theorem State.onStor_freeCtr (s : State) (f : StorS → StorS) : (s.onStor f).freeCtr = s.freeCtr := rfl

/-! `State.onPort` -/
@[simp] theorem State.onPort_pending (s : State) (p : PortId) (f : PortS → PortS) : (s.onPort p f).pending = s.pending := rfl
@[simp] theorem State.onPort_dtime (s : State) (p : PortId) (f : PortS → PortS) : (s.onPort p f).dtime = s.dtime := rfl
@[simp] theorem State.onPort_time (s : State) (p : PortId) (f : PortS → PortS) : (s.onPort p f).time = s.time := rfl
@[simp] theorem State.onPort_dev (s : State) (p : PortId) (f : PortS → PortS) : (s.onPort p f).dev = s.dev := rfl
@[simp] theorem State.onPort_ports (s : State) (p : PortId) (f : PortS → PortS) : (s.onPort p f).ports = s.ports.set p (f s.ports[p]) := rfl
@[simp] theorem State.onPort_fetchSeq (s : State) (p : PortId) (f : PortS → PortS) : (s.onPort p f).fetchSeq = s.fetchSeq := rfl
@[simp] theorem State.onPort_units (s : State) (p : PortId) (f : PortS → PortS) : (s.onPort p f).units = s.units := rfl
@[simp] theorem State.onPort_limits (s : State) (p : PortId) (f : PortS → PortS) : (s.onPort p f).limits = s.limits := rfl
@[simp] theorem State.onPort_chans (s : State) (p : PortId) (f : PortS → PortS) : (s.onPort p f).chans = s.chans := rfl
@[simp] theorem State.onPort_fpe (s : State) (p : PortId) (f : PortS → PortS) : (s.onPort p f).fpe = s.fpe := rfl
@[simp] theorem State.onPort_can (s : State) (p : PortId) (f : PortS → PortS) : (s.onPort p f).can = s.can := rfl
@[simp] theorem State.onPort_se (s : State) (p : PortId) (f : PortS → PortS) : (s.onPort p f).se = s.se := rfl
@[simp] theorem State.onPort_io (s : State) (p : PortId) (f : PortS → PortS) : (s.onPort p f).io = s.io := rfl
@[simp] theorem State.onPort_recorder (s : State) (p : PortId) (f : PortS → PortS) : (s.onPort p f).recorder = s.recorder := rfl
@[simp] theorem State.onPort_stor (s : State) (p : PortId) (f : PortS → PortS) : (s.onPort p f).stor = s.stor := rfl
@[simp] theorem State.onPort_hk (s : State) (p : PortId) (f : PortS → PortS) : (s.onPort p f).hk = s.hk := rfl
@[simp] theorem State.onPort_sup (s : State) (p : PortId) (f : PortS → PortS) : (s.onPort p f).sup = s.sup := rfl
@[simp] theorem State.onPort_aon (s : State) (p : PortId) (f : PortS → PortS) : (s.onPort p f).aon = s.aon := rfl
@[simp] theorem State.onPort_perf (s : State) (p : PortId) (f : PortS → PortS) : (s.onPort p f).perf = s.perf := rfl
@[simp] theorem State.onPort_jtag (s : State) (p : PortId) (f : PortS → PortS) : (s.onPort p f).jtag = s.jtag := rfl
@[simp] theorem State.onPort_outbox (s : State) (p : PortId) (f : PortS → PortS) : (s.onPort p f).outbox = s.outbox := rfl
@[simp] theorem State.onPort_lastRead (s : State) (p : PortId) (f : PortS → PortS) : (s.onPort p f).lastRead = s.lastRead := rfl
@[simp] theorem State.onPort_freeCtr (s : State) (p : PortId) (f : PortS → PortS) : (s.onPort p f).freeCtr = s.freeCtr := rfl

/-! `State.onSq` -/
@[simp] theorem State.onSq_pending (s : State) (q : SqRef) (f : Sq → Sq) : (s.onSq q f).pending = s.pending := rfl
@[simp] theorem State.onSq_dtime (s : State) (q : SqRef) (f : Sq → Sq) : (s.onSq q f).dtime = s.dtime := rfl
@[simp] theorem State.onSq_time (s : State) (q : SqRef) (f : Sq → Sq) : (s.onSq q f).time = s.time := rfl
@[simp] theorem State.onSq_dev (s : State) (q : SqRef) (f : Sq → Sq) : (s.onSq q f).dev = s.dev := rfl
@[simp] theorem State.onSq_fetchSeq (s : State) (q : SqRef) (f : Sq → Sq) : (s.onSq q f).fetchSeq = s.fetchSeq := rfl
@[simp] theorem State.onSq_units (s : State) (q : SqRef) (f : Sq → Sq) : (s.onSq q f).units = s.units := rfl
@[simp] theorem State.onSq_limits (s : State) (q : SqRef) (f : Sq → Sq) : (s.onSq q f).limits = s.limits := rfl
@[simp] theorem State.onSq_chans (s : State) (q : SqRef) (f : Sq → Sq) : (s.onSq q f).chans = s.chans := rfl
@[simp] theorem State.onSq_fpe (s : State) (q : SqRef) (f : Sq → Sq) : (s.onSq q f).fpe = s.fpe := rfl
@[simp] theorem State.onSq_can (s : State) (q : SqRef) (f : Sq → Sq) : (s.onSq q f).can = s.can := rfl
@[simp] theorem State.onSq_se (s : State) (q : SqRef) (f : Sq → Sq) : (s.onSq q f).se = s.se := rfl
@[simp] theorem State.onSq_io (s : State) (q : SqRef) (f : Sq → Sq) : (s.onSq q f).io = s.io := rfl
@[simp] theorem State.onSq_recorder (s : State) (q : SqRef) (f : Sq → Sq) : (s.onSq q f).recorder = s.recorder := rfl
@[simp] theorem State.onSq_stor (s : State) (q : SqRef) (f : Sq → Sq) : (s.onSq q f).stor = s.stor := rfl
@[simp] theorem State.onSq_hk (s : State) (q : SqRef) (f : Sq → Sq) : (s.onSq q f).hk = s.hk := rfl
@[simp] theorem State.onSq_sup (s : State) (q : SqRef) (f : Sq → Sq) : (s.onSq q f).sup = s.sup := rfl
@[simp] theorem State.onSq_aon (s : State) (q : SqRef) (f : Sq → Sq) : (s.onSq q f).aon = s.aon := rfl
@[simp] theorem State.onSq_perf (s : State) (q : SqRef) (f : Sq → Sq) : (s.onSq q f).perf = s.perf := rfl
@[simp] theorem State.onSq_jtag (s : State) (q : SqRef) (f : Sq → Sq) : (s.onSq q f).jtag = s.jtag := rfl
@[simp] theorem State.onSq_outbox (s : State) (q : SqRef) (f : Sq → Sq) : (s.onSq q f).outbox = s.outbox := rfl
@[simp] theorem State.onSq_lastRead (s : State) (q : SqRef) (f : Sq → Sq) : (s.onSq q f).lastRead = s.lastRead := rfl
@[simp] theorem State.onSq_freeCtr (s : State) (q : SqRef) (f : Sq → Sq) : (s.onSq q f).freeCtr = s.freeCtr := rfl

/-! `State.loadAon` -/
@[simp] theorem State.loadAon_pending (s : State) : (s.loadAon).pending = s.pending := by cases s; rfl
@[simp] theorem State.loadAon_dtime (s : State) : (s.loadAon).dtime = s.dtime := by cases s; rfl
@[simp] theorem State.loadAon_time (s : State) : (s.loadAon).time = s.time := by cases s; rfl
@[simp] theorem State.loadAon_dev (s : State) : (s.loadAon).dev = s.dev := by cases s; rfl
@[simp] theorem State.loadAon_ports (s : State) : (s.loadAon).ports = s.ports := by cases s; rfl
@[simp] theorem State.loadAon_fetchSeq (s : State) : (s.loadAon).fetchSeq = s.fetchSeq := by cases s; rfl
@[simp] theorem State.loadAon_units (s : State) : (s.loadAon).units = s.units := by cases s; rfl
@[simp] theorem State.loadAon_limits (s : State) : (s.loadAon).limits = s.limits := by cases s; rfl
@[simp] theorem State.loadAon_chans (s : State) : (s.loadAon).chans = s.chans := by cases s; rfl
@[simp] theorem State.loadAon_fpe (s : State) : (s.loadAon).fpe = s.fpe := by cases s; rfl
@[simp] theorem State.loadAon_can (s : State) : (s.loadAon).can = s.can := by cases s; rfl
@[simp] theorem State.loadAon_se (s : State) : (s.loadAon).se = s.se := by cases s; rfl
@[simp] theorem State.loadAon_io (s : State) : (s.loadAon).io = s.io := by cases s; rfl
@[simp] theorem State.loadAon_recorder (s : State) : (s.loadAon).recorder = s.recorder := by cases s; rfl
@[simp] theorem State.loadAon_stor (s : State) : (s.loadAon).stor = s.stor := by cases s; rfl
@[simp] theorem State.loadAon_hk (s : State) : (s.loadAon).hk = s.hk := by cases s; rfl
@[simp] theorem State.loadAon_sup (s : State) : (s.loadAon).sup = s.sup := by cases s; rfl
@[simp] theorem State.loadAon_perf (s : State) : (s.loadAon).perf = s.perf := by cases s; rfl
@[simp] theorem State.loadAon_jtag (s : State) : (s.loadAon).jtag = s.jtag := by cases s; rfl
@[simp] theorem State.loadAon_outbox (s : State) : (s.loadAon).outbox = s.outbox := by cases s; rfl
@[simp] theorem State.loadAon_lastRead (s : State) : (s.loadAon).lastRead = s.lastRead := by cases s; rfl
@[simp] theorem State.loadAon_freeCtr (s : State) : (s.loadAon).freeCtr = s.freeCtr := by cases s; rfl

end Sys2Proof.Machine
end

