-- ==== Sys2Proof/Laws/Reports.lean ====
section
/-! SUPPORT. Reporting changes nothing but what is reported: each operation that writes to hosts or to the recorder leaves
everything else as it was. -/
namespace Sys2Proof.Machine

/-! ### Each operation of reporting leaves the rest of the device -/

theorem State.onPort_quiet (s : State) (p : PortId) (f : PortS → PortS) : (s.onPort p f).quiet = s.quiet := rfl
theorem State.onRec_quiet (s : State) (f : RecS → RecS) : (s.onRec f).quiet = s.quiet := rfl
theorem State.onSq_quiet (s : State) (q : SqRef) (f : Sq → Sq) : (s.onSq q f).quiet = s.quiet := rfl
theorem State.emit_quiet (s : State) (p : PortId) (b : Nat) (o : Out) : (s.emit p b o).quiet = s.quiet := rfl
theorem State.take_quiet (s : State) (q : SqRef) : (s.take q).quiet = s.quiet := rfl
theorem State.countDesc_quiet (s : State) (p : PortId) (b : Nat) : (s.countDesc p b).quiet = s.quiet := rfl
theorem State.countRd_quiet (s : State) (p : PortId) (b : Nat) : (s.countRd p b).quiet = s.quiet := rfl
theorem State.loseEvent_quiet (s : State) (p : PortId) : (s.loseEvent p).quiet = s.quiet := rfl

theorem State.sendMsix_quiet (s : State) (p : PortId) (v : Nat) : (s.sendMsix p v).quiet = s.quiet := by
  simp only [State.sendMsix]; repeat' split
  all_goals rfl

theorem State.irqCq_quiet (s : State) (p : PortId) (c : Fin 32) : (s.irqCq p c).quiet = s.quiet := by
  simp only [State.irqCq]; split
  · rw [State.sendMsix_quiet, State.onPort_quiet]
  · rfl

theorem State.irqEq_quiet (s : State) (p : PortId) : (s.irqEq p).quiet = s.quiet := by
  simp only [State.irqEq]; split
  · rw [State.sendMsix_quiet, State.onPort_quiet]
  · rfl

theorem State.writeEvent_quiet (s : State) (p : PortId) (r : Bool) (e : Ev) : (s.writeEvent p r e).quiet = s.quiet := by
  simp only [State.writeEvent, State.irqEq_quiet, State.emit_quiet, State.onPort_quiet]

theorem State.queueRec_quiet (s : State) (x : Rec) : (s.queueRec x).1.quiet = s.quiet := by
  simp only [State.queueRec]; repeat' split
  all_goals rfl

theorem State.queueOwn_quiet (s : State) (x : Rec) : (s.queueOwn x).1.quiet = s.quiet := by
  simp only [State.queueOwn]; repeat' split
  all_goals rfl

theorem State.flushLost_quiet (s : State) (p : PortId) : (s.flushLost p).quiet = s.quiet := by
  simp only [State.flushLost]; split
  · simp only [State.writeEvent_quiet, State.onPort_quiet, State.queueRec_quiet]
  · rfl

theorem State.deliver_quiet (s : State) (r : Bool) (e : Ev) (p : PortId) : (s.deliver r e p).quiet = s.quiet := by
  simp only [State.deliver]; split <;> simp only [State.writeEvent_quiet, State.loseEvent_quiet, State.flushLost_quiet]

/-- An operation repeated over a list keeps what each of its applications keeps. -/
theorem foldl_keeps {α β γ : Type} (g : β → γ) (f : β → α → β) (h : ∀ s a, g (f s a) = g s) (l : List α) (s : β) :
    g (l.foldl f s) = g s := by
  induction l generalizing s with
  | nil => rfl
  | cons a l ih => rw [List.foldl_cons, ih, h]

theorem State.raiseTo_quiet (s : State) (ps : List PortId) (e : Ev) : (s.raiseTo ps e).quiet = s.quiet := by
  simp only [State.raiseTo]
  rw [foldl_keeps State.quiet _ (fun s p => State.deliver_quiet s _ e p), State.queueRec_quiet]

theorem State.raiseAll_quiet (s : State) (c u t : Nat) (d : List EvField) : (s.raiseAll c u t d).quiet = s.quiet :=
  State.raiseTo_quiet _ _ _

theorem State.raisePort_quiet (s : State) (p : PortId) (c u t : Nat) (d : List EvField) :
    (s.raisePort p c u t d).quiet = s.quiet := State.raiseTo_quiet _ _ _

theorem State.raiseUnit_quiet (s : State) (c u t : Nat) (d : List EvField) : (s.raiseUnit c u t d).quiet = s.quiet :=
  State.raiseTo_quiet _ _ _

theorem State.raiseLimited_quiet (s : State) (c u o : Nat) (d : List EvField) :
    (s.raiseLimited c u o d).quiet = s.quiet := by
  simp only [State.raiseLimited]; split
  · rw [State.raiseUnit_quiet]; rfl
  · rfl

theorem State.writeCompletion_quiet (s : State) (p : PortId) (c : Fin 32) (x : Completion) :
    (s.writeCompletion p c x).quiet = s.quiet := by
  simp only [State.writeCompletion, State.irqCq_quiet, State.emit_quiet, State.onPort_quiet]

theorem State.complete_quiet (s : State) (q : SqRef) (x : Completion) : (s.complete q x).quiet = s.quiet := by
  simp only [State.complete]; repeat' split
  · rfl
  · rw [State.writeCompletion_quiet]
  · rfl

theorem State.settleHold_quiet (s : State) (p : PortId) : (s.settleHold p).quiet = s.quiet := by
  simp only [State.settleHold]; split <;> rfl

theorem State.finishHeld_quiet (s : State) (q : SqRef) (h : Held) (a b c d : Nat) :
    (s.finishHeld q h a b c d).quiet = s.quiet := by
  simp only [State.finishHeld]
  rw [foldl_keeps State.quiet _ (fun s x => State.complete_quiet s q x), State.onSq_quiet]

theorem State.finishAt_quiet (s : State) (u : Nat) (ops : List Nat) (a b c : Nat) (q : SqRef) :
    (s.finishAt u ops a b c q).quiet = s.quiet := by
  simp only [State.finishAt]; repeat' split
  · rw [State.finishHeld_quiet]
  all_goals rfl

theorem State.finish_quiet (s : State) (u : Nat) (ops : List Nat) (a b c : Nat) :
    (s.finish u ops a b c).quiet = s.quiet := foldl_keeps State.quiet _ (fun s q => State.finishAt_quiet s u ops a b c q) _ _

theorem State.request_quiet (s : State) (p : PortId) (w : ReadOf) (a l : Nat) : (s.request p w a l).quiet = s.quiet := rfl

theorem State.settlePba_quiet (s : State) (p : PortId) (v : Fin 64) : (s.settlePba p v).quiet = s.quiet := by
  simp only [State.settlePba]; split <;> rfl

/-! ### The same, field by field -/

theorem State.quiet_pending {s s1 : State} (h : s1.quiet = s.quiet) : s1.pending = s.pending := (congrArg State.pending h :)
theorem State.quiet_dtime {s s1 : State} (h : s1.quiet = s.quiet) : s1.dtime = s.dtime := (congrArg State.dtime h :)
theorem State.quiet_time {s s1 : State} (h : s1.quiet = s.quiet) : s1.time = s.time := (congrArg State.time h :)
theorem State.quiet_dev {s s1 : State} (h : s1.quiet = s.quiet) : s1.dev = s.dev := (congrArg State.dev h :)
theorem State.quiet_fetchSeq {s s1 : State} (h : s1.quiet = s.quiet) : s1.fetchSeq = s.fetchSeq := (congrArg State.fetchSeq h :)
theorem State.quiet_units {s s1 : State} (h : s1.quiet = s.quiet) : s1.units = s.units := (congrArg State.units h :)
theorem State.quiet_chans {s s1 : State} (h : s1.quiet = s.quiet) : s1.chans = s.chans := (congrArg State.chans h :)
theorem State.quiet_fpe {s s1 : State} (h : s1.quiet = s.quiet) : s1.fpe = s.fpe := (congrArg State.fpe h :)
theorem State.quiet_can {s s1 : State} (h : s1.quiet = s.quiet) : s1.can = s.can := (congrArg State.can h :)
theorem State.quiet_se {s s1 : State} (h : s1.quiet = s.quiet) : s1.se = s.se := (congrArg State.se h :)
theorem State.quiet_io {s s1 : State} (h : s1.quiet = s.quiet) : s1.io = s.io := (congrArg State.io h :)
theorem State.quiet_stor {s s1 : State} (h : s1.quiet = s.quiet) : s1.stor = s.stor := (congrArg State.stor h :)
theorem State.quiet_hk {s s1 : State} (h : s1.quiet = s.quiet) : s1.hk = s.hk := (congrArg State.hk h :)
theorem State.quiet_sup {s s1 : State} (h : s1.quiet = s.quiet) : s1.sup = s.sup := (congrArg State.sup h :)
theorem State.quiet_aon {s s1 : State} (h : s1.quiet = s.quiet) : s1.aon = s.aon := (congrArg State.aon h :)
theorem State.quiet_perf {s s1 : State} (h : s1.quiet = s.quiet) : s1.perf = s.perf := (congrArg State.perf h :)
theorem State.quiet_jtag {s s1 : State} (h : s1.quiet = s.quiet) : s1.jtag = s.jtag := (congrArg State.jtag h :)
theorem State.quiet_lastRead {s s1 : State} (h : s1.quiet = s.quiet) : s1.lastRead = s.lastRead := (congrArg State.lastRead h :)
theorem State.quiet_freeCtr {s s1 : State} (h : s1.quiet = s.quiet) : s1.freeCtr = s.freeCtr := (congrArg State.freeCtr h :)

@[simp] theorem State.emit_pending (s : State) (p : PortId) (b : Nat) (o : Out) : (s.emit p b o).pending = s.pending :=
  State.quiet_pending (State.emit_quiet s p b o)
@[simp] theorem State.emit_dtime (s : State) (p : PortId) (b : Nat) (o : Out) : (s.emit p b o).dtime = s.dtime :=
  State.quiet_dtime (State.emit_quiet s p b o)
@[simp] theorem State.emit_time (s : State) (p : PortId) (b : Nat) (o : Out) : (s.emit p b o).time = s.time :=
  State.quiet_time (State.emit_quiet s p b o)
@[simp] theorem State.emit_dev (s : State) (p : PortId) (b : Nat) (o : Out) : (s.emit p b o).dev = s.dev :=
  State.quiet_dev (State.emit_quiet s p b o)
@[simp] theorem State.emit_fetchSeq (s : State) (p : PortId) (b : Nat) (o : Out) : (s.emit p b o).fetchSeq = s.fetchSeq :=
  State.quiet_fetchSeq (State.emit_quiet s p b o)
@[simp] theorem State.emit_units (s : State) (p : PortId) (b : Nat) (o : Out) : (s.emit p b o).units = s.units :=
  State.quiet_units (State.emit_quiet s p b o)
@[simp] theorem State.emit_chans (s : State) (p : PortId) (b : Nat) (o : Out) : (s.emit p b o).chans = s.chans :=
  State.quiet_chans (State.emit_quiet s p b o)
@[simp] theorem State.emit_fpe (s : State) (p : PortId) (b : Nat) (o : Out) : (s.emit p b o).fpe = s.fpe :=
  State.quiet_fpe (State.emit_quiet s p b o)
@[simp] theorem State.emit_can (s : State) (p : PortId) (b : Nat) (o : Out) : (s.emit p b o).can = s.can :=
  State.quiet_can (State.emit_quiet s p b o)
@[simp] theorem State.emit_se (s : State) (p : PortId) (b : Nat) (o : Out) : (s.emit p b o).se = s.se :=
  State.quiet_se (State.emit_quiet s p b o)
@[simp] theorem State.emit_io (s : State) (p : PortId) (b : Nat) (o : Out) : (s.emit p b o).io = s.io :=
  State.quiet_io (State.emit_quiet s p b o)
@[simp] theorem State.emit_stor (s : State) (p : PortId) (b : Nat) (o : Out) : (s.emit p b o).stor = s.stor :=
  State.quiet_stor (State.emit_quiet s p b o)
@[simp] theorem State.emit_hk (s : State) (p : PortId) (b : Nat) (o : Out) : (s.emit p b o).hk = s.hk :=
  State.quiet_hk (State.emit_quiet s p b o)
@[simp] theorem State.emit_sup (s : State) (p : PortId) (b : Nat) (o : Out) : (s.emit p b o).sup = s.sup :=
  State.quiet_sup (State.emit_quiet s p b o)
@[simp] theorem State.emit_aon (s : State) (p : PortId) (b : Nat) (o : Out) : (s.emit p b o).aon = s.aon :=
  State.quiet_aon (State.emit_quiet s p b o)
@[simp] theorem State.emit_perf (s : State) (p : PortId) (b : Nat) (o : Out) : (s.emit p b o).perf = s.perf :=
  State.quiet_perf (State.emit_quiet s p b o)
@[simp] theorem State.emit_jtag (s : State) (p : PortId) (b : Nat) (o : Out) : (s.emit p b o).jtag = s.jtag :=
  State.quiet_jtag (State.emit_quiet s p b o)
@[simp] theorem State.emit_lastRead (s : State) (p : PortId) (b : Nat) (o : Out) : (s.emit p b o).lastRead = s.lastRead :=
  State.quiet_lastRead (State.emit_quiet s p b o)
@[simp] theorem State.emit_freeCtr (s : State) (p : PortId) (b : Nat) (o : Out) : (s.emit p b o).freeCtr = s.freeCtr :=
  State.quiet_freeCtr (State.emit_quiet s p b o)

@[simp] theorem State.take_pending (s : State) (q : SqRef) : (s.take q).pending = s.pending :=
  State.quiet_pending (State.take_quiet s q)
@[simp] theorem State.take_dtime (s : State) (q : SqRef) : (s.take q).dtime = s.dtime :=
  State.quiet_dtime (State.take_quiet s q)
@[simp] theorem State.take_time (s : State) (q : SqRef) : (s.take q).time = s.time :=
  State.quiet_time (State.take_quiet s q)
@[simp] theorem State.take_dev (s : State) (q : SqRef) : (s.take q).dev = s.dev :=
  State.quiet_dev (State.take_quiet s q)
@[simp] theorem State.take_fetchSeq (s : State) (q : SqRef) : (s.take q).fetchSeq = s.fetchSeq :=
  State.quiet_fetchSeq (State.take_quiet s q)
@[simp] theorem State.take_units (s : State) (q : SqRef) : (s.take q).units = s.units :=
  State.quiet_units (State.take_quiet s q)
@[simp] theorem State.take_chans (s : State) (q : SqRef) : (s.take q).chans = s.chans :=
  State.quiet_chans (State.take_quiet s q)
@[simp] theorem State.take_fpe (s : State) (q : SqRef) : (s.take q).fpe = s.fpe :=
  State.quiet_fpe (State.take_quiet s q)
@[simp] theorem State.take_can (s : State) (q : SqRef) : (s.take q).can = s.can :=
  State.quiet_can (State.take_quiet s q)
@[simp] theorem State.take_se (s : State) (q : SqRef) : (s.take q).se = s.se :=
  State.quiet_se (State.take_quiet s q)
@[simp] theorem State.take_io (s : State) (q : SqRef) : (s.take q).io = s.io :=
  State.quiet_io (State.take_quiet s q)
@[simp] theorem State.take_stor (s : State) (q : SqRef) : (s.take q).stor = s.stor :=
  State.quiet_stor (State.take_quiet s q)
@[simp] theorem State.take_hk (s : State) (q : SqRef) : (s.take q).hk = s.hk :=
  State.quiet_hk (State.take_quiet s q)
@[simp] theorem State.take_sup (s : State) (q : SqRef) : (s.take q).sup = s.sup :=
  State.quiet_sup (State.take_quiet s q)
@[simp] theorem State.take_aon (s : State) (q : SqRef) : (s.take q).aon = s.aon :=
  State.quiet_aon (State.take_quiet s q)
@[simp] theorem State.take_perf (s : State) (q : SqRef) : (s.take q).perf = s.perf :=
  State.quiet_perf (State.take_quiet s q)
@[simp] theorem State.take_jtag (s : State) (q : SqRef) : (s.take q).jtag = s.jtag :=
  State.quiet_jtag (State.take_quiet s q)
@[simp] theorem State.take_lastRead (s : State) (q : SqRef) : (s.take q).lastRead = s.lastRead :=
  State.quiet_lastRead (State.take_quiet s q)
@[simp] theorem State.take_freeCtr (s : State) (q : SqRef) : (s.take q).freeCtr = s.freeCtr :=
  State.quiet_freeCtr (State.take_quiet s q)

@[simp] theorem State.countDesc_pending (s : State) (p : PortId) (b : Nat) : (s.countDesc p b).pending = s.pending :=
  State.quiet_pending (State.countDesc_quiet s p b)
@[simp] theorem State.countDesc_dtime (s : State) (p : PortId) (b : Nat) : (s.countDesc p b).dtime = s.dtime :=
  State.quiet_dtime (State.countDesc_quiet s p b)
@[simp] theorem State.countDesc_time (s : State) (p : PortId) (b : Nat) : (s.countDesc p b).time = s.time :=
  State.quiet_time (State.countDesc_quiet s p b)
@[simp] theorem State.countDesc_dev (s : State) (p : PortId) (b : Nat) : (s.countDesc p b).dev = s.dev :=
  State.quiet_dev (State.countDesc_quiet s p b)
@[simp] theorem State.countDesc_fetchSeq (s : State) (p : PortId) (b : Nat) : (s.countDesc p b).fetchSeq = s.fetchSeq :=
  State.quiet_fetchSeq (State.countDesc_quiet s p b)
@[simp] theorem State.countDesc_units (s : State) (p : PortId) (b : Nat) : (s.countDesc p b).units = s.units :=
  State.quiet_units (State.countDesc_quiet s p b)
@[simp] theorem State.countDesc_chans (s : State) (p : PortId) (b : Nat) : (s.countDesc p b).chans = s.chans :=
  State.quiet_chans (State.countDesc_quiet s p b)
@[simp] theorem State.countDesc_fpe (s : State) (p : PortId) (b : Nat) : (s.countDesc p b).fpe = s.fpe :=
  State.quiet_fpe (State.countDesc_quiet s p b)
@[simp] theorem State.countDesc_can (s : State) (p : PortId) (b : Nat) : (s.countDesc p b).can = s.can :=
  State.quiet_can (State.countDesc_quiet s p b)
@[simp] theorem State.countDesc_se (s : State) (p : PortId) (b : Nat) : (s.countDesc p b).se = s.se :=
  State.quiet_se (State.countDesc_quiet s p b)
@[simp] theorem State.countDesc_io (s : State) (p : PortId) (b : Nat) : (s.countDesc p b).io = s.io :=
  State.quiet_io (State.countDesc_quiet s p b)
@[simp] theorem State.countDesc_stor (s : State) (p : PortId) (b : Nat) : (s.countDesc p b).stor = s.stor :=
  State.quiet_stor (State.countDesc_quiet s p b)
@[simp] theorem State.countDesc_hk (s : State) (p : PortId) (b : Nat) : (s.countDesc p b).hk = s.hk :=
  State.quiet_hk (State.countDesc_quiet s p b)
@[simp] theorem State.countDesc_sup (s : State) (p : PortId) (b : Nat) : (s.countDesc p b).sup = s.sup :=
  State.quiet_sup (State.countDesc_quiet s p b)
@[simp] theorem State.countDesc_aon (s : State) (p : PortId) (b : Nat) : (s.countDesc p b).aon = s.aon :=
  State.quiet_aon (State.countDesc_quiet s p b)
@[simp] theorem State.countDesc_perf (s : State) (p : PortId) (b : Nat) : (s.countDesc p b).perf = s.perf :=
  State.quiet_perf (State.countDesc_quiet s p b)
@[simp] theorem State.countDesc_jtag (s : State) (p : PortId) (b : Nat) : (s.countDesc p b).jtag = s.jtag :=
  State.quiet_jtag (State.countDesc_quiet s p b)
@[simp] theorem State.countDesc_lastRead (s : State) (p : PortId) (b : Nat) : (s.countDesc p b).lastRead = s.lastRead :=
  State.quiet_lastRead (State.countDesc_quiet s p b)
@[simp] theorem State.countDesc_freeCtr (s : State) (p : PortId) (b : Nat) : (s.countDesc p b).freeCtr = s.freeCtr :=
  State.quiet_freeCtr (State.countDesc_quiet s p b)

@[simp] theorem State.countRd_pending (s : State) (p : PortId) (b : Nat) : (s.countRd p b).pending = s.pending :=
  State.quiet_pending (State.countRd_quiet s p b)
@[simp] theorem State.countRd_dtime (s : State) (p : PortId) (b : Nat) : (s.countRd p b).dtime = s.dtime :=
  State.quiet_dtime (State.countRd_quiet s p b)
@[simp] theorem State.countRd_time (s : State) (p : PortId) (b : Nat) : (s.countRd p b).time = s.time :=
  State.quiet_time (State.countRd_quiet s p b)
@[simp] theorem State.countRd_dev (s : State) (p : PortId) (b : Nat) : (s.countRd p b).dev = s.dev :=
  State.quiet_dev (State.countRd_quiet s p b)
@[simp] theorem State.countRd_fetchSeq (s : State) (p : PortId) (b : Nat) : (s.countRd p b).fetchSeq = s.fetchSeq :=
  State.quiet_fetchSeq (State.countRd_quiet s p b)
@[simp] theorem State.countRd_units (s : State) (p : PortId) (b : Nat) : (s.countRd p b).units = s.units :=
  State.quiet_units (State.countRd_quiet s p b)
@[simp] theorem State.countRd_chans (s : State) (p : PortId) (b : Nat) : (s.countRd p b).chans = s.chans :=
  State.quiet_chans (State.countRd_quiet s p b)
@[simp] theorem State.countRd_fpe (s : State) (p : PortId) (b : Nat) : (s.countRd p b).fpe = s.fpe :=
  State.quiet_fpe (State.countRd_quiet s p b)
@[simp] theorem State.countRd_can (s : State) (p : PortId) (b : Nat) : (s.countRd p b).can = s.can :=
  State.quiet_can (State.countRd_quiet s p b)
@[simp] theorem State.countRd_se (s : State) (p : PortId) (b : Nat) : (s.countRd p b).se = s.se :=
  State.quiet_se (State.countRd_quiet s p b)
@[simp] theorem State.countRd_io (s : State) (p : PortId) (b : Nat) : (s.countRd p b).io = s.io :=
  State.quiet_io (State.countRd_quiet s p b)
@[simp] theorem State.countRd_stor (s : State) (p : PortId) (b : Nat) : (s.countRd p b).stor = s.stor :=
  State.quiet_stor (State.countRd_quiet s p b)
@[simp] theorem State.countRd_hk (s : State) (p : PortId) (b : Nat) : (s.countRd p b).hk = s.hk :=
  State.quiet_hk (State.countRd_quiet s p b)
@[simp] theorem State.countRd_sup (s : State) (p : PortId) (b : Nat) : (s.countRd p b).sup = s.sup :=
  State.quiet_sup (State.countRd_quiet s p b)
@[simp] theorem State.countRd_aon (s : State) (p : PortId) (b : Nat) : (s.countRd p b).aon = s.aon :=
  State.quiet_aon (State.countRd_quiet s p b)
@[simp] theorem State.countRd_perf (s : State) (p : PortId) (b : Nat) : (s.countRd p b).perf = s.perf :=
  State.quiet_perf (State.countRd_quiet s p b)
@[simp] theorem State.countRd_jtag (s : State) (p : PortId) (b : Nat) : (s.countRd p b).jtag = s.jtag :=
  State.quiet_jtag (State.countRd_quiet s p b)
@[simp] theorem State.countRd_lastRead (s : State) (p : PortId) (b : Nat) : (s.countRd p b).lastRead = s.lastRead :=
  State.quiet_lastRead (State.countRd_quiet s p b)
@[simp] theorem State.countRd_freeCtr (s : State) (p : PortId) (b : Nat) : (s.countRd p b).freeCtr = s.freeCtr :=
  State.quiet_freeCtr (State.countRd_quiet s p b)

@[simp] theorem State.request_pending (s : State) (p : PortId) (w : ReadOf) (b l : Nat) : (s.request p w b l).pending = s.pending :=
  State.quiet_pending (State.request_quiet s p w b l)
@[simp] theorem State.request_dtime (s : State) (p : PortId) (w : ReadOf) (b l : Nat) : (s.request p w b l).dtime = s.dtime :=
  State.quiet_dtime (State.request_quiet s p w b l)
@[simp] theorem State.request_time (s : State) (p : PortId) (w : ReadOf) (b l : Nat) : (s.request p w b l).time = s.time :=
  State.quiet_time (State.request_quiet s p w b l)
@[simp] theorem State.request_dev (s : State) (p : PortId) (w : ReadOf) (b l : Nat) : (s.request p w b l).dev = s.dev :=
  State.quiet_dev (State.request_quiet s p w b l)
@[simp] theorem State.request_fetchSeq (s : State) (p : PortId) (w : ReadOf) (b l : Nat) : (s.request p w b l).fetchSeq = s.fetchSeq :=
  State.quiet_fetchSeq (State.request_quiet s p w b l)
@[simp] theorem State.request_units (s : State) (p : PortId) (w : ReadOf) (b l : Nat) : (s.request p w b l).units = s.units :=
  State.quiet_units (State.request_quiet s p w b l)
@[simp] theorem State.request_chans (s : State) (p : PortId) (w : ReadOf) (b l : Nat) : (s.request p w b l).chans = s.chans :=
  State.quiet_chans (State.request_quiet s p w b l)
@[simp] theorem State.request_fpe (s : State) (p : PortId) (w : ReadOf) (b l : Nat) : (s.request p w b l).fpe = s.fpe :=
  State.quiet_fpe (State.request_quiet s p w b l)
@[simp] theorem State.request_can (s : State) (p : PortId) (w : ReadOf) (b l : Nat) : (s.request p w b l).can = s.can :=
  State.quiet_can (State.request_quiet s p w b l)
@[simp] theorem State.request_se (s : State) (p : PortId) (w : ReadOf) (b l : Nat) : (s.request p w b l).se = s.se :=
  State.quiet_se (State.request_quiet s p w b l)
@[simp] theorem State.request_io (s : State) (p : PortId) (w : ReadOf) (b l : Nat) : (s.request p w b l).io = s.io :=
  State.quiet_io (State.request_quiet s p w b l)
@[simp] theorem State.request_stor (s : State) (p : PortId) (w : ReadOf) (b l : Nat) : (s.request p w b l).stor = s.stor :=
  State.quiet_stor (State.request_quiet s p w b l)
@[simp] theorem State.request_hk (s : State) (p : PortId) (w : ReadOf) (b l : Nat) : (s.request p w b l).hk = s.hk :=
  State.quiet_hk (State.request_quiet s p w b l)
@[simp] theorem State.request_sup (s : State) (p : PortId) (w : ReadOf) (b l : Nat) : (s.request p w b l).sup = s.sup :=
  State.quiet_sup (State.request_quiet s p w b l)
@[simp] theorem State.request_aon (s : State) (p : PortId) (w : ReadOf) (b l : Nat) : (s.request p w b l).aon = s.aon :=
  State.quiet_aon (State.request_quiet s p w b l)
@[simp] theorem State.request_perf (s : State) (p : PortId) (w : ReadOf) (b l : Nat) : (s.request p w b l).perf = s.perf :=
  State.quiet_perf (State.request_quiet s p w b l)
@[simp] theorem State.request_jtag (s : State) (p : PortId) (w : ReadOf) (b l : Nat) : (s.request p w b l).jtag = s.jtag :=
  State.quiet_jtag (State.request_quiet s p w b l)
@[simp] theorem State.request_lastRead (s : State) (p : PortId) (w : ReadOf) (b l : Nat) : (s.request p w b l).lastRead = s.lastRead :=
  State.quiet_lastRead (State.request_quiet s p w b l)
@[simp] theorem State.request_freeCtr (s : State) (p : PortId) (w : ReadOf) (b l : Nat) : (s.request p w b l).freeCtr = s.freeCtr :=
  State.quiet_freeCtr (State.request_quiet s p w b l)

@[simp] theorem State.settlePba_pending (s : State) (p : PortId) (v : Fin 64) : (s.settlePba p v).pending = s.pending :=
  State.quiet_pending (State.settlePba_quiet s p v)
@[simp] theorem State.settlePba_dtime (s : State) (p : PortId) (v : Fin 64) : (s.settlePba p v).dtime = s.dtime :=
  State.quiet_dtime (State.settlePba_quiet s p v)
@[simp] theorem State.settlePba_time (s : State) (p : PortId) (v : Fin 64) : (s.settlePba p v).time = s.time :=
  State.quiet_time (State.settlePba_quiet s p v)
@[simp] theorem State.settlePba_dev (s : State) (p : PortId) (v : Fin 64) : (s.settlePba p v).dev = s.dev :=
  State.quiet_dev (State.settlePba_quiet s p v)
@[simp] theorem State.settlePba_fetchSeq (s : State) (p : PortId) (v : Fin 64) : (s.settlePba p v).fetchSeq = s.fetchSeq :=
  State.quiet_fetchSeq (State.settlePba_quiet s p v)
@[simp] theorem State.settlePba_units (s : State) (p : PortId) (v : Fin 64) : (s.settlePba p v).units = s.units :=
  State.quiet_units (State.settlePba_quiet s p v)
@[simp] theorem State.settlePba_chans (s : State) (p : PortId) (v : Fin 64) : (s.settlePba p v).chans = s.chans :=
  State.quiet_chans (State.settlePba_quiet s p v)
@[simp] theorem State.settlePba_fpe (s : State) (p : PortId) (v : Fin 64) : (s.settlePba p v).fpe = s.fpe :=
  State.quiet_fpe (State.settlePba_quiet s p v)
@[simp] theorem State.settlePba_can (s : State) (p : PortId) (v : Fin 64) : (s.settlePba p v).can = s.can :=
  State.quiet_can (State.settlePba_quiet s p v)
@[simp] theorem State.settlePba_se (s : State) (p : PortId) (v : Fin 64) : (s.settlePba p v).se = s.se :=
  State.quiet_se (State.settlePba_quiet s p v)
@[simp] theorem State.settlePba_io (s : State) (p : PortId) (v : Fin 64) : (s.settlePba p v).io = s.io :=
  State.quiet_io (State.settlePba_quiet s p v)
@[simp] theorem State.settlePba_stor (s : State) (p : PortId) (v : Fin 64) : (s.settlePba p v).stor = s.stor :=
  State.quiet_stor (State.settlePba_quiet s p v)
@[simp] theorem State.settlePba_hk (s : State) (p : PortId) (v : Fin 64) : (s.settlePba p v).hk = s.hk :=
  State.quiet_hk (State.settlePba_quiet s p v)
@[simp] theorem State.settlePba_sup (s : State) (p : PortId) (v : Fin 64) : (s.settlePba p v).sup = s.sup :=
  State.quiet_sup (State.settlePba_quiet s p v)
@[simp] theorem State.settlePba_aon (s : State) (p : PortId) (v : Fin 64) : (s.settlePba p v).aon = s.aon :=
  State.quiet_aon (State.settlePba_quiet s p v)
@[simp] theorem State.settlePba_perf (s : State) (p : PortId) (v : Fin 64) : (s.settlePba p v).perf = s.perf :=
  State.quiet_perf (State.settlePba_quiet s p v)
@[simp] theorem State.settlePba_jtag (s : State) (p : PortId) (v : Fin 64) : (s.settlePba p v).jtag = s.jtag :=
  State.quiet_jtag (State.settlePba_quiet s p v)
@[simp] theorem State.settlePba_lastRead (s : State) (p : PortId) (v : Fin 64) : (s.settlePba p v).lastRead = s.lastRead :=
  State.quiet_lastRead (State.settlePba_quiet s p v)
@[simp] theorem State.settlePba_freeCtr (s : State) (p : PortId) (v : Fin 64) : (s.settlePba p v).freeCtr = s.freeCtr :=
  State.quiet_freeCtr (State.settlePba_quiet s p v)

@[simp] theorem State.sendMsix_pending (s : State) (p : PortId) (v : Nat) : (s.sendMsix p v).pending = s.pending :=
  State.quiet_pending (State.sendMsix_quiet s p v)
@[simp] theorem State.sendMsix_dtime (s : State) (p : PortId) (v : Nat) : (s.sendMsix p v).dtime = s.dtime :=
  State.quiet_dtime (State.sendMsix_quiet s p v)
@[simp] theorem State.sendMsix_time (s : State) (p : PortId) (v : Nat) : (s.sendMsix p v).time = s.time :=
  State.quiet_time (State.sendMsix_quiet s p v)
@[simp] theorem State.sendMsix_dev (s : State) (p : PortId) (v : Nat) : (s.sendMsix p v).dev = s.dev :=
  State.quiet_dev (State.sendMsix_quiet s p v)
@[simp] theorem State.sendMsix_fetchSeq (s : State) (p : PortId) (v : Nat) : (s.sendMsix p v).fetchSeq = s.fetchSeq :=
  State.quiet_fetchSeq (State.sendMsix_quiet s p v)
@[simp] theorem State.sendMsix_units (s : State) (p : PortId) (v : Nat) : (s.sendMsix p v).units = s.units :=
  State.quiet_units (State.sendMsix_quiet s p v)
@[simp] theorem State.sendMsix_chans (s : State) (p : PortId) (v : Nat) : (s.sendMsix p v).chans = s.chans :=
  State.quiet_chans (State.sendMsix_quiet s p v)
@[simp] theorem State.sendMsix_fpe (s : State) (p : PortId) (v : Nat) : (s.sendMsix p v).fpe = s.fpe :=
  State.quiet_fpe (State.sendMsix_quiet s p v)
@[simp] theorem State.sendMsix_can (s : State) (p : PortId) (v : Nat) : (s.sendMsix p v).can = s.can :=
  State.quiet_can (State.sendMsix_quiet s p v)
@[simp] theorem State.sendMsix_se (s : State) (p : PortId) (v : Nat) : (s.sendMsix p v).se = s.se :=
  State.quiet_se (State.sendMsix_quiet s p v)
@[simp] theorem State.sendMsix_io (s : State) (p : PortId) (v : Nat) : (s.sendMsix p v).io = s.io :=
  State.quiet_io (State.sendMsix_quiet s p v)
@[simp] theorem State.sendMsix_stor (s : State) (p : PortId) (v : Nat) : (s.sendMsix p v).stor = s.stor :=
  State.quiet_stor (State.sendMsix_quiet s p v)
@[simp] theorem State.sendMsix_hk (s : State) (p : PortId) (v : Nat) : (s.sendMsix p v).hk = s.hk :=
  State.quiet_hk (State.sendMsix_quiet s p v)
@[simp] theorem State.sendMsix_sup (s : State) (p : PortId) (v : Nat) : (s.sendMsix p v).sup = s.sup :=
  State.quiet_sup (State.sendMsix_quiet s p v)
@[simp] theorem State.sendMsix_aon (s : State) (p : PortId) (v : Nat) : (s.sendMsix p v).aon = s.aon :=
  State.quiet_aon (State.sendMsix_quiet s p v)
@[simp] theorem State.sendMsix_perf (s : State) (p : PortId) (v : Nat) : (s.sendMsix p v).perf = s.perf :=
  State.quiet_perf (State.sendMsix_quiet s p v)
@[simp] theorem State.sendMsix_jtag (s : State) (p : PortId) (v : Nat) : (s.sendMsix p v).jtag = s.jtag :=
  State.quiet_jtag (State.sendMsix_quiet s p v)
@[simp] theorem State.sendMsix_lastRead (s : State) (p : PortId) (v : Nat) : (s.sendMsix p v).lastRead = s.lastRead :=
  State.quiet_lastRead (State.sendMsix_quiet s p v)
@[simp] theorem State.sendMsix_freeCtr (s : State) (p : PortId) (v : Nat) : (s.sendMsix p v).freeCtr = s.freeCtr :=
  State.quiet_freeCtr (State.sendMsix_quiet s p v)

@[simp] theorem State.irqCq_pending (s : State) (p : PortId) (c : Fin 32) : (s.irqCq p c).pending = s.pending :=
  State.quiet_pending (State.irqCq_quiet s p c)
@[simp] theorem State.irqCq_dtime (s : State) (p : PortId) (c : Fin 32) : (s.irqCq p c).dtime = s.dtime :=
  State.quiet_dtime (State.irqCq_quiet s p c)
@[simp] theorem State.irqCq_time (s : State) (p : PortId) (c : Fin 32) : (s.irqCq p c).time = s.time :=
  State.quiet_time (State.irqCq_quiet s p c)
@[simp] theorem State.irqCq_dev (s : State) (p : PortId) (c : Fin 32) : (s.irqCq p c).dev = s.dev :=
  State.quiet_dev (State.irqCq_quiet s p c)
@[simp] theorem State.irqCq_fetchSeq (s : State) (p : PortId) (c : Fin 32) : (s.irqCq p c).fetchSeq = s.fetchSeq :=
  State.quiet_fetchSeq (State.irqCq_quiet s p c)
@[simp] theorem State.irqCq_units (s : State) (p : PortId) (c : Fin 32) : (s.irqCq p c).units = s.units :=
  State.quiet_units (State.irqCq_quiet s p c)
@[simp] theorem State.irqCq_chans (s : State) (p : PortId) (c : Fin 32) : (s.irqCq p c).chans = s.chans :=
  State.quiet_chans (State.irqCq_quiet s p c)
@[simp] theorem State.irqCq_fpe (s : State) (p : PortId) (c : Fin 32) : (s.irqCq p c).fpe = s.fpe :=
  State.quiet_fpe (State.irqCq_quiet s p c)
@[simp] theorem State.irqCq_can (s : State) (p : PortId) (c : Fin 32) : (s.irqCq p c).can = s.can :=
  State.quiet_can (State.irqCq_quiet s p c)
@[simp] theorem State.irqCq_se (s : State) (p : PortId) (c : Fin 32) : (s.irqCq p c).se = s.se :=
  State.quiet_se (State.irqCq_quiet s p c)
@[simp] theorem State.irqCq_io (s : State) (p : PortId) (c : Fin 32) : (s.irqCq p c).io = s.io :=
  State.quiet_io (State.irqCq_quiet s p c)
@[simp] theorem State.irqCq_stor (s : State) (p : PortId) (c : Fin 32) : (s.irqCq p c).stor = s.stor :=
  State.quiet_stor (State.irqCq_quiet s p c)
@[simp] theorem State.irqCq_hk (s : State) (p : PortId) (c : Fin 32) : (s.irqCq p c).hk = s.hk :=
  State.quiet_hk (State.irqCq_quiet s p c)
@[simp] theorem State.irqCq_sup (s : State) (p : PortId) (c : Fin 32) : (s.irqCq p c).sup = s.sup :=
  State.quiet_sup (State.irqCq_quiet s p c)
@[simp] theorem State.irqCq_aon (s : State) (p : PortId) (c : Fin 32) : (s.irqCq p c).aon = s.aon :=
  State.quiet_aon (State.irqCq_quiet s p c)
@[simp] theorem State.irqCq_perf (s : State) (p : PortId) (c : Fin 32) : (s.irqCq p c).perf = s.perf :=
  State.quiet_perf (State.irqCq_quiet s p c)
@[simp] theorem State.irqCq_jtag (s : State) (p : PortId) (c : Fin 32) : (s.irqCq p c).jtag = s.jtag :=
  State.quiet_jtag (State.irqCq_quiet s p c)
@[simp] theorem State.irqCq_lastRead (s : State) (p : PortId) (c : Fin 32) : (s.irqCq p c).lastRead = s.lastRead :=
  State.quiet_lastRead (State.irqCq_quiet s p c)
@[simp] theorem State.irqCq_freeCtr (s : State) (p : PortId) (c : Fin 32) : (s.irqCq p c).freeCtr = s.freeCtr :=
  State.quiet_freeCtr (State.irqCq_quiet s p c)

@[simp] theorem State.irqEq_pending (s : State) (p : PortId) : (s.irqEq p).pending = s.pending :=
  State.quiet_pending (State.irqEq_quiet s p)
@[simp] theorem State.irqEq_dtime (s : State) (p : PortId) : (s.irqEq p).dtime = s.dtime :=
  State.quiet_dtime (State.irqEq_quiet s p)
@[simp] theorem State.irqEq_time (s : State) (p : PortId) : (s.irqEq p).time = s.time :=
  State.quiet_time (State.irqEq_quiet s p)
@[simp] theorem State.irqEq_dev (s : State) (p : PortId) : (s.irqEq p).dev = s.dev :=
  State.quiet_dev (State.irqEq_quiet s p)
@[simp] theorem State.irqEq_fetchSeq (s : State) (p : PortId) : (s.irqEq p).fetchSeq = s.fetchSeq :=
  State.quiet_fetchSeq (State.irqEq_quiet s p)
@[simp] theorem State.irqEq_units (s : State) (p : PortId) : (s.irqEq p).units = s.units :=
  State.quiet_units (State.irqEq_quiet s p)
@[simp] theorem State.irqEq_chans (s : State) (p : PortId) : (s.irqEq p).chans = s.chans :=
  State.quiet_chans (State.irqEq_quiet s p)
@[simp] theorem State.irqEq_fpe (s : State) (p : PortId) : (s.irqEq p).fpe = s.fpe :=
  State.quiet_fpe (State.irqEq_quiet s p)
@[simp] theorem State.irqEq_can (s : State) (p : PortId) : (s.irqEq p).can = s.can :=
  State.quiet_can (State.irqEq_quiet s p)
@[simp] theorem State.irqEq_se (s : State) (p : PortId) : (s.irqEq p).se = s.se :=
  State.quiet_se (State.irqEq_quiet s p)
@[simp] theorem State.irqEq_io (s : State) (p : PortId) : (s.irqEq p).io = s.io :=
  State.quiet_io (State.irqEq_quiet s p)
@[simp] theorem State.irqEq_stor (s : State) (p : PortId) : (s.irqEq p).stor = s.stor :=
  State.quiet_stor (State.irqEq_quiet s p)
@[simp] theorem State.irqEq_hk (s : State) (p : PortId) : (s.irqEq p).hk = s.hk :=
  State.quiet_hk (State.irqEq_quiet s p)
@[simp] theorem State.irqEq_sup (s : State) (p : PortId) : (s.irqEq p).sup = s.sup :=
  State.quiet_sup (State.irqEq_quiet s p)
@[simp] theorem State.irqEq_aon (s : State) (p : PortId) : (s.irqEq p).aon = s.aon :=
  State.quiet_aon (State.irqEq_quiet s p)
@[simp] theorem State.irqEq_perf (s : State) (p : PortId) : (s.irqEq p).perf = s.perf :=
  State.quiet_perf (State.irqEq_quiet s p)
@[simp] theorem State.irqEq_jtag (s : State) (p : PortId) : (s.irqEq p).jtag = s.jtag :=
  State.quiet_jtag (State.irqEq_quiet s p)
@[simp] theorem State.irqEq_lastRead (s : State) (p : PortId) : (s.irqEq p).lastRead = s.lastRead :=
  State.quiet_lastRead (State.irqEq_quiet s p)
@[simp] theorem State.irqEq_freeCtr (s : State) (p : PortId) : (s.irqEq p).freeCtr = s.freeCtr :=
  State.quiet_freeCtr (State.irqEq_quiet s p)

@[simp] theorem State.raiseTo_pending (s : State) (ps : List PortId) (e : Ev) : (s.raiseTo ps e).pending = s.pending :=
  State.quiet_pending (State.raiseTo_quiet s ps e)
@[simp] theorem State.raiseTo_dtime (s : State) (ps : List PortId) (e : Ev) : (s.raiseTo ps e).dtime = s.dtime :=
  State.quiet_dtime (State.raiseTo_quiet s ps e)
@[simp] theorem State.raiseTo_time (s : State) (ps : List PortId) (e : Ev) : (s.raiseTo ps e).time = s.time :=
  State.quiet_time (State.raiseTo_quiet s ps e)
@[simp] theorem State.raiseTo_dev (s : State) (ps : List PortId) (e : Ev) : (s.raiseTo ps e).dev = s.dev :=
  State.quiet_dev (State.raiseTo_quiet s ps e)
@[simp] theorem State.raiseTo_fetchSeq (s : State) (ps : List PortId) (e : Ev) : (s.raiseTo ps e).fetchSeq = s.fetchSeq :=
  State.quiet_fetchSeq (State.raiseTo_quiet s ps e)
@[simp] theorem State.raiseTo_units (s : State) (ps : List PortId) (e : Ev) : (s.raiseTo ps e).units = s.units :=
  State.quiet_units (State.raiseTo_quiet s ps e)
@[simp] theorem State.raiseTo_chans (s : State) (ps : List PortId) (e : Ev) : (s.raiseTo ps e).chans = s.chans :=
  State.quiet_chans (State.raiseTo_quiet s ps e)
@[simp] theorem State.raiseTo_fpe (s : State) (ps : List PortId) (e : Ev) : (s.raiseTo ps e).fpe = s.fpe :=
  State.quiet_fpe (State.raiseTo_quiet s ps e)
@[simp] theorem State.raiseTo_can (s : State) (ps : List PortId) (e : Ev) : (s.raiseTo ps e).can = s.can :=
  State.quiet_can (State.raiseTo_quiet s ps e)
@[simp] theorem State.raiseTo_se (s : State) (ps : List PortId) (e : Ev) : (s.raiseTo ps e).se = s.se :=
  State.quiet_se (State.raiseTo_quiet s ps e)
@[simp] theorem State.raiseTo_io (s : State) (ps : List PortId) (e : Ev) : (s.raiseTo ps e).io = s.io :=
  State.quiet_io (State.raiseTo_quiet s ps e)
@[simp] theorem State.raiseTo_stor (s : State) (ps : List PortId) (e : Ev) : (s.raiseTo ps e).stor = s.stor :=
  State.quiet_stor (State.raiseTo_quiet s ps e)
@[simp] theorem State.raiseTo_hk (s : State) (ps : List PortId) (e : Ev) : (s.raiseTo ps e).hk = s.hk :=
  State.quiet_hk (State.raiseTo_quiet s ps e)
@[simp] theorem State.raiseTo_sup (s : State) (ps : List PortId) (e : Ev) : (s.raiseTo ps e).sup = s.sup :=
  State.quiet_sup (State.raiseTo_quiet s ps e)
@[simp] theorem State.raiseTo_aon (s : State) (ps : List PortId) (e : Ev) : (s.raiseTo ps e).aon = s.aon :=
  State.quiet_aon (State.raiseTo_quiet s ps e)
@[simp] theorem State.raiseTo_perf (s : State) (ps : List PortId) (e : Ev) : (s.raiseTo ps e).perf = s.perf :=
  State.quiet_perf (State.raiseTo_quiet s ps e)
@[simp] theorem State.raiseTo_jtag (s : State) (ps : List PortId) (e : Ev) : (s.raiseTo ps e).jtag = s.jtag :=
  State.quiet_jtag (State.raiseTo_quiet s ps e)
@[simp] theorem State.raiseTo_lastRead (s : State) (ps : List PortId) (e : Ev) : (s.raiseTo ps e).lastRead = s.lastRead :=
  State.quiet_lastRead (State.raiseTo_quiet s ps e)
@[simp] theorem State.raiseTo_freeCtr (s : State) (ps : List PortId) (e : Ev) : (s.raiseTo ps e).freeCtr = s.freeCtr :=
  State.quiet_freeCtr (State.raiseTo_quiet s ps e)

@[simp] theorem State.raiseAll_pending (s : State) (c u t : Nat) (d : List EvField) : (s.raiseAll c u t d).pending = s.pending :=
  State.quiet_pending (State.raiseAll_quiet s c u t d)
@[simp] theorem State.raiseAll_dtime (s : State) (c u t : Nat) (d : List EvField) : (s.raiseAll c u t d).dtime = s.dtime :=
  State.quiet_dtime (State.raiseAll_quiet s c u t d)
@[simp] theorem State.raiseAll_time (s : State) (c u t : Nat) (d : List EvField) : (s.raiseAll c u t d).time = s.time :=
  State.quiet_time (State.raiseAll_quiet s c u t d)
@[simp] theorem State.raiseAll_dev (s : State) (c u t : Nat) (d : List EvField) : (s.raiseAll c u t d).dev = s.dev :=
  State.quiet_dev (State.raiseAll_quiet s c u t d)
@[simp] theorem State.raiseAll_fetchSeq (s : State) (c u t : Nat) (d : List EvField) : (s.raiseAll c u t d).fetchSeq = s.fetchSeq :=
  State.quiet_fetchSeq (State.raiseAll_quiet s c u t d)
@[simp] theorem State.raiseAll_units (s : State) (c u t : Nat) (d : List EvField) : (s.raiseAll c u t d).units = s.units :=
  State.quiet_units (State.raiseAll_quiet s c u t d)
@[simp] theorem State.raiseAll_chans (s : State) (c u t : Nat) (d : List EvField) : (s.raiseAll c u t d).chans = s.chans :=
  State.quiet_chans (State.raiseAll_quiet s c u t d)
@[simp] theorem State.raiseAll_fpe (s : State) (c u t : Nat) (d : List EvField) : (s.raiseAll c u t d).fpe = s.fpe :=
  State.quiet_fpe (State.raiseAll_quiet s c u t d)
@[simp] theorem State.raiseAll_can (s : State) (c u t : Nat) (d : List EvField) : (s.raiseAll c u t d).can = s.can :=
  State.quiet_can (State.raiseAll_quiet s c u t d)
@[simp] theorem State.raiseAll_se (s : State) (c u t : Nat) (d : List EvField) : (s.raiseAll c u t d).se = s.se :=
  State.quiet_se (State.raiseAll_quiet s c u t d)
@[simp] theorem State.raiseAll_io (s : State) (c u t : Nat) (d : List EvField) : (s.raiseAll c u t d).io = s.io :=
  State.quiet_io (State.raiseAll_quiet s c u t d)
@[simp] theorem State.raiseAll_stor (s : State) (c u t : Nat) (d : List EvField) : (s.raiseAll c u t d).stor = s.stor :=
  State.quiet_stor (State.raiseAll_quiet s c u t d)
@[simp] theorem State.raiseAll_hk (s : State) (c u t : Nat) (d : List EvField) : (s.raiseAll c u t d).hk = s.hk :=
  State.quiet_hk (State.raiseAll_quiet s c u t d)
@[simp] theorem State.raiseAll_sup (s : State) (c u t : Nat) (d : List EvField) : (s.raiseAll c u t d).sup = s.sup :=
  State.quiet_sup (State.raiseAll_quiet s c u t d)
@[simp] theorem State.raiseAll_aon (s : State) (c u t : Nat) (d : List EvField) : (s.raiseAll c u t d).aon = s.aon :=
  State.quiet_aon (State.raiseAll_quiet s c u t d)
@[simp] theorem State.raiseAll_perf (s : State) (c u t : Nat) (d : List EvField) : (s.raiseAll c u t d).perf = s.perf :=
  State.quiet_perf (State.raiseAll_quiet s c u t d)
@[simp] theorem State.raiseAll_jtag (s : State) (c u t : Nat) (d : List EvField) : (s.raiseAll c u t d).jtag = s.jtag :=
  State.quiet_jtag (State.raiseAll_quiet s c u t d)
@[simp] theorem State.raiseAll_lastRead (s : State) (c u t : Nat) (d : List EvField) : (s.raiseAll c u t d).lastRead = s.lastRead :=
  State.quiet_lastRead (State.raiseAll_quiet s c u t d)
@[simp] theorem State.raiseAll_freeCtr (s : State) (c u t : Nat) (d : List EvField) : (s.raiseAll c u t d).freeCtr = s.freeCtr :=
  State.quiet_freeCtr (State.raiseAll_quiet s c u t d)

@[simp] theorem State.raisePort_pending (s : State) (p : PortId) (c u t : Nat) (d : List EvField) : (s.raisePort p c u t d).pending = s.pending :=
  State.quiet_pending (State.raisePort_quiet s p c u t d)
@[simp] theorem State.raisePort_dtime (s : State) (p : PortId) (c u t : Nat) (d : List EvField) : (s.raisePort p c u t d).dtime = s.dtime :=
  State.quiet_dtime (State.raisePort_quiet s p c u t d)
@[simp] theorem State.raisePort_time (s : State) (p : PortId) (c u t : Nat) (d : List EvField) : (s.raisePort p c u t d).time = s.time :=
  State.quiet_time (State.raisePort_quiet s p c u t d)
@[simp] theorem State.raisePort_dev (s : State) (p : PortId) (c u t : Nat) (d : List EvField) : (s.raisePort p c u t d).dev = s.dev :=
  State.quiet_dev (State.raisePort_quiet s p c u t d)
@[simp] theorem State.raisePort_fetchSeq (s : State) (p : PortId) (c u t : Nat) (d : List EvField) : (s.raisePort p c u t d).fetchSeq = s.fetchSeq :=
  State.quiet_fetchSeq (State.raisePort_quiet s p c u t d)
@[simp] theorem State.raisePort_units (s : State) (p : PortId) (c u t : Nat) (d : List EvField) : (s.raisePort p c u t d).units = s.units :=
  State.quiet_units (State.raisePort_quiet s p c u t d)
@[simp] theorem State.raisePort_chans (s : State) (p : PortId) (c u t : Nat) (d : List EvField) : (s.raisePort p c u t d).chans = s.chans :=
  State.quiet_chans (State.raisePort_quiet s p c u t d)
@[simp] theorem State.raisePort_fpe (s : State) (p : PortId) (c u t : Nat) (d : List EvField) : (s.raisePort p c u t d).fpe = s.fpe :=
  State.quiet_fpe (State.raisePort_quiet s p c u t d)
@[simp] theorem State.raisePort_can (s : State) (p : PortId) (c u t : Nat) (d : List EvField) : (s.raisePort p c u t d).can = s.can :=
  State.quiet_can (State.raisePort_quiet s p c u t d)
@[simp] theorem State.raisePort_se (s : State) (p : PortId) (c u t : Nat) (d : List EvField) : (s.raisePort p c u t d).se = s.se :=
  State.quiet_se (State.raisePort_quiet s p c u t d)
@[simp] theorem State.raisePort_io (s : State) (p : PortId) (c u t : Nat) (d : List EvField) : (s.raisePort p c u t d).io = s.io :=
  State.quiet_io (State.raisePort_quiet s p c u t d)
@[simp] theorem State.raisePort_stor (s : State) (p : PortId) (c u t : Nat) (d : List EvField) : (s.raisePort p c u t d).stor = s.stor :=
  State.quiet_stor (State.raisePort_quiet s p c u t d)
@[simp] theorem State.raisePort_hk (s : State) (p : PortId) (c u t : Nat) (d : List EvField) : (s.raisePort p c u t d).hk = s.hk :=
  State.quiet_hk (State.raisePort_quiet s p c u t d)
@[simp] theorem State.raisePort_sup (s : State) (p : PortId) (c u t : Nat) (d : List EvField) : (s.raisePort p c u t d).sup = s.sup :=
  State.quiet_sup (State.raisePort_quiet s p c u t d)
@[simp] theorem State.raisePort_aon (s : State) (p : PortId) (c u t : Nat) (d : List EvField) : (s.raisePort p c u t d).aon = s.aon :=
  State.quiet_aon (State.raisePort_quiet s p c u t d)
@[simp] theorem State.raisePort_perf (s : State) (p : PortId) (c u t : Nat) (d : List EvField) : (s.raisePort p c u t d).perf = s.perf :=
  State.quiet_perf (State.raisePort_quiet s p c u t d)
@[simp] theorem State.raisePort_jtag (s : State) (p : PortId) (c u t : Nat) (d : List EvField) : (s.raisePort p c u t d).jtag = s.jtag :=
  State.quiet_jtag (State.raisePort_quiet s p c u t d)
@[simp] theorem State.raisePort_lastRead (s : State) (p : PortId) (c u t : Nat) (d : List EvField) : (s.raisePort p c u t d).lastRead = s.lastRead :=
  State.quiet_lastRead (State.raisePort_quiet s p c u t d)
@[simp] theorem State.raisePort_freeCtr (s : State) (p : PortId) (c u t : Nat) (d : List EvField) : (s.raisePort p c u t d).freeCtr = s.freeCtr :=
  State.quiet_freeCtr (State.raisePort_quiet s p c u t d)

@[simp] theorem State.raiseUnit_pending (s : State) (c u t : Nat) (d : List EvField) : (s.raiseUnit c u t d).pending = s.pending :=
  State.quiet_pending (State.raiseUnit_quiet s c u t d)
@[simp] theorem State.raiseUnit_dtime (s : State) (c u t : Nat) (d : List EvField) : (s.raiseUnit c u t d).dtime = s.dtime :=
  State.quiet_dtime (State.raiseUnit_quiet s c u t d)
@[simp] theorem State.raiseUnit_time (s : State) (c u t : Nat) (d : List EvField) : (s.raiseUnit c u t d).time = s.time :=
  State.quiet_time (State.raiseUnit_quiet s c u t d)
@[simp] theorem State.raiseUnit_dev (s : State) (c u t : Nat) (d : List EvField) : (s.raiseUnit c u t d).dev = s.dev :=
  State.quiet_dev (State.raiseUnit_quiet s c u t d)
@[simp] theorem State.raiseUnit_fetchSeq (s : State) (c u t : Nat) (d : List EvField) : (s.raiseUnit c u t d).fetchSeq = s.fetchSeq :=
  State.quiet_fetchSeq (State.raiseUnit_quiet s c u t d)
@[simp] theorem State.raiseUnit_units (s : State) (c u t : Nat) (d : List EvField) : (s.raiseUnit c u t d).units = s.units :=
  State.quiet_units (State.raiseUnit_quiet s c u t d)
@[simp] theorem State.raiseUnit_chans (s : State) (c u t : Nat) (d : List EvField) : (s.raiseUnit c u t d).chans = s.chans :=
  State.quiet_chans (State.raiseUnit_quiet s c u t d)
@[simp] theorem State.raiseUnit_fpe (s : State) (c u t : Nat) (d : List EvField) : (s.raiseUnit c u t d).fpe = s.fpe :=
  State.quiet_fpe (State.raiseUnit_quiet s c u t d)
@[simp] theorem State.raiseUnit_can (s : State) (c u t : Nat) (d : List EvField) : (s.raiseUnit c u t d).can = s.can :=
  State.quiet_can (State.raiseUnit_quiet s c u t d)
@[simp] theorem State.raiseUnit_se (s : State) (c u t : Nat) (d : List EvField) : (s.raiseUnit c u t d).se = s.se :=
  State.quiet_se (State.raiseUnit_quiet s c u t d)
@[simp] theorem State.raiseUnit_io (s : State) (c u t : Nat) (d : List EvField) : (s.raiseUnit c u t d).io = s.io :=
  State.quiet_io (State.raiseUnit_quiet s c u t d)
@[simp] theorem State.raiseUnit_stor (s : State) (c u t : Nat) (d : List EvField) : (s.raiseUnit c u t d).stor = s.stor :=
  State.quiet_stor (State.raiseUnit_quiet s c u t d)
@[simp] theorem State.raiseUnit_hk (s : State) (c u t : Nat) (d : List EvField) : (s.raiseUnit c u t d).hk = s.hk :=
  State.quiet_hk (State.raiseUnit_quiet s c u t d)
@[simp] theorem State.raiseUnit_sup (s : State) (c u t : Nat) (d : List EvField) : (s.raiseUnit c u t d).sup = s.sup :=
  State.quiet_sup (State.raiseUnit_quiet s c u t d)
@[simp] theorem State.raiseUnit_aon (s : State) (c u t : Nat) (d : List EvField) : (s.raiseUnit c u t d).aon = s.aon :=
  State.quiet_aon (State.raiseUnit_quiet s c u t d)
@[simp] theorem State.raiseUnit_perf (s : State) (c u t : Nat) (d : List EvField) : (s.raiseUnit c u t d).perf = s.perf :=
  State.quiet_perf (State.raiseUnit_quiet s c u t d)
@[simp] theorem State.raiseUnit_jtag (s : State) (c u t : Nat) (d : List EvField) : (s.raiseUnit c u t d).jtag = s.jtag :=
  State.quiet_jtag (State.raiseUnit_quiet s c u t d)
@[simp] theorem State.raiseUnit_lastRead (s : State) (c u t : Nat) (d : List EvField) : (s.raiseUnit c u t d).lastRead = s.lastRead :=
  State.quiet_lastRead (State.raiseUnit_quiet s c u t d)
@[simp] theorem State.raiseUnit_freeCtr (s : State) (c u t : Nat) (d : List EvField) : (s.raiseUnit c u t d).freeCtr = s.freeCtr :=
  State.quiet_freeCtr (State.raiseUnit_quiet s c u t d)

@[simp] theorem State.raiseLimited_pending (s : State) (c u o : Nat) (d : List EvField) : (s.raiseLimited c u o d).pending = s.pending :=
  State.quiet_pending (State.raiseLimited_quiet s c u o d)
@[simp] theorem State.raiseLimited_dtime (s : State) (c u o : Nat) (d : List EvField) : (s.raiseLimited c u o d).dtime = s.dtime :=
  State.quiet_dtime (State.raiseLimited_quiet s c u o d)
@[simp] theorem State.raiseLimited_time (s : State) (c u o : Nat) (d : List EvField) : (s.raiseLimited c u o d).time = s.time :=
  State.quiet_time (State.raiseLimited_quiet s c u o d)
@[simp] theorem State.raiseLimited_dev (s : State) (c u o : Nat) (d : List EvField) : (s.raiseLimited c u o d).dev = s.dev :=
  State.quiet_dev (State.raiseLimited_quiet s c u o d)
@[simp] theorem State.raiseLimited_fetchSeq (s : State) (c u o : Nat) (d : List EvField) : (s.raiseLimited c u o d).fetchSeq = s.fetchSeq :=
  State.quiet_fetchSeq (State.raiseLimited_quiet s c u o d)
@[simp] theorem State.raiseLimited_units (s : State) (c u o : Nat) (d : List EvField) : (s.raiseLimited c u o d).units = s.units :=
  State.quiet_units (State.raiseLimited_quiet s c u o d)
@[simp] theorem State.raiseLimited_chans (s : State) (c u o : Nat) (d : List EvField) : (s.raiseLimited c u o d).chans = s.chans :=
  State.quiet_chans (State.raiseLimited_quiet s c u o d)
@[simp] theorem State.raiseLimited_fpe (s : State) (c u o : Nat) (d : List EvField) : (s.raiseLimited c u o d).fpe = s.fpe :=
  State.quiet_fpe (State.raiseLimited_quiet s c u o d)
@[simp] theorem State.raiseLimited_can (s : State) (c u o : Nat) (d : List EvField) : (s.raiseLimited c u o d).can = s.can :=
  State.quiet_can (State.raiseLimited_quiet s c u o d)
@[simp] theorem State.raiseLimited_se (s : State) (c u o : Nat) (d : List EvField) : (s.raiseLimited c u o d).se = s.se :=
  State.quiet_se (State.raiseLimited_quiet s c u o d)
@[simp] theorem State.raiseLimited_io (s : State) (c u o : Nat) (d : List EvField) : (s.raiseLimited c u o d).io = s.io :=
  State.quiet_io (State.raiseLimited_quiet s c u o d)
@[simp] theorem State.raiseLimited_stor (s : State) (c u o : Nat) (d : List EvField) : (s.raiseLimited c u o d).stor = s.stor :=
  State.quiet_stor (State.raiseLimited_quiet s c u o d)
@[simp] theorem State.raiseLimited_hk (s : State) (c u o : Nat) (d : List EvField) : (s.raiseLimited c u o d).hk = s.hk :=
  State.quiet_hk (State.raiseLimited_quiet s c u o d)
@[simp] theorem State.raiseLimited_sup (s : State) (c u o : Nat) (d : List EvField) : (s.raiseLimited c u o d).sup = s.sup :=
  State.quiet_sup (State.raiseLimited_quiet s c u o d)
@[simp] theorem State.raiseLimited_aon (s : State) (c u o : Nat) (d : List EvField) : (s.raiseLimited c u o d).aon = s.aon :=
  State.quiet_aon (State.raiseLimited_quiet s c u o d)
@[simp] theorem State.raiseLimited_perf (s : State) (c u o : Nat) (d : List EvField) : (s.raiseLimited c u o d).perf = s.perf :=
  State.quiet_perf (State.raiseLimited_quiet s c u o d)
@[simp] theorem State.raiseLimited_jtag (s : State) (c u o : Nat) (d : List EvField) : (s.raiseLimited c u o d).jtag = s.jtag :=
  State.quiet_jtag (State.raiseLimited_quiet s c u o d)
@[simp] theorem State.raiseLimited_lastRead (s : State) (c u o : Nat) (d : List EvField) : (s.raiseLimited c u o d).lastRead = s.lastRead :=
  State.quiet_lastRead (State.raiseLimited_quiet s c u o d)
@[simp] theorem State.raiseLimited_freeCtr (s : State) (c u o : Nat) (d : List EvField) : (s.raiseLimited c u o d).freeCtr = s.freeCtr :=
  State.quiet_freeCtr (State.raiseLimited_quiet s c u o d)

@[simp] theorem State.complete_pending (s : State) (q : SqRef) (x : Completion) : (s.complete q x).pending = s.pending :=
  State.quiet_pending (State.complete_quiet s q x)
@[simp] theorem State.complete_dtime (s : State) (q : SqRef) (x : Completion) : (s.complete q x).dtime = s.dtime :=
  State.quiet_dtime (State.complete_quiet s q x)
@[simp] theorem State.complete_time (s : State) (q : SqRef) (x : Completion) : (s.complete q x).time = s.time :=
  State.quiet_time (State.complete_quiet s q x)
@[simp] theorem State.complete_dev (s : State) (q : SqRef) (x : Completion) : (s.complete q x).dev = s.dev :=
  State.quiet_dev (State.complete_quiet s q x)
@[simp] theorem State.complete_fetchSeq (s : State) (q : SqRef) (x : Completion) : (s.complete q x).fetchSeq = s.fetchSeq :=
  State.quiet_fetchSeq (State.complete_quiet s q x)
@[simp] theorem State.complete_units (s : State) (q : SqRef) (x : Completion) : (s.complete q x).units = s.units :=
  State.quiet_units (State.complete_quiet s q x)
@[simp] theorem State.complete_chans (s : State) (q : SqRef) (x : Completion) : (s.complete q x).chans = s.chans :=
  State.quiet_chans (State.complete_quiet s q x)
@[simp] theorem State.complete_fpe (s : State) (q : SqRef) (x : Completion) : (s.complete q x).fpe = s.fpe :=
  State.quiet_fpe (State.complete_quiet s q x)
@[simp] theorem State.complete_can (s : State) (q : SqRef) (x : Completion) : (s.complete q x).can = s.can :=
  State.quiet_can (State.complete_quiet s q x)
@[simp] theorem State.complete_se (s : State) (q : SqRef) (x : Completion) : (s.complete q x).se = s.se :=
  State.quiet_se (State.complete_quiet s q x)
@[simp] theorem State.complete_io (s : State) (q : SqRef) (x : Completion) : (s.complete q x).io = s.io :=
  State.quiet_io (State.complete_quiet s q x)
@[simp] theorem State.complete_stor (s : State) (q : SqRef) (x : Completion) : (s.complete q x).stor = s.stor :=
  State.quiet_stor (State.complete_quiet s q x)
@[simp] theorem State.complete_hk (s : State) (q : SqRef) (x : Completion) : (s.complete q x).hk = s.hk :=
  State.quiet_hk (State.complete_quiet s q x)
@[simp] theorem State.complete_sup (s : State) (q : SqRef) (x : Completion) : (s.complete q x).sup = s.sup :=
  State.quiet_sup (State.complete_quiet s q x)
@[simp] theorem State.complete_aon (s : State) (q : SqRef) (x : Completion) : (s.complete q x).aon = s.aon :=
  State.quiet_aon (State.complete_quiet s q x)
@[simp] theorem State.complete_perf (s : State) (q : SqRef) (x : Completion) : (s.complete q x).perf = s.perf :=
  State.quiet_perf (State.complete_quiet s q x)
@[simp] theorem State.complete_jtag (s : State) (q : SqRef) (x : Completion) : (s.complete q x).jtag = s.jtag :=
  State.quiet_jtag (State.complete_quiet s q x)
@[simp] theorem State.complete_lastRead (s : State) (q : SqRef) (x : Completion) : (s.complete q x).lastRead = s.lastRead :=
  State.quiet_lastRead (State.complete_quiet s q x)
@[simp] theorem State.complete_freeCtr (s : State) (q : SqRef) (x : Completion) : (s.complete q x).freeCtr = s.freeCtr :=
  State.quiet_freeCtr (State.complete_quiet s q x)

@[simp] theorem State.settleHold_pending (s : State) (p : PortId) : (s.settleHold p).pending = s.pending :=
  State.quiet_pending (State.settleHold_quiet s p)
@[simp] theorem State.settleHold_dtime (s : State) (p : PortId) : (s.settleHold p).dtime = s.dtime :=
  State.quiet_dtime (State.settleHold_quiet s p)
@[simp] theorem State.settleHold_time (s : State) (p : PortId) : (s.settleHold p).time = s.time :=
  State.quiet_time (State.settleHold_quiet s p)
@[simp] theorem State.settleHold_dev (s : State) (p : PortId) : (s.settleHold p).dev = s.dev :=
  State.quiet_dev (State.settleHold_quiet s p)
@[simp] theorem State.settleHold_fetchSeq (s : State) (p : PortId) : (s.settleHold p).fetchSeq = s.fetchSeq :=
  State.quiet_fetchSeq (State.settleHold_quiet s p)
@[simp] theorem State.settleHold_units (s : State) (p : PortId) : (s.settleHold p).units = s.units :=
  State.quiet_units (State.settleHold_quiet s p)
@[simp] theorem State.settleHold_chans (s : State) (p : PortId) : (s.settleHold p).chans = s.chans :=
  State.quiet_chans (State.settleHold_quiet s p)
@[simp] theorem State.settleHold_fpe (s : State) (p : PortId) : (s.settleHold p).fpe = s.fpe :=
  State.quiet_fpe (State.settleHold_quiet s p)
@[simp] theorem State.settleHold_can (s : State) (p : PortId) : (s.settleHold p).can = s.can :=
  State.quiet_can (State.settleHold_quiet s p)
@[simp] theorem State.settleHold_se (s : State) (p : PortId) : (s.settleHold p).se = s.se :=
  State.quiet_se (State.settleHold_quiet s p)
@[simp] theorem State.settleHold_io (s : State) (p : PortId) : (s.settleHold p).io = s.io :=
  State.quiet_io (State.settleHold_quiet s p)
@[simp] theorem State.settleHold_stor (s : State) (p : PortId) : (s.settleHold p).stor = s.stor :=
  State.quiet_stor (State.settleHold_quiet s p)
@[simp] theorem State.settleHold_hk (s : State) (p : PortId) : (s.settleHold p).hk = s.hk :=
  State.quiet_hk (State.settleHold_quiet s p)
@[simp] theorem State.settleHold_sup (s : State) (p : PortId) : (s.settleHold p).sup = s.sup :=
  State.quiet_sup (State.settleHold_quiet s p)
@[simp] theorem State.settleHold_aon (s : State) (p : PortId) : (s.settleHold p).aon = s.aon :=
  State.quiet_aon (State.settleHold_quiet s p)
@[simp] theorem State.settleHold_perf (s : State) (p : PortId) : (s.settleHold p).perf = s.perf :=
  State.quiet_perf (State.settleHold_quiet s p)
@[simp] theorem State.settleHold_jtag (s : State) (p : PortId) : (s.settleHold p).jtag = s.jtag :=
  State.quiet_jtag (State.settleHold_quiet s p)
@[simp] theorem State.settleHold_lastRead (s : State) (p : PortId) : (s.settleHold p).lastRead = s.lastRead :=
  State.quiet_lastRead (State.settleHold_quiet s p)
@[simp] theorem State.settleHold_freeCtr (s : State) (p : PortId) : (s.settleHold p).freeCtr = s.freeCtr :=
  State.quiet_freeCtr (State.settleHold_quiet s p)

@[simp] theorem State.finishHeld_pending (s : State) (q : SqRef) (h : Held) (a b c d : Nat) : (s.finishHeld q h a b c d).pending = s.pending :=
  State.quiet_pending (State.finishHeld_quiet s q h a b c d)
@[simp] theorem State.finishHeld_dtime (s : State) (q : SqRef) (h : Held) (a b c d : Nat) : (s.finishHeld q h a b c d).dtime = s.dtime :=
  State.quiet_dtime (State.finishHeld_quiet s q h a b c d)
@[simp] theorem State.finishHeld_time (s : State) (q : SqRef) (h : Held) (a b c d : Nat) : (s.finishHeld q h a b c d).time = s.time :=
  State.quiet_time (State.finishHeld_quiet s q h a b c d)
@[simp] theorem State.finishHeld_dev (s : State) (q : SqRef) (h : Held) (a b c d : Nat) : (s.finishHeld q h a b c d).dev = s.dev :=
  State.quiet_dev (State.finishHeld_quiet s q h a b c d)
@[simp] theorem State.finishHeld_fetchSeq (s : State) (q : SqRef) (h : Held) (a b c d : Nat) : (s.finishHeld q h a b c d).fetchSeq = s.fetchSeq :=
  State.quiet_fetchSeq (State.finishHeld_quiet s q h a b c d)
@[simp] theorem State.finishHeld_units (s : State) (q : SqRef) (h : Held) (a b c d : Nat) : (s.finishHeld q h a b c d).units = s.units :=
  State.quiet_units (State.finishHeld_quiet s q h a b c d)
@[simp] theorem State.finishHeld_chans (s : State) (q : SqRef) (h : Held) (a b c d : Nat) : (s.finishHeld q h a b c d).chans = s.chans :=
  State.quiet_chans (State.finishHeld_quiet s q h a b c d)
@[simp] theorem State.finishHeld_fpe (s : State) (q : SqRef) (h : Held) (a b c d : Nat) : (s.finishHeld q h a b c d).fpe = s.fpe :=
  State.quiet_fpe (State.finishHeld_quiet s q h a b c d)
@[simp] theorem State.finishHeld_can (s : State) (q : SqRef) (h : Held) (a b c d : Nat) : (s.finishHeld q h a b c d).can = s.can :=
  State.quiet_can (State.finishHeld_quiet s q h a b c d)
@[simp] theorem State.finishHeld_se (s : State) (q : SqRef) (h : Held) (a b c d : Nat) : (s.finishHeld q h a b c d).se = s.se :=
  State.quiet_se (State.finishHeld_quiet s q h a b c d)
@[simp] theorem State.finishHeld_io (s : State) (q : SqRef) (h : Held) (a b c d : Nat) : (s.finishHeld q h a b c d).io = s.io :=
  State.quiet_io (State.finishHeld_quiet s q h a b c d)
@[simp] theorem State.finishHeld_stor (s : State) (q : SqRef) (h : Held) (a b c d : Nat) : (s.finishHeld q h a b c d).stor = s.stor :=
  State.quiet_stor (State.finishHeld_quiet s q h a b c d)
@[simp] theorem State.finishHeld_hk (s : State) (q : SqRef) (h : Held) (a b c d : Nat) : (s.finishHeld q h a b c d).hk = s.hk :=
  State.quiet_hk (State.finishHeld_quiet s q h a b c d)
@[simp] theorem State.finishHeld_sup (s : State) (q : SqRef) (h : Held) (a b c d : Nat) : (s.finishHeld q h a b c d).sup = s.sup :=
  State.quiet_sup (State.finishHeld_quiet s q h a b c d)
@[simp] theorem State.finishHeld_aon (s : State) (q : SqRef) (h : Held) (a b c d : Nat) : (s.finishHeld q h a b c d).aon = s.aon :=
  State.quiet_aon (State.finishHeld_quiet s q h a b c d)
@[simp] theorem State.finishHeld_perf (s : State) (q : SqRef) (h : Held) (a b c d : Nat) : (s.finishHeld q h a b c d).perf = s.perf :=
  State.quiet_perf (State.finishHeld_quiet s q h a b c d)
@[simp] theorem State.finishHeld_jtag (s : State) (q : SqRef) (h : Held) (a b c d : Nat) : (s.finishHeld q h a b c d).jtag = s.jtag :=
  State.quiet_jtag (State.finishHeld_quiet s q h a b c d)
@[simp] theorem State.finishHeld_lastRead (s : State) (q : SqRef) (h : Held) (a b c d : Nat) : (s.finishHeld q h a b c d).lastRead = s.lastRead :=
  State.quiet_lastRead (State.finishHeld_quiet s q h a b c d)
@[simp] theorem State.finishHeld_freeCtr (s : State) (q : SqRef) (h : Held) (a b c d : Nat) : (s.finishHeld q h a b c d).freeCtr = s.freeCtr :=
  State.quiet_freeCtr (State.finishHeld_quiet s q h a b c d)

@[simp] theorem State.finish_pending (s : State) (u : Nat) (ops : List Nat) (a b c : Nat) : (s.finish u ops a b c).pending = s.pending :=
  State.quiet_pending (State.finish_quiet s u ops a b c)
@[simp] theorem State.finish_dtime (s : State) (u : Nat) (ops : List Nat) (a b c : Nat) : (s.finish u ops a b c).dtime = s.dtime :=
  State.quiet_dtime (State.finish_quiet s u ops a b c)
@[simp] theorem State.finish_time (s : State) (u : Nat) (ops : List Nat) (a b c : Nat) : (s.finish u ops a b c).time = s.time :=
  State.quiet_time (State.finish_quiet s u ops a b c)
@[simp] theorem State.finish_dev (s : State) (u : Nat) (ops : List Nat) (a b c : Nat) : (s.finish u ops a b c).dev = s.dev :=
  State.quiet_dev (State.finish_quiet s u ops a b c)
@[simp] theorem State.finish_fetchSeq (s : State) (u : Nat) (ops : List Nat) (a b c : Nat) : (s.finish u ops a b c).fetchSeq = s.fetchSeq :=
  State.quiet_fetchSeq (State.finish_quiet s u ops a b c)
@[simp] theorem State.finish_units (s : State) (u : Nat) (ops : List Nat) (a b c : Nat) : (s.finish u ops a b c).units = s.units :=
  State.quiet_units (State.finish_quiet s u ops a b c)
@[simp] theorem State.finish_chans (s : State) (u : Nat) (ops : List Nat) (a b c : Nat) : (s.finish u ops a b c).chans = s.chans :=
  State.quiet_chans (State.finish_quiet s u ops a b c)
@[simp] theorem State.finish_fpe (s : State) (u : Nat) (ops : List Nat) (a b c : Nat) : (s.finish u ops a b c).fpe = s.fpe :=
  State.quiet_fpe (State.finish_quiet s u ops a b c)
@[simp] theorem State.finish_can (s : State) (u : Nat) (ops : List Nat) (a b c : Nat) : (s.finish u ops a b c).can = s.can :=
  State.quiet_can (State.finish_quiet s u ops a b c)
@[simp] theorem State.finish_se (s : State) (u : Nat) (ops : List Nat) (a b c : Nat) : (s.finish u ops a b c).se = s.se :=
  State.quiet_se (State.finish_quiet s u ops a b c)
@[simp] theorem State.finish_io (s : State) (u : Nat) (ops : List Nat) (a b c : Nat) : (s.finish u ops a b c).io = s.io :=
  State.quiet_io (State.finish_quiet s u ops a b c)
@[simp] theorem State.finish_stor (s : State) (u : Nat) (ops : List Nat) (a b c : Nat) : (s.finish u ops a b c).stor = s.stor :=
  State.quiet_stor (State.finish_quiet s u ops a b c)
@[simp] theorem State.finish_hk (s : State) (u : Nat) (ops : List Nat) (a b c : Nat) : (s.finish u ops a b c).hk = s.hk :=
  State.quiet_hk (State.finish_quiet s u ops a b c)
@[simp] theorem State.finish_sup (s : State) (u : Nat) (ops : List Nat) (a b c : Nat) : (s.finish u ops a b c).sup = s.sup :=
  State.quiet_sup (State.finish_quiet s u ops a b c)
@[simp] theorem State.finish_aon (s : State) (u : Nat) (ops : List Nat) (a b c : Nat) : (s.finish u ops a b c).aon = s.aon :=
  State.quiet_aon (State.finish_quiet s u ops a b c)
@[simp] theorem State.finish_perf (s : State) (u : Nat) (ops : List Nat) (a b c : Nat) : (s.finish u ops a b c).perf = s.perf :=
  State.quiet_perf (State.finish_quiet s u ops a b c)
@[simp] theorem State.finish_jtag (s : State) (u : Nat) (ops : List Nat) (a b c : Nat) : (s.finish u ops a b c).jtag = s.jtag :=
  State.quiet_jtag (State.finish_quiet s u ops a b c)
@[simp] theorem State.finish_lastRead (s : State) (u : Nat) (ops : List Nat) (a b c : Nat) : (s.finish u ops a b c).lastRead = s.lastRead :=
  State.quiet_lastRead (State.finish_quiet s u ops a b c)
@[simp] theorem State.finish_freeCtr (s : State) (u : Nat) (ops : List Nat) (a b c : Nat) : (s.finish u ops a b c).freeCtr = s.freeCtr :=
  State.quiet_freeCtr (State.finish_quiet s u ops a b c)

@[simp] theorem State.queueRec_pending (s : State) (x : Rec) : (s.queueRec x).1.pending = s.pending :=
  State.quiet_pending (State.queueRec_quiet s x)
@[simp] theorem State.queueRec_dtime (s : State) (x : Rec) : (s.queueRec x).1.dtime = s.dtime :=
  State.quiet_dtime (State.queueRec_quiet s x)
@[simp] theorem State.queueRec_time (s : State) (x : Rec) : (s.queueRec x).1.time = s.time :=
  State.quiet_time (State.queueRec_quiet s x)
@[simp] theorem State.queueRec_dev (s : State) (x : Rec) : (s.queueRec x).1.dev = s.dev :=
  State.quiet_dev (State.queueRec_quiet s x)
@[simp] theorem State.queueRec_fetchSeq (s : State) (x : Rec) : (s.queueRec x).1.fetchSeq = s.fetchSeq :=
  State.quiet_fetchSeq (State.queueRec_quiet s x)
@[simp] theorem State.queueRec_units (s : State) (x : Rec) : (s.queueRec x).1.units = s.units :=
  State.quiet_units (State.queueRec_quiet s x)
@[simp] theorem State.queueRec_chans (s : State) (x : Rec) : (s.queueRec x).1.chans = s.chans :=
  State.quiet_chans (State.queueRec_quiet s x)
@[simp] theorem State.queueRec_fpe (s : State) (x : Rec) : (s.queueRec x).1.fpe = s.fpe :=
  State.quiet_fpe (State.queueRec_quiet s x)
@[simp] theorem State.queueRec_can (s : State) (x : Rec) : (s.queueRec x).1.can = s.can :=
  State.quiet_can (State.queueRec_quiet s x)
@[simp] theorem State.queueRec_se (s : State) (x : Rec) : (s.queueRec x).1.se = s.se :=
  State.quiet_se (State.queueRec_quiet s x)
@[simp] theorem State.queueRec_io (s : State) (x : Rec) : (s.queueRec x).1.io = s.io :=
  State.quiet_io (State.queueRec_quiet s x)
@[simp] theorem State.queueRec_stor (s : State) (x : Rec) : (s.queueRec x).1.stor = s.stor :=
  State.quiet_stor (State.queueRec_quiet s x)
@[simp] theorem State.queueRec_hk (s : State) (x : Rec) : (s.queueRec x).1.hk = s.hk :=
  State.quiet_hk (State.queueRec_quiet s x)
@[simp] theorem State.queueRec_sup (s : State) (x : Rec) : (s.queueRec x).1.sup = s.sup :=
  State.quiet_sup (State.queueRec_quiet s x)
@[simp] theorem State.queueRec_aon (s : State) (x : Rec) : (s.queueRec x).1.aon = s.aon :=
  State.quiet_aon (State.queueRec_quiet s x)
@[simp] theorem State.queueRec_perf (s : State) (x : Rec) : (s.queueRec x).1.perf = s.perf :=
  State.quiet_perf (State.queueRec_quiet s x)
@[simp] theorem State.queueRec_jtag (s : State) (x : Rec) : (s.queueRec x).1.jtag = s.jtag :=
  State.quiet_jtag (State.queueRec_quiet s x)
@[simp] theorem State.queueRec_lastRead (s : State) (x : Rec) : (s.queueRec x).1.lastRead = s.lastRead :=
  State.quiet_lastRead (State.queueRec_quiet s x)
@[simp] theorem State.queueRec_freeCtr (s : State) (x : Rec) : (s.queueRec x).1.freeCtr = s.freeCtr :=
  State.quiet_freeCtr (State.queueRec_quiet s x)
@[simp] theorem State.queueOwn_pending (s : State) (x : Rec) : (s.queueOwn x).1.pending = s.pending :=
  State.quiet_pending (State.queueOwn_quiet s x)
@[simp] theorem State.queueOwn_dtime (s : State) (x : Rec) : (s.queueOwn x).1.dtime = s.dtime :=
  State.quiet_dtime (State.queueOwn_quiet s x)
@[simp] theorem State.queueOwn_time (s : State) (x : Rec) : (s.queueOwn x).1.time = s.time :=
  State.quiet_time (State.queueOwn_quiet s x)
@[simp] theorem State.queueOwn_dev (s : State) (x : Rec) : (s.queueOwn x).1.dev = s.dev :=
  State.quiet_dev (State.queueOwn_quiet s x)
@[simp] theorem State.queueOwn_fetchSeq (s : State) (x : Rec) : (s.queueOwn x).1.fetchSeq = s.fetchSeq :=
  State.quiet_fetchSeq (State.queueOwn_quiet s x)
@[simp] theorem State.queueOwn_units (s : State) (x : Rec) : (s.queueOwn x).1.units = s.units :=
  State.quiet_units (State.queueOwn_quiet s x)
@[simp] theorem State.queueOwn_chans (s : State) (x : Rec) : (s.queueOwn x).1.chans = s.chans :=
  State.quiet_chans (State.queueOwn_quiet s x)
@[simp] theorem State.queueOwn_fpe (s : State) (x : Rec) : (s.queueOwn x).1.fpe = s.fpe :=
  State.quiet_fpe (State.queueOwn_quiet s x)
@[simp] theorem State.queueOwn_can (s : State) (x : Rec) : (s.queueOwn x).1.can = s.can :=
  State.quiet_can (State.queueOwn_quiet s x)
@[simp] theorem State.queueOwn_se (s : State) (x : Rec) : (s.queueOwn x).1.se = s.se :=
  State.quiet_se (State.queueOwn_quiet s x)
@[simp] theorem State.queueOwn_io (s : State) (x : Rec) : (s.queueOwn x).1.io = s.io :=
  State.quiet_io (State.queueOwn_quiet s x)
@[simp] theorem State.queueOwn_stor (s : State) (x : Rec) : (s.queueOwn x).1.stor = s.stor :=
  State.quiet_stor (State.queueOwn_quiet s x)
@[simp] theorem State.queueOwn_hk (s : State) (x : Rec) : (s.queueOwn x).1.hk = s.hk :=
  State.quiet_hk (State.queueOwn_quiet s x)
@[simp] theorem State.queueOwn_sup (s : State) (x : Rec) : (s.queueOwn x).1.sup = s.sup :=
  State.quiet_sup (State.queueOwn_quiet s x)
@[simp] theorem State.queueOwn_aon (s : State) (x : Rec) : (s.queueOwn x).1.aon = s.aon :=
  State.quiet_aon (State.queueOwn_quiet s x)
@[simp] theorem State.queueOwn_perf (s : State) (x : Rec) : (s.queueOwn x).1.perf = s.perf :=
  State.quiet_perf (State.queueOwn_quiet s x)
@[simp] theorem State.queueOwn_jtag (s : State) (x : Rec) : (s.queueOwn x).1.jtag = s.jtag :=
  State.quiet_jtag (State.queueOwn_quiet s x)
@[simp] theorem State.queueOwn_lastRead (s : State) (x : Rec) : (s.queueOwn x).1.lastRead = s.lastRead :=
  State.quiet_lastRead (State.queueOwn_quiet s x)
@[simp] theorem State.queueOwn_freeCtr (s : State) (x : Rec) : (s.queueOwn x).1.freeCtr = s.freeCtr :=
  State.quiet_freeCtr (State.queueOwn_quiet s x)

end Sys2Proof.Machine
end

