-- ==== Sys2Proof/Laws/Chan.lean ====
section
/-! SUPPORT. A command of a channel replaces that channel and reports; besides this it can reach the supply's slack window only. -/
namespace Sys2Proof.Machine

theorem State.noteSlack_still (s : State) (x : Int) (i : Nat) (m : Bool) : (s.noteSlack x i m).still = s.still := by
  simp only [State.noteSlack]; repeat' split
  all_goals rfl

theorem State.noteSlack_chans (s : State) (x : Int) (i : Nat) (m : Bool) : (s.noteSlack x i m).chans = s.chans := by
  simp only [State.noteSlack]; repeat' split
  all_goals rfl

theorem State.still_of_quiet {s s1 : State} (h : s1.quiet = s.quiet) : s1.still = s.still := by
  simp only [State.still, h]

theorem State.chOut_still (s : State) (n : ChanId) (o : ChOut) : (s.chOut n o).still = s.still := by
  cases o with
  | event c t d => exact State.still_of_quiet (State.raiseUnit_quiet _ _ _ _ _)
  | limited c k t f d =>
    simp only [State.chOut]; split
    · rw [State.still_of_quiet (State.raiseUnit_quiet _ _ _ _ _)]; rfl
    · rfl
  | finish ops a b c => exact State.still_of_quiet (State.finish_quiet _ _ _ _ _ _)
  | slack x i m => exact State.noteSlack_still s x i m

theorem State.chOut_chans (s : State) (n : ChanId) (o : ChOut) : (s.chOut n o).chans = s.chans := by
  cases o with
  | event c t d => exact State.quiet_chans (State.raiseUnit_quiet _ _ _ _ _)
  | limited c k t f d =>
    simp only [State.chOut]; split
    · rw [State.quiet_chans (State.raiseUnit_quiet _ _ _ _ _)]
    · rfl
  | finish ops a b c => exact State.quiet_chans (State.finish_quiet _ _ _ _ _ _)
  | slack x i m => exact State.noteSlack_chans s x i m

theorem State.onChan_still (s : State) (n : ChanId) (f : ChOp) :
    (s.onChan n f).still = { s.still with chans := s.chans.set n (f (s.chanIn n)).c } := by
  simp only [State.onChan]
  rw [foldl_keeps State.still _ (fun s o => State.chOut_still s n o)]; rfl

@[simp] theorem State.onChan_chans (s : State) (n : ChanId) (f : ChOp) :
    (s.onChan n f).chans = s.chans.set n (f (s.chanIn n)).c := by
  simp only [State.onChan]
  rw [foldl_keeps State.chans _ (fun s o => State.chOut_chans s n o)]

/-- What a command of a channel leaves of the channel. -/
theorem State.onChan_self (s : State) (n : ChanId) (f : ChOp) : (s.onChan n f).chans[n] = (f (s.chanIn n)).c := by
  simp

/-- R8, R9: a command of a channel leaves every other channel. -/
theorem State.onChan_other (s : State) (n m : ChanId) (f : ChOp) (h : m ≠ n) : (s.onChan n f).chans[m] = s.chans[m] := by
  have h' : (n : Nat) ≠ (m : Nat) := fun e => h (Fin.ext e.symm)
  simp only [State.onChan_chans, Fin.getElem_fin]
  exact Vector.getElem_set_ne _ _ h'

@[simp] theorem State.onChan_pending (s : State) (n : ChanId) (f : ChOp) : (s.onChan n f).pending = s.pending :=
  (congrArg State.pending (State.onChan_still s n f) :)
@[simp] theorem State.onChan_dtime (s : State) (n : ChanId) (f : ChOp) : (s.onChan n f).dtime = s.dtime :=
  (congrArg State.dtime (State.onChan_still s n f) :)
@[simp] theorem State.onChan_time (s : State) (n : ChanId) (f : ChOp) : (s.onChan n f).time = s.time :=
  (congrArg State.time (State.onChan_still s n f) :)
@[simp] theorem State.onChan_dev (s : State) (n : ChanId) (f : ChOp) : (s.onChan n f).dev = s.dev :=
  (congrArg State.dev (State.onChan_still s n f) :)
@[simp] theorem State.onChan_fetchSeq (s : State) (n : ChanId) (f : ChOp) : (s.onChan n f).fetchSeq = s.fetchSeq :=
  (congrArg State.fetchSeq (State.onChan_still s n f) :)
@[simp] theorem State.onChan_units (s : State) (n : ChanId) (f : ChOp) : (s.onChan n f).units = s.units :=
  (congrArg State.units (State.onChan_still s n f) :)
@[simp] theorem State.onChan_fpe (s : State) (n : ChanId) (f : ChOp) : (s.onChan n f).fpe = s.fpe :=
  (congrArg State.fpe (State.onChan_still s n f) :)
@[simp] theorem State.onChan_can (s : State) (n : ChanId) (f : ChOp) : (s.onChan n f).can = s.can :=
  (congrArg State.can (State.onChan_still s n f) :)
@[simp] theorem State.onChan_se (s : State) (n : ChanId) (f : ChOp) : (s.onChan n f).se = s.se :=
  (congrArg State.se (State.onChan_still s n f) :)
@[simp] theorem State.onChan_io (s : State) (n : ChanId) (f : ChOp) : (s.onChan n f).io = s.io :=
  (congrArg State.io (State.onChan_still s n f) :)
@[simp] theorem State.onChan_stor (s : State) (n : ChanId) (f : ChOp) : (s.onChan n f).stor = s.stor :=
  (congrArg State.stor (State.onChan_still s n f) :)
@[simp] theorem State.onChan_hk (s : State) (n : ChanId) (f : ChOp) : (s.onChan n f).hk = s.hk :=
  (congrArg State.hk (State.onChan_still s n f) :)
@[simp] theorem State.onChan_aon (s : State) (n : ChanId) (f : ChOp) : (s.onChan n f).aon = s.aon :=
  (congrArg State.aon (State.onChan_still s n f) :)
@[simp] theorem State.onChan_perf (s : State) (n : ChanId) (f : ChOp) : (s.onChan n f).perf = s.perf :=
  (congrArg State.perf (State.onChan_still s n f) :)
@[simp] theorem State.onChan_jtag (s : State) (n : ChanId) (f : ChOp) : (s.onChan n f).jtag = s.jtag :=
  (congrArg State.jtag (State.onChan_still s n f) :)
@[simp] theorem State.onChan_lastRead (s : State) (n : ChanId) (f : ChOp) : (s.onChan n f).lastRead = s.lastRead :=
  (congrArg State.lastRead (State.onChan_still s n f) :)
@[simp] theorem State.onChan_freeCtr (s : State) (n : ChanId) (f : ChOp) : (s.onChan n f).freeCtr = s.freeCtr :=
  (congrArg State.freeCtr (State.onChan_still s n f) :)
@[simp] theorem State.chan_pending (s : State) (n : ChanId) (f : ChOp) : (s.chan n f).pending = s.pending :=
  State.onChan_pending _ _ _
@[simp] theorem State.chan_dtime (s : State) (n : ChanId) (f : ChOp) : (s.chan n f).dtime = s.dtime :=
  State.onChan_dtime _ _ _
@[simp] theorem State.chan_time (s : State) (n : ChanId) (f : ChOp) : (s.chan n f).time = s.time :=
  State.onChan_time _ _ _
@[simp] theorem State.chan_dev (s : State) (n : ChanId) (f : ChOp) : (s.chan n f).dev = s.dev :=
  State.onChan_dev _ _ _
@[simp] theorem State.chan_fetchSeq (s : State) (n : ChanId) (f : ChOp) : (s.chan n f).fetchSeq = s.fetchSeq :=
  State.onChan_fetchSeq _ _ _
@[simp] theorem State.chan_units (s : State) (n : ChanId) (f : ChOp) : (s.chan n f).units = s.units :=
  State.onChan_units _ _ _
@[simp] theorem State.chan_fpe (s : State) (n : ChanId) (f : ChOp) : (s.chan n f).fpe = s.fpe :=
  State.onChan_fpe _ _ _
@[simp] theorem State.chan_can (s : State) (n : ChanId) (f : ChOp) : (s.chan n f).can = s.can :=
  State.onChan_can _ _ _
@[simp] theorem State.chan_se (s : State) (n : ChanId) (f : ChOp) : (s.chan n f).se = s.se :=
  State.onChan_se _ _ _
@[simp] theorem State.chan_io (s : State) (n : ChanId) (f : ChOp) : (s.chan n f).io = s.io :=
  State.onChan_io _ _ _
@[simp] theorem State.chan_stor (s : State) (n : ChanId) (f : ChOp) : (s.chan n f).stor = s.stor :=
  State.onChan_stor _ _ _
@[simp] theorem State.chan_hk (s : State) (n : ChanId) (f : ChOp) : (s.chan n f).hk = s.hk :=
  State.onChan_hk _ _ _
@[simp] theorem State.chan_aon (s : State) (n : ChanId) (f : ChOp) : (s.chan n f).aon = s.aon :=
  State.onChan_aon _ _ _
@[simp] theorem State.chan_perf (s : State) (n : ChanId) (f : ChOp) : (s.chan n f).perf = s.perf :=
  State.onChan_perf _ _ _
@[simp] theorem State.chan_jtag (s : State) (n : ChanId) (f : ChOp) : (s.chan n f).jtag = s.jtag :=
  State.onChan_jtag _ _ _
@[simp] theorem State.chan_lastRead (s : State) (n : ChanId) (f : ChOp) : (s.chan n f).lastRead = s.lastRead :=
  State.onChan_lastRead _ _ _
@[simp] theorem State.chan_freeCtr (s : State) (n : ChanId) (f : ChOp) : (s.chan n f).freeCtr = s.freeCtr :=
  State.onChan_freeCtr _ _ _
@[simp] theorem State.allChans_pending (s : State) (f : ChOp) : (s.allChans f).pending = s.pending :=
  foldl_keeps State.pending _ (fun s n => State.onChan_pending s n _) _ _
@[simp] theorem State.allChans_dtime (s : State) (f : ChOp) : (s.allChans f).dtime = s.dtime :=
  foldl_keeps State.dtime _ (fun s n => State.onChan_dtime s n _) _ _
@[simp] theorem State.allChans_time (s : State) (f : ChOp) : (s.allChans f).time = s.time :=
  foldl_keeps State.time _ (fun s n => State.onChan_time s n _) _ _
@[simp] theorem State.allChans_dev (s : State) (f : ChOp) : (s.allChans f).dev = s.dev :=
  foldl_keeps State.dev _ (fun s n => State.onChan_dev s n _) _ _
@[simp] theorem State.allChans_fetchSeq (s : State) (f : ChOp) : (s.allChans f).fetchSeq = s.fetchSeq :=
  foldl_keeps State.fetchSeq _ (fun s n => State.onChan_fetchSeq s n _) _ _
@[simp] theorem State.allChans_units (s : State) (f : ChOp) : (s.allChans f).units = s.units :=
  foldl_keeps State.units _ (fun s n => State.onChan_units s n _) _ _
@[simp] theorem State.allChans_fpe (s : State) (f : ChOp) : (s.allChans f).fpe = s.fpe :=
  foldl_keeps State.fpe _ (fun s n => State.onChan_fpe s n _) _ _
@[simp] theorem State.allChans_can (s : State) (f : ChOp) : (s.allChans f).can = s.can :=
  foldl_keeps State.can _ (fun s n => State.onChan_can s n _) _ _
@[simp] theorem State.allChans_se (s : State) (f : ChOp) : (s.allChans f).se = s.se :=
  foldl_keeps State.se _ (fun s n => State.onChan_se s n _) _ _
@[simp] theorem State.allChans_io (s : State) (f : ChOp) : (s.allChans f).io = s.io :=
  foldl_keeps State.io _ (fun s n => State.onChan_io s n _) _ _
@[simp] theorem State.allChans_stor (s : State) (f : ChOp) : (s.allChans f).stor = s.stor :=
  foldl_keeps State.stor _ (fun s n => State.onChan_stor s n _) _ _
@[simp] theorem State.allChans_hk (s : State) (f : ChOp) : (s.allChans f).hk = s.hk :=
  foldl_keeps State.hk _ (fun s n => State.onChan_hk s n _) _ _
@[simp] theorem State.allChans_aon (s : State) (f : ChOp) : (s.allChans f).aon = s.aon :=
  foldl_keeps State.aon _ (fun s n => State.onChan_aon s n _) _ _
@[simp] theorem State.allChans_perf (s : State) (f : ChOp) : (s.allChans f).perf = s.perf :=
  foldl_keeps State.perf _ (fun s n => State.onChan_perf s n _) _ _
@[simp] theorem State.allChans_jtag (s : State) (f : ChOp) : (s.allChans f).jtag = s.jtag :=
  foldl_keeps State.jtag _ (fun s n => State.onChan_jtag s n _) _ _
@[simp] theorem State.allChans_lastRead (s : State) (f : ChOp) : (s.allChans f).lastRead = s.lastRead :=
  foldl_keeps State.lastRead _ (fun s n => State.onChan_lastRead s n _) _ _
@[simp] theorem State.allChans_freeCtr (s : State) (f : ChOp) : (s.allChans f).freeCtr = s.freeCtr :=
  foldl_keeps State.freeCtr _ (fun s n => State.onChan_freeCtr s n _) _ _

end Sys2Proof.Machine
end

