-- ==== Sys2Proof/Laws/Goto.lean ====
section
/-! SUPPORT. What a transition of a channel does (R132): one lemma for each part of the channel, and that it keeps what the
channel sees. -/
namespace Sys2Proof.Machine

/-! ### What the operations of a channel keep -/

@[simp] theorem ChR.core_env (r : ChR) (f : CoreS → CoreS) : (r.core f).env = r.env := rfl
@[simp] theorem ChR.tb_env (r : ChR) (f : TbS → TbS) : (r.tb f).env = r.env := rfl
@[simp] theorem ChR.pwm_env (r : ChR) (f : PwmS → PwmS) : (r.pwm f).env = r.env := rfl
@[simp] theorem ChR.adc_env (r : ChR) (f : AdcS → AdcS) : (r.adc f).env = r.env := rfl
@[simp] theorem ChR.pos_env (r : ChR) (f : PosS → PosS) : (r.pos f).env = r.env := rfl
@[simp] theorem ChR.fcu_env (r : ChR) (f : FcuS → FcuS) : (r.fcu f).env = r.env := rfl
@[simp] theorem ChR.nle_env (r : ChR) (f : NleS → NleS) : (r.nle f).env = r.env := rfl
@[simp] theorem ChR.prot_env (r : ChR) (f : ProtS → ProtS) : (r.prot f).env = r.env := rfl
@[simp] theorem ChR.therm_env (r : ChR) (f : ThermS → ThermS) : (r.therm f).env = r.env := rfl
@[simp] theorem ChR.tag_env (r : ChR) (f : TagS → TagS) : (r.tag f).env = r.env := rfl
@[simp] theorem ChR.emit_env (r : ChR) (o : ChOut) : (r.emit o).env = r.env := rfl
@[simp] theorem ChR.event_env (r : ChR) (c : Nat) (d : List EvField) : (r.event c d).env = r.env := rfl
@[simp] theorem ChR.eventAt_env (r : ChR) (c s : Nat) (d : List EvField) : (r.eventAt c s d).env = r.env := rfl
@[simp] theorem ChR.limited_env (r : ChR) (c s : Nat) (d : List EvField) : (r.limited c s d).env = r.env := rfl
@[simp] theorem ChR.fcuEvent_env (r : ChR) (c : Nat) (d : List EvField) : (r.fcuEvent c d).env = r.env := rfl
@[simp] theorem ChR.finish_env (r : ChR) (o : List Nat) (a b c : Nat) : (r.finish o a b c).env = r.env := rfl

@[simp] theorem ChR.emit_c (r : ChR) (o : ChOut) : (r.emit o).c = r.c := rfl
@[simp] theorem ChR.event_c (r : ChR) (c : Nat) (d : List EvField) : (r.event c d).c = r.c := rfl
@[simp] theorem ChR.eventAt_c (r : ChR) (c s : Nat) (d : List EvField) : (r.eventAt c s d).c = r.c := rfl
@[simp] theorem ChR.limited_c (r : ChR) (c s : Nat) (d : List EvField) : (r.limited c s d).c = r.c := rfl
@[simp] theorem ChR.fcuEvent_c (r : ChR) (c : Nat) (d : List EvField) : (r.fcuEvent c d).c = r.c := rfl
@[simp] theorem ChR.finish_c (r : ChR) (o : List Nat) (a b c : Nat) : (r.finish o a b c).c = r.c := rfl

@[simp] theorem ChR.endLb_env (r : ChR) (a b : Nat) : (r.endLb a b).env = r.env := by
  simp only [ChR.endLb]; split <;> simp [apply_ite ChR.env]
@[simp] theorem ChR.setRaw_env (r : ChR) (s : TripSrc) (b : Bool) : (r.setRaw s b).env = r.env := by
  simp only [ChR.setRaw]; split <;> rfl
@[simp] theorem ChR.restartFilter_env (r : ChR) (s : TripSrc) : (r.restartFilter s).env = r.env := by
  simp [ChR.restartFilter, ChR.feedSource]
@[simp] theorem ChR.endCmpTest_env (r : ChR) (a : BitVec 5) (b : Bool) : (r.endCmpTest a b).env = r.env := by
  simp only [ChR.endCmpTest]; split <;> simp
@[simp] theorem ChR.switchClock_env (r : ChR) (b : Bool) : (r.switchClock b).env = r.env := rfl
@[simp] theorem ChR.legsIdle_env (r : ChR) : r.legsIdle.env = r.env := rfl
@[simp] theorem ChR.syncLegs_env (r : ChR) : r.syncLegs.env = r.env := rfl
@[simp] theorem ChR.stopPll_env (r : ChR) : (r.stopPll).env = r.env := by
  simp only [ChR.stopPll, ChR.when]; split <;> simp
@[simp] theorem ChR.disableNle_env (r : ChR) : (r.disableNle).env = r.env := by
  simp [ChR.disableNle, apply_ite ChR.env]
@[simp] theorem ChR.abortIdent_env (r : ChR) (a : Nat) (b : Option Nat) : (r.abortIdent a b).env = r.env := by
  simp only [ChR.abortIdent]; split <;> simp


@[simp] theorem ChR.when_true (r : ChR) (f : ChOp) : r.when true f = f r := rfl
@[simp] theorem ChR.when_false (r : ChR) (f : ChOp) : r.when false f = r := rfl

/-- An operation that keeps a view keeps it under a condition. -/
theorem ChR.when_keeps {α : Type} (g : ChR → α) (r : ChR) (b : Bool) (f : ChOp) (h : g (f r) = g r) :
    g (r.when b f) = g r := by cases b <;> simp [h]

/-- A view of the channel after an operation under a condition. -/
theorem ChR.when_view {α : Type} (g : ChR → α) (r : ChR) (b : Bool) (f : ChOp) :
    g (r.when b f) = if b then g (f r) else g r := by cases b <;> simp

@[simp] theorem ChR.reportDischarge_env (r : ChR) (o t : Nat) : (r.reportDischarge o t).env = r.env := by
  simp only [ChR.reportDischarge]; split <;> rfl
/-- R358 reporting a discharge leaves the channel. -/
@[simp] theorem ChR.reportDischarge_c (r : ChR) (o t : Nat) : (r.reportDischarge o t).c = r.c := by
  simp only [ChR.reportDischarge]; split <;> rfl
@[simp] theorem ChR.leaveWaits_env (r : ChR) (c : ChCode) (k : Nat) : (r.leaveWaits c k).env = r.env := by
  simp only [ChR.leaveWaits]
  split <;> simp [ChR.when_view ChR.env]
@[simp] theorem ChR.leaveTrip_env (r : ChR) (a b : ChCode) : (r.leaveTrip a b).env = r.env := by
  simp [ChR.leaveTrip, ChR.when_view ChR.env]
@[simp] theorem ChR.intoEngine_env (r : ChR) (a b : ChCode) : (r.intoEngine a b).env = r.env := by
  simp [ChR.intoEngine, ChR.when_view ChR.env, ChR.intoArmed, ChR.freshArmed]
@[simp] theorem ChR.leaveLanes_env (r : ChR) (a b : ChCode) : (r.leaveLanes a b).env = r.env := by
  simp [ChR.leaveLanes, ChR.when_view ChR.env]
/-- A transition keeps what the channel sees. -/
@[simp] theorem ChR.goto_env (r : ChR) (c : ChCode) (k : Nat) : (r.goto c k).env = r.env := by
  simp [ChR.goto, ChR.when_view ChR.env, ChR.setCode]


/-! ### The parts of a channel -/

theorem ChR.when_core (r : ChR) (b : Bool) (f : ChOp) : (r.when b f).c.core = if b then (f r).c.core else r.c.core := by
  cases b <;> rfl
theorem ChR.when_tb (r : ChR) (b : Bool) (f : ChOp) : (r.when b f).c.tb = if b then (f r).c.tb else r.c.tb := by
  cases b <;> rfl
theorem ChR.when_pwm (r : ChR) (b : Bool) (f : ChOp) : (r.when b f).c.pwm = if b then (f r).c.pwm else r.c.pwm := by
  cases b <;> rfl
theorem ChR.when_adc (r : ChR) (b : Bool) (f : ChOp) : (r.when b f).c.adc = if b then (f r).c.adc else r.c.adc := by
  cases b <;> rfl
theorem ChR.when_pos (r : ChR) (b : Bool) (f : ChOp) : (r.when b f).c.pos = if b then (f r).c.pos else r.c.pos := by
  cases b <;> rfl
theorem ChR.when_fcu (r : ChR) (b : Bool) (f : ChOp) : (r.when b f).c.fcu = if b then (f r).c.fcu else r.c.fcu := by
  cases b <;> rfl
theorem ChR.when_nle (r : ChR) (b : Bool) (f : ChOp) : (r.when b f).c.nle = if b then (f r).c.nle else r.c.nle := by
  cases b <;> rfl
theorem ChR.when_prot (r : ChR) (b : Bool) (f : ChOp) : (r.when b f).c.prot = if b then (f r).c.prot else r.c.prot := by
  cases b <;> rfl
theorem ChR.when_therm (r : ChR) (b : Bool) (f : ChOp) : (r.when b f).c.therm = if b then (f r).c.therm else r.c.therm := by
  cases b <;> rfl
theorem ChR.when_tag (r : ChR) (b : Bool) (f : ChOp) : (r.when b f).c.tag = if b then (f r).c.tag else r.c.tag := by
  cases b <;> rfl
@[simp] theorem ChR.core_c_core (r : ChR) (f) : (r.core f).c.core = f r.c.core := rfl
@[simp] theorem ChR.core_c_tb (r : ChR) (f) : (r.core f).c.tb = r.c.tb := rfl
@[simp] theorem ChR.core_c_pwm (r : ChR) (f) : (r.core f).c.pwm = r.c.pwm := rfl
@[simp] theorem ChR.core_c_adc (r : ChR) (f) : (r.core f).c.adc = r.c.adc := rfl
@[simp] theorem ChR.core_c_pos (r : ChR) (f) : (r.core f).c.pos = r.c.pos := rfl
@[simp] theorem ChR.core_c_fcu (r : ChR) (f) : (r.core f).c.fcu = r.c.fcu := rfl
@[simp] theorem ChR.core_c_nle (r : ChR) (f) : (r.core f).c.nle = r.c.nle := rfl
@[simp] theorem ChR.core_c_prot (r : ChR) (f) : (r.core f).c.prot = r.c.prot := rfl
@[simp] theorem ChR.core_c_therm (r : ChR) (f) : (r.core f).c.therm = r.c.therm := rfl
@[simp] theorem ChR.core_c_tag (r : ChR) (f) : (r.core f).c.tag = r.c.tag := rfl
@[simp] theorem ChR.tb_c_tb (r : ChR) (f) : (r.tb f).c.tb = f r.c.tb := rfl
@[simp] theorem ChR.tb_c_core (r : ChR) (f) : (r.tb f).c.core = r.c.core := rfl
@[simp] theorem ChR.tb_c_pwm (r : ChR) (f) : (r.tb f).c.pwm = r.c.pwm := rfl
@[simp] theorem ChR.tb_c_adc (r : ChR) (f) : (r.tb f).c.adc = r.c.adc := rfl
@[simp] theorem ChR.tb_c_pos (r : ChR) (f) : (r.tb f).c.pos = r.c.pos := rfl
@[simp] theorem ChR.tb_c_fcu (r : ChR) (f) : (r.tb f).c.fcu = r.c.fcu := rfl
@[simp] theorem ChR.tb_c_nle (r : ChR) (f) : (r.tb f).c.nle = r.c.nle := rfl
@[simp] theorem ChR.tb_c_prot (r : ChR) (f) : (r.tb f).c.prot = r.c.prot := rfl
@[simp] theorem ChR.tb_c_therm (r : ChR) (f) : (r.tb f).c.therm = r.c.therm := rfl
@[simp] theorem ChR.tb_c_tag (r : ChR) (f) : (r.tb f).c.tag = r.c.tag := rfl
@[simp] theorem ChR.pwm_c_pwm (r : ChR) (f) : (r.pwm f).c.pwm = f r.c.pwm := rfl
@[simp] theorem ChR.pwm_c_core (r : ChR) (f) : (r.pwm f).c.core = r.c.core := rfl
@[simp] theorem ChR.pwm_c_tb (r : ChR) (f) : (r.pwm f).c.tb = r.c.tb := rfl
@[simp] theorem ChR.pwm_c_adc (r : ChR) (f) : (r.pwm f).c.adc = r.c.adc := rfl
@[simp] theorem ChR.pwm_c_pos (r : ChR) (f) : (r.pwm f).c.pos = r.c.pos := rfl
@[simp] theorem ChR.pwm_c_fcu (r : ChR) (f) : (r.pwm f).c.fcu = r.c.fcu := rfl
@[simp] theorem ChR.pwm_c_nle (r : ChR) (f) : (r.pwm f).c.nle = r.c.nle := rfl
@[simp] theorem ChR.pwm_c_prot (r : ChR) (f) : (r.pwm f).c.prot = r.c.prot := rfl
@[simp] theorem ChR.pwm_c_therm (r : ChR) (f) : (r.pwm f).c.therm = r.c.therm := rfl
@[simp] theorem ChR.pwm_c_tag (r : ChR) (f) : (r.pwm f).c.tag = r.c.tag := rfl
@[simp] theorem ChR.adc_c_adc (r : ChR) (f) : (r.adc f).c.adc = f r.c.adc := rfl
@[simp] theorem ChR.adc_c_core (r : ChR) (f) : (r.adc f).c.core = r.c.core := rfl
@[simp] theorem ChR.adc_c_tb (r : ChR) (f) : (r.adc f).c.tb = r.c.tb := rfl
@[simp] theorem ChR.adc_c_pwm (r : ChR) (f) : (r.adc f).c.pwm = r.c.pwm := rfl
@[simp] theorem ChR.adc_c_pos (r : ChR) (f) : (r.adc f).c.pos = r.c.pos := rfl
@[simp] theorem ChR.adc_c_fcu (r : ChR) (f) : (r.adc f).c.fcu = r.c.fcu := rfl
@[simp] theorem ChR.adc_c_nle (r : ChR) (f) : (r.adc f).c.nle = r.c.nle := rfl
@[simp] theorem ChR.adc_c_prot (r : ChR) (f) : (r.adc f).c.prot = r.c.prot := rfl
@[simp] theorem ChR.adc_c_therm (r : ChR) (f) : (r.adc f).c.therm = r.c.therm := rfl
@[simp] theorem ChR.adc_c_tag (r : ChR) (f) : (r.adc f).c.tag = r.c.tag := rfl
@[simp] theorem ChR.pos_c_pos (r : ChR) (f) : (r.pos f).c.pos = f r.c.pos := rfl
@[simp] theorem ChR.pos_c_core (r : ChR) (f) : (r.pos f).c.core = r.c.core := rfl
@[simp] theorem ChR.pos_c_tb (r : ChR) (f) : (r.pos f).c.tb = r.c.tb := rfl
@[simp] theorem ChR.pos_c_pwm (r : ChR) (f) : (r.pos f).c.pwm = r.c.pwm := rfl
@[simp] theorem ChR.pos_c_adc (r : ChR) (f) : (r.pos f).c.adc = r.c.adc := rfl
@[simp] theorem ChR.pos_c_fcu (r : ChR) (f) : (r.pos f).c.fcu = r.c.fcu := rfl
@[simp] theorem ChR.pos_c_nle (r : ChR) (f) : (r.pos f).c.nle = r.c.nle := rfl
@[simp] theorem ChR.pos_c_prot (r : ChR) (f) : (r.pos f).c.prot = r.c.prot := rfl
@[simp] theorem ChR.pos_c_therm (r : ChR) (f) : (r.pos f).c.therm = r.c.therm := rfl
@[simp] theorem ChR.pos_c_tag (r : ChR) (f) : (r.pos f).c.tag = r.c.tag := rfl
@[simp] theorem ChR.fcu_c_fcu (r : ChR) (f) : (r.fcu f).c.fcu = f r.c.fcu := rfl
@[simp] theorem ChR.fcu_c_core (r : ChR) (f) : (r.fcu f).c.core = r.c.core := rfl
@[simp] theorem ChR.fcu_c_tb (r : ChR) (f) : (r.fcu f).c.tb = r.c.tb := rfl
@[simp] theorem ChR.fcu_c_pwm (r : ChR) (f) : (r.fcu f).c.pwm = r.c.pwm := rfl
@[simp] theorem ChR.fcu_c_adc (r : ChR) (f) : (r.fcu f).c.adc = r.c.adc := rfl
@[simp] theorem ChR.fcu_c_pos (r : ChR) (f) : (r.fcu f).c.pos = r.c.pos := rfl
@[simp] theorem ChR.fcu_c_nle (r : ChR) (f) : (r.fcu f).c.nle = r.c.nle := rfl
@[simp] theorem ChR.fcu_c_prot (r : ChR) (f) : (r.fcu f).c.prot = r.c.prot := rfl
@[simp] theorem ChR.fcu_c_therm (r : ChR) (f) : (r.fcu f).c.therm = r.c.therm := rfl
@[simp] theorem ChR.fcu_c_tag (r : ChR) (f) : (r.fcu f).c.tag = r.c.tag := rfl
@[simp] theorem ChR.nle_c_nle (r : ChR) (f) : (r.nle f).c.nle = f r.c.nle := rfl
@[simp] theorem ChR.nle_c_core (r : ChR) (f) : (r.nle f).c.core = r.c.core := rfl
@[simp] theorem ChR.nle_c_tb (r : ChR) (f) : (r.nle f).c.tb = r.c.tb := rfl
@[simp] theorem ChR.nle_c_pwm (r : ChR) (f) : (r.nle f).c.pwm = r.c.pwm := rfl
@[simp] theorem ChR.nle_c_adc (r : ChR) (f) : (r.nle f).c.adc = r.c.adc := rfl
@[simp] theorem ChR.nle_c_pos (r : ChR) (f) : (r.nle f).c.pos = r.c.pos := rfl
@[simp] theorem ChR.nle_c_fcu (r : ChR) (f) : (r.nle f).c.fcu = r.c.fcu := rfl
@[simp] theorem ChR.nle_c_prot (r : ChR) (f) : (r.nle f).c.prot = r.c.prot := rfl
@[simp] theorem ChR.nle_c_therm (r : ChR) (f) : (r.nle f).c.therm = r.c.therm := rfl
@[simp] theorem ChR.nle_c_tag (r : ChR) (f) : (r.nle f).c.tag = r.c.tag := rfl
@[simp] theorem ChR.prot_c_prot (r : ChR) (f) : (r.prot f).c.prot = f r.c.prot := rfl
@[simp] theorem ChR.prot_c_core (r : ChR) (f) : (r.prot f).c.core = r.c.core := rfl
@[simp] theorem ChR.prot_c_tb (r : ChR) (f) : (r.prot f).c.tb = r.c.tb := rfl
@[simp] theorem ChR.prot_c_pwm (r : ChR) (f) : (r.prot f).c.pwm = r.c.pwm := rfl
@[simp] theorem ChR.prot_c_adc (r : ChR) (f) : (r.prot f).c.adc = r.c.adc := rfl
@[simp] theorem ChR.prot_c_pos (r : ChR) (f) : (r.prot f).c.pos = r.c.pos := rfl
@[simp] theorem ChR.prot_c_fcu (r : ChR) (f) : (r.prot f).c.fcu = r.c.fcu := rfl
@[simp] theorem ChR.prot_c_nle (r : ChR) (f) : (r.prot f).c.nle = r.c.nle := rfl
@[simp] theorem ChR.prot_c_therm (r : ChR) (f) : (r.prot f).c.therm = r.c.therm := rfl
@[simp] theorem ChR.prot_c_tag (r : ChR) (f) : (r.prot f).c.tag = r.c.tag := rfl
@[simp] theorem ChR.therm_c_therm (r : ChR) (f) : (r.therm f).c.therm = f r.c.therm := rfl
@[simp] theorem ChR.therm_c_core (r : ChR) (f) : (r.therm f).c.core = r.c.core := rfl
@[simp] theorem ChR.therm_c_tb (r : ChR) (f) : (r.therm f).c.tb = r.c.tb := rfl
@[simp] theorem ChR.therm_c_pwm (r : ChR) (f) : (r.therm f).c.pwm = r.c.pwm := rfl
@[simp] theorem ChR.therm_c_adc (r : ChR) (f) : (r.therm f).c.adc = r.c.adc := rfl
@[simp] theorem ChR.therm_c_pos (r : ChR) (f) : (r.therm f).c.pos = r.c.pos := rfl
@[simp] theorem ChR.therm_c_fcu (r : ChR) (f) : (r.therm f).c.fcu = r.c.fcu := rfl
@[simp] theorem ChR.therm_c_nle (r : ChR) (f) : (r.therm f).c.nle = r.c.nle := rfl
@[simp] theorem ChR.therm_c_prot (r : ChR) (f) : (r.therm f).c.prot = r.c.prot := rfl
@[simp] theorem ChR.therm_c_tag (r : ChR) (f) : (r.therm f).c.tag = r.c.tag := rfl
@[simp] theorem ChR.tag_c_tag (r : ChR) (f) : (r.tag f).c.tag = f r.c.tag := rfl
@[simp] theorem ChR.tag_c_core (r : ChR) (f) : (r.tag f).c.core = r.c.core := rfl
@[simp] theorem ChR.tag_c_tb (r : ChR) (f) : (r.tag f).c.tb = r.c.tb := rfl
@[simp] theorem ChR.tag_c_pwm (r : ChR) (f) : (r.tag f).c.pwm = r.c.pwm := rfl
@[simp] theorem ChR.tag_c_adc (r : ChR) (f) : (r.tag f).c.adc = r.c.adc := rfl
@[simp] theorem ChR.tag_c_pos (r : ChR) (f) : (r.tag f).c.pos = r.c.pos := rfl
@[simp] theorem ChR.tag_c_fcu (r : ChR) (f) : (r.tag f).c.fcu = r.c.fcu := rfl
@[simp] theorem ChR.tag_c_nle (r : ChR) (f) : (r.tag f).c.nle = r.c.nle := rfl
@[simp] theorem ChR.tag_c_prot (r : ChR) (f) : (r.tag f).c.prot = r.c.prot := rfl
@[simp] theorem ChR.tag_c_therm (r : ChR) (f) : (r.tag f).c.therm = r.c.therm := rfl

/-! ### What each stage leaves of each part -/

/-- What ends with the state left leaves every part but the test in progress, the discharge, and under a position test the
position state. -/
theorem ChR.leaveWaits_c (r : ChR) (new : ChCode) (k : Nat) : ∃ p : PosS, (r.leaveWaits new k).c = { r.c with
    core := { r.c.core with lb := none }, fcu := { r.c.fcu with dis := none }, pos := p } ∧
    p.cfg = r.c.pos.cfg ∧ p.cpr = r.c.pos.cpr ∧ p.indexPos = r.c.pos.indexPos := by
  simp only [ChR.leaveWaits]
  have e1 : ∀ (r : ChR) b (f : ChOp), (∀ x, (f x).c = x.c) → (r.when b f).c = r.c := by
    intro r b f h; cases b <;> simp [h]
  generalize h1 : (ChR.when (r.when (r.c.tb.seqBegan.isSome && new != ChCode.armed) fun r => r.finish [16] stAborted new.num 0) _ _) = r1
  have c1 : r1.c = r.c := by
    rw [← h1, e1 _ _ _ (by intro x; rfl), e1 _ _ _ (by intro x; rfl)]
  have c2 : ∀ m, ∃ p : PosS, (r1.endLb 0 m).c = { r.c with core := { r.c.core with lb := none }, pos := p } ∧
      p.cfg = r.c.pos.cfg ∧ p.cpr = r.c.pos.cpr ∧ p.indexPos = r.c.pos.indexPos := by
    intro m
    simp only [ChR.endLb]; split
    · rename_i h; rw [c1] at h ⊢; refine ⟨r.c.pos, ?_, rfl, rfl, rfl⟩; rw [← h]
    · rename_i l _
      simp only [ChR.finish_c, ChR.event_c]; split
      · exact ⟨({ r.c.pos with pins := l.balls } : PosS).resetState, by simp only [ChR.pos, ChR.core, c1], rfl, rfl, rfl⟩
      · exact ⟨r.c.pos, by simp only [ChR.core, c1], rfl, rfl, rfl⟩
  generalize h2 : r1.endLb 0 _ = r2
  obtain ⟨p, c2, hp⟩ := c2 _
  rw [h2] at c2
  split
  · refine ⟨p, ?_, hp⟩
    simp only [ChR.fcu]
    rw [e1 _ _ _ (fun x => ChR.reportDischarge_c x 2 _), c2]
  · rename_i h
    refine ⟨p, ?_, hp⟩
    rw [c2] at h ⊢
    simp only at h
    rw [← h]

/-- R229 a source's level touches the filters alone. -/
theorem ChR.restartFilter_c (r : ChR) (s : TripSrc) : ∃ y, (r.restartFilter s).c = { r.c with prot := { r.c.prot with trip := y } } := by
  simp only [ChR.restartFilter, ChR.feedSource, ChR.setRaw]; split <;> exact ⟨_, rfl⟩

/-- R281 the end of a comparator test changes the sensing unit and the filters of its sources. -/
theorem ChR.endCmpTest_c (r : ChR) (a : BitVec 5) (b : Bool) : ∃ x y, (r.endCmpTest a b).c =
    { r.c with adc := x, prot := { r.c.prot with trip := y } } ∧
    x = { r.c.adc with cmpTest := none, cmpFail := x.cmpFail } := by
  simp only [ChR.endCmpTest]; split
  · rename_i h; refine ⟨r.c.adc, r.c.prot.trip, rfl, ?_⟩; rw [← h]
  · simp only [ChR.finish_c, ChR.event_c]
    generalize hr : r.adc _ = r0
    obtain ⟨y1, h1⟩ := r0.restartFilter_c .ocU
    obtain ⟨y2, h2⟩ := (r0.restartFilter .ocU).restartFilter_c .ocV
    obtain ⟨y3, h3⟩ := ((r0.restartFilter .ocU).restartFilter .ocV).restartFilter_c .ov2
    refine ⟨r0.c.adc, y3, ?_, ?_⟩
    · rw [h3, h2, h1, ← hr]; rfl
    · rw [← hr]; rfl

/-- R159 the time base with the PLL stopped. -/
def TbS.stopped (b : TbS) : TbS :=
  { b with
    state := .idle, seqFrom := none, seqBegan := none, picked := false, calDue := 0, req := {}, change := none, realign := {},
    lengthened := false, coastFrom := none }

/-- Calibrations that end touch the CAL bits alone. -/
theorem TbS.keepCal_host (b : TbS) (t : Nat) : (b.keepCal t).host = b.host := by
  have : (b.keepCal t).bands.map (fun x => { x with cal := false }) = b.bands.map (fun x => { x with cal := false }) := by
    apply Vector.ext; intro i hi; simp [TbS.keepCal]
  simp only [TbS.host, this]; rfl

/-- R187 a new count leaves everything but the clock and the instants that count it. -/
theorem ChR.setTicks_c (r : ChR) (v : Nat) : ∃ b p, (r.setTicks v).c = { r.c with tb := b, pwm := p } ∧
    b.host = r.c.tb.host ∧ p.host = r.c.pwm.host ∧ p.released = r.c.pwm.released := by
  simp only [ChR.setTicks, ChR.retick]
  exact ⟨_, _, rfl, rfl, rfl, rfl⟩

/-- R159, R160 a switch of the clock source. -/
theorem ChR.switchClock_c (r : ChR) (b : Bool) : ∃ x p, (r.switchClock b).c = { r.c with core := { r.c.core with onPll := b }, tb := x, pwm := p } ∧
    x.host = r.c.tb.host ∧ p.host = r.c.pwm.host ∧ p.released = r.c.pwm.released := by
  simp only [ChR.switchClock]
  generalize (if b = true then _ else 0) = v
  obtain ⟨x, p, h, hx, hp, hr⟩ := r.setTicks_c v
  refine ⟨(if b = true then x else { x with idleNo := (r.setTicks v).env.free }), p, ?_, ?_, hp, hr⟩
  · simp only [ChR.tb, ChR.core, h]
  · rw [← hx]; cases b <;> rfl

/-- R160 legs idle. -/
theorem ChR.legsIdle_c (r : ChR) : ∃ o, r.legsIdle.c = { r.c with pwm := { r.c.pwm with outs := o } } := ⟨_, rfl⟩

/-- R159 the PLL stops: nothing but the clock, the lanes and the slots in progress changes. -/
theorem ChR.stopPll_c (r : ChR) : ∃ b p a, r.stopPll.c =
    { r.c with core := { r.c.core with onPll := false }, tb := b, pwm := p, adc := a } ∧
    (b.state = .idle ∧ b.seqFrom = none ∧ b.seqBegan = none ∧ b.picked = false ∧ b.req = {} ∧ b.change = none ∧
    b.realign = {} ∧ b.coastFrom = none) ∧ b.host = r.c.tb.host ∧ p.host = r.c.pwm.host ∧ p.released = r.c.pwm.released ∧
    a = { r.c.adc with hkAt := a.hkAt, freeNo := a.freeNo, xchkAt := a.xchkAt, slot := a.slot } := by
  have key : ∃ x p, (r.when r.c.core.onPll (fun r => r.legsIdle.switchClock false)).c =
      { r.c with core := { r.c.core with onPll := false }, tb := x, pwm := p } ∧
      x.host = r.c.tb.host ∧ p.host = r.c.pwm.host ∧ p.released = r.c.pwm.released := by
    cases h : r.c.core.onPll
    · have e : r.c.core = { r.c.core with onPll := false } := by rw [← h]
      exact ⟨r.c.tb, r.c.pwm, by rw [ChR.when, ← e]; rfl, rfl, rfl, rfl⟩
    · obtain ⟨o, ho⟩ := r.legsIdle_c
      obtain ⟨x, p, hx, h1, h2, h3⟩ := r.legsIdle.switchClock_c false
      rw [ho] at hx h1 h2 h3
      exact ⟨x, p, hx, h1, h2, h3⟩
  simp only [ChR.stopPll]
  obtain ⟨x, p, h, hx, hp, hr⟩ := key
  generalize r.when _ _ = r1 at h
  have e : ∀ t, ((x.keepCal t).stopped).host = r.c.tb.host := by
    intro t; rw [← hx, ← x.keepCal_host t]; rfl
  split
  · refine ⟨(x.keepCal r1.env.t).stopped, { p with count0 := none, midDone := false, extra := 0, periodReq := {}, duty := {} },
      { r.c.adc with hkAt := none, freeNo := 0, xchkAt := 0, slot := none }, ?_, ⟨rfl, rfl, rfl, rfl, rfl, rfl, rfl, rfl⟩,
      e _, hp, hr, rfl⟩
    simp only [ChR.tb, ChR.pwm, ChR.adc, h]; rfl
  · refine ⟨(x.keepCal r1.env.t).stopped, { p with count0 := none, midDone := false, extra := 0, periodReq := {}, duty := {} },
      r.c.adc, ?_, ⟨rfl, rfl, rfl, rfl, rfl, rfl, rfl, rfl⟩, e _, hp, hr, rfl⟩
    simp only [ChR.tb, ChR.pwm, h]; rfl

/-- The codes, and what a transition does to the rest of the channel's state (R132, R139, R159, R20, R781). -/
theorem ChR.goto_core (r : ChR) (new : ChCode) (k : Nat) : (r.goto new k).c.core = { r.c.core with
    code := new, prev := r.c.core.code, cause := k, lb := none
    onPll := r.c.core.onPll && !(r.c.pllEnds new)
    stopFrom := if new == .stopping then some r.env.t else none
    rwlDrop := if r.c.core.code == .locked && new != .locked then 0 else r.c.core.rwlDrop
    thermal := (r.c.core.thermal && !(r.c.core.code.inTrip && !new.inTrip) && new == .tripped) ||
      (new == .tripped && k == 0x60) } := by
  obtain ⟨p, hw, _⟩ := ChR.leaveWaits_c r new k
  have he : ∀ (x : ChR), (x.endCmpTest x.failsSoFar true).c.core = x.c.core := by
    intro x; obtain ⟨y, z, h, _⟩ := ChR.endCmpTest_c x x.failsSoFar true; rw [h]
  have hs : ∀ (x : ChR), x.stopPll.c.core = { x.c.core with onPll := false } := by
    intro x; obtain ⟨b, p, a, h, _⟩ := ChR.stopPll_c x; rw [h]
  have hd : ∀ (x : ChR), x.disableNle.c.core = x.c.core := by
    intro x; simp only [ChR.disableNle]; split <;> rfl
  simp only [ChR.goto, ChR.event_c, ChR.when_core, he, ChR.setCode, ChR.core_c_core, ite_self, ChR.leaveLanes_env,
    ChR.intoEngine_env, ChR.leaveTrip_env, ChR.when_view ChR.env, ChR.stopPll_env, ChR.leaveWaits_env]
  simp only [ChR.when_core, ChR.leaveLanes, ChR.intoEngine, ChR.leaveTrip, ChR.core_c_core, ChR.fcu_c_core, ChR.pwm_c_core, ChR.adc_c_core, ChR.prot_c_core, ChR.pos_c_core, hd, hs, hw, ChR.intoArmed,
    ChR.freshArmed, ChR.nle_c_core, ite_self]
  cases r.c.pllEnds new <;> cases (r.c.core.code == ChCode.locked && new != ChCode.locked) <;>
    cases (r.c.core.code.inTrip && !new.inTrip) <;> simp

/-- An operation under a condition keeps what it keeps. -/
theorem ChR.when_kept {α : Type} (g : Chan → α) (r : ChR) (b : Bool) (f : ChOp) (h : ∀ x : ChR, g (f x).c = g x.c) :
    g (r.when b f).c = g r.c := by cases b <;> simp [h]

theorem ChR.stopPll_kept (r : ChR) : r.stopPll.c.kept = r.c.kept := by
  obtain ⟨b, p, a, h, _, hb, hp, _, ha⟩ := ChR.stopPll_c r
  rw [h]; simp only [Chan.kept, hb, hp]; rw [ha]
theorem ChR.disableNle_kept (r : ChR) : r.disableNle.c.kept = r.c.kept := by simp only [ChR.disableNle]; split <;> rfl
theorem ChR.endLb_kept (r : ChR) (a b : Nat) : (r.endLb a b).c.kept = r.c.kept := by
  simp only [ChR.endLb]; split
  · rfl
  · simp only [ChR.finish_c, ChR.event_c]; split <;> rfl
theorem ChR.endCmpTest_kept (r : ChR) (a : BitVec 5) (b : Bool) : (r.endCmpTest a b).c.kept = r.c.kept := by
  obtain ⟨x, y, h, hx⟩ := ChR.endCmpTest_c r a b
  rw [h]; simp only [Chan.kept]; rw [hx]
theorem ChR.abortIdent_kept (r : ChR) (a : Nat) (b : Option Nat) : (r.abortIdent a b).c.kept = r.c.kept := by
  simp only [ChR.abortIdent]; split <;> rfl

/-- R132: no transition touches what the host has set up. -/
theorem ChR.goto_kept (r : ChR) (new : ChCode) (k : Nat) : (r.goto new k).c.kept = r.c.kept := by
  have hw : (r.leaveWaits new k).c.kept = r.c.kept := by
    obtain ⟨p, h, h1, h2, h3⟩ := ChR.leaveWaits_c r new k
    rw [h]; simp only [Chan.kept, h1, h2, h3]
  have ht : ∀ (x : ChR) o, (x.leaveTrip o new).c.kept = x.c.kept := by
    intro x o; simp only [ChR.leaveTrip]
    rw [ChR.when_kept Chan.kept _ _ _ (by intro _; rfl), ChR.when_kept Chan.kept _ _ _ (by intro _; rfl),
      ChR.when_kept Chan.kept _ _ _ (by intro _; rfl)]
  have hn : ∀ (x : ChR) o, (x.intoEngine o new).c.kept = x.c.kept := by
    intro x o; simp only [ChR.intoEngine]
    rw [ChR.when_kept Chan.kept _ _ _ (by intro _; rfl), ChR.when_kept Chan.kept _ _ _ (by intro _; rfl),
      ChR.when_kept Chan.kept _ _ _ ChR.disableNle_kept]
  have hl : ∀ (x : ChR) o, (x.leaveLanes o new).c.kept = x.c.kept := by
    intro x o; simp only [ChR.leaveLanes]
    rw [ChR.when_kept Chan.kept _ _ _ (by intro _; rfl), ChR.when_kept Chan.kept _ _ _ (by intro _; rfl),
      ChR.when_kept Chan.kept _ _ _ (by intro _; rfl), ChR.when_kept Chan.kept _ _ _ (by intro _; rfl)]
  simp only [ChR.goto, ChR.event_c]
  rw [ChR.when_kept Chan.kept _ _ _ (fun x => ChR.endCmpTest_kept x _ _)]
  have hc : ∀ (x : ChR) o, (x.setCode o new k).c.kept = x.c.kept := by intro _ _; rfl
  rw [hc, hl, hn, ht, ChR.when_kept Chan.kept _ _ _ ChR.stopPll_kept, hw]

/-- R387 the loop engine after a transition. -/
theorem ChR.goto_enabled (r : ChR) (new : ChCode) (k : Nat) :
    (r.goto new k).c.nle.enabled = (if new.stopsPll then false else if new == .armed then true else r.c.nle.enabled) := by
  obtain ⟨p, hw, _⟩ := ChR.leaveWaits_c r new k
  have he : ∀ (x : ChR), (x.endCmpTest x.failsSoFar true).c.nle = x.c.nle := by
    intro x; obtain ⟨y, z, h, _⟩ := ChR.endCmpTest_c x x.failsSoFar true; rw [h]
  have hs : ∀ (x : ChR), x.stopPll.c.nle = x.c.nle := by
    intro x; obtain ⟨b, p, a, h, _⟩ := ChR.stopPll_c x; rw [h]
  have hd : ∀ (x : ChR), x.disableNle.c.nle.enabled = false := by
    intro x; simp only [ChR.disableNle]; split
    · rfl
    · simp_all
  simp only [ChR.goto, ChR.event_c, ChR.when_nle, he, ChR.setCode, ChR.leaveLanes, ChR.intoEngine, ChR.leaveTrip,
    ChR.core_c_nle, ChR.fcu_c_nle, ChR.pwm_c_nle, ChR.adc_c_nle, ChR.prot_c_nle, ChR.pos_c_nle, hs, hw, ChR.intoArmed,
    ChR.freshArmed, ChR.nle_c_nle, ite_self]
  cases h1 : new.stopsPll <;> cases h2 : (new == .armed) <;>
    cases h3 : (r.c.core.code == ChCode.off || r.c.core.code == ChCode.ready) <;> simp [hd]
  all_goals (simp only [beq_iff_eq] at h2; subst h2; cases h1)

/-- R224 the lanes' release after a transition. -/
theorem ChR.goto_released (r : ChR) (new : ChCode) (k : Nat) :
    (r.goto new k).c.pwm.released =
      (r.c.pwm.released && !(new == .armed) && !(r.c.core.code.drives && !new.drives)) := by
  obtain ⟨p, hw, _⟩ := ChR.leaveWaits_c r new k
  have hv : ∀ (r : ChR) b (f : ChOp), (r.when b f).c.pwm.released =
      if b then (f r).c.pwm.released else r.c.pwm.released := ChR.when_view fun r => r.c.pwm.released
  have he : ∀ (x : ChR), (x.endCmpTest x.failsSoFar true).c.pwm = x.c.pwm := by
    intro x; obtain ⟨y, z, h, _⟩ := ChR.endCmpTest_c x x.failsSoFar true; rw [h]
  have hs : ∀ (x : ChR), x.stopPll.c.pwm.released = x.c.pwm.released := by
    intro x; obtain ⟨b, p, a, h, _, _, _, hp, _⟩ := ChR.stopPll_c x; rw [h]; exact hp
  have hd : ∀ (x : ChR), x.disableNle.c.pwm = x.c.pwm := by
    intro x; simp only [ChR.disableNle]; split <;> rfl
  simp only [ChR.goto, ChR.event_c, hv, he, ChR.setCode, ChR.leaveLanes, ChR.intoEngine, ChR.leaveTrip,
    ChR.core_c_pwm, ChR.fcu_c_pwm, ChR.pwm_c_pwm, ChR.adc_c_pwm, ChR.prot_c_pwm, ChR.pos_c_pwm, hs, hw, hd, ChR.intoArmed,
    ChR.freshArmed, ChR.nle_c_pwm, ite_self]
  cases (r.c.core.code.drives && !new.drives) <;> cases (new == .armed) <;> simp

/-- R159 the time base after a transition. -/
theorem ChR.goto_tb (r : ChR) (new : ChCode) (k : Nat) :
    if r.c.pllEnds new then
      (r.goto new k).c.tb.state = .idle ∧ (r.goto new k).c.tb.seqFrom = none ∧ (r.goto new k).c.tb.seqBegan = none ∧
      (r.goto new k).c.tb.picked = false ∧ (r.goto new k).c.tb.req = {} ∧ (r.goto new k).c.tb.change = none ∧
      (r.goto new k).c.tb.realign = {} ∧ (r.goto new k).c.tb.coastFrom = none
    else (r.goto new k).c.tb = r.c.tb := by
  obtain ⟨p, hw, _⟩ := ChR.leaveWaits_c r new k
  have he : ∀ (x : ChR), (x.endCmpTest x.failsSoFar true).c.tb = x.c.tb := by
    intro x; obtain ⟨y, z, h, _⟩ := ChR.endCmpTest_c x x.failsSoFar true; rw [h]
  have hd : ∀ (x : ChR), x.disableNle.c.tb = x.c.tb := by
    intro x; simp only [ChR.disableNle]; split <;> rfl
  have h : (r.goto new k).c.tb = ((r.leaveWaits new k).when (r.c.pllEnds new) ChR.stopPll).c.tb := by
    simp only [ChR.goto, ChR.event_c, ChR.when_tb, he, ChR.setCode, ChR.leaveLanes, ChR.intoEngine, ChR.leaveTrip,
      ChR.core_c_tb, ChR.fcu_c_tb, ChR.pwm_c_tb, ChR.adc_c_tb, ChR.prot_c_tb, ChR.pos_c_tb, hd, ChR.intoArmed,
      ChR.freshArmed, ChR.nle_c_tb, ite_self]
  split
  · rename_i hp
    obtain ⟨b, _, _, hs, hb, _⟩ := (r.leaveWaits new k).stopPll_c
    rw [h, hp, ChR.when_true, hs]; exact hb
  · rename_i hp
    rw [h, Bool.eq_false_iff.mpr hp, ChR.when_false, hw]

/-- What a command leaves of protection's hold and of its retry (R228, R448, R449). -/
theorem ChR.goto_held (r : ChR) (new : ChCode) (k : Nat) :
    (r.goto new k).c.prot.held = (if r.c.core.code.inTrip && !new.inTrip then 0 else r.c.prot.held) ∧
    (r.goto new k).c.prot.wait =
      (if new == .locked then none else if r.c.core.code.inTrip && !new.inTrip then none else r.c.prot.wait) := by
  obtain ⟨p, hw, _⟩ := ChR.leaveWaits_c r new k
  have hv : ∀ (r : ChR) b (f : ChOp), (r.when b f).c.prot.held =
      if b then (f r).c.prot.held else r.c.prot.held := ChR.when_view fun r => r.c.prot.held
  have hv' : ∀ (r : ChR) b (f : ChOp), (r.when b f).c.prot.wait =
      if b then (f r).c.prot.wait else r.c.prot.wait := ChR.when_view fun r => r.c.prot.wait
  have he : ∀ (x : ChR), (x.endCmpTest x.failsSoFar true).c.prot.held = x.c.prot.held ∧
      (x.endCmpTest x.failsSoFar true).c.prot.wait = x.c.prot.wait := by
    intro x; obtain ⟨y, z, h, _⟩ := ChR.endCmpTest_c x x.failsSoFar true; rw [h]; exact ⟨rfl, rfl⟩
  have hs : ∀ (x : ChR), x.stopPll.c.prot = x.c.prot := by
    intro x; obtain ⟨b, p, a, h, _⟩ := ChR.stopPll_c x; rw [h]
  have hd : ∀ (x : ChR), x.disableNle.c.prot = x.c.prot := by
    intro x; simp only [ChR.disableNle]; split <;> rfl
  constructor <;> simp only [ChR.goto, ChR.event_c, hv, hv', fun x => (he x).1, fun x => (he x).2, ChR.setCode, ChR.leaveLanes, ChR.intoEngine, ChR.leaveTrip,
    ChR.core_c_prot, ChR.fcu_c_prot, ChR.pwm_c_prot, ChR.adc_c_prot, ChR.prot_c_prot, ChR.pos_c_prot, hs, hw, hd,
    ChR.intoArmed, ChR.freshArmed, ChR.nle_c_prot, ite_self]

/-- What a transition leaves of the field control unit: no discharge, the start's outcome, and PHASE. -/
theorem ChR.goto_fcu (r : ChR) (new : ChCode) (k : Nat) :
    (r.goto new k).c.fcu.dis = none ∧ (r.goto new k).c.fcu.startDone = r.c.fcu.startDone ∧
    (r.goto new k).c.fcu.phase = (if (r.c.core.code.drives && !new.drives) || r.c.core.code == .brake ||
      r.c.core.code == .discharge then .idle else r.c.fcu.phase) := by
  obtain ⟨p, hw, _⟩ := ChR.leaveWaits_c r new k
  have h1 : ∀ (r : ChR) b (f : ChOp), (r.when b f).c.fcu.dis = if b then (f r).c.fcu.dis else r.c.fcu.dis :=
    ChR.when_view fun r => r.c.fcu.dis
  have h2 : ∀ (r : ChR) b (f : ChOp), (r.when b f).c.fcu.startDone =
      if b then (f r).c.fcu.startDone else r.c.fcu.startDone := ChR.when_view fun r => r.c.fcu.startDone
  have h3 : ∀ (r : ChR) b (f : ChOp), (r.when b f).c.fcu.phase = if b then (f r).c.fcu.phase else r.c.fcu.phase :=
    ChR.when_view fun r => r.c.fcu.phase
  have he : ∀ (x : ChR), (x.endCmpTest x.failsSoFar true).c.fcu = x.c.fcu := by
    intro x; obtain ⟨y, z, h, _⟩ := ChR.endCmpTest_c x x.failsSoFar true; rw [h]
  have hs : ∀ (x : ChR), x.stopPll.c.fcu = x.c.fcu := by
    intro x; obtain ⟨b, p, a, h, _⟩ := ChR.stopPll_c x; rw [h]
  have hd : ∀ (x : ChR), x.disableNle.c.fcu = x.c.fcu := by
    intro x; simp only [ChR.disableNle]; split <;> rfl
  refine ⟨?_, ?_, ?_⟩ <;> simp only [ChR.goto, ChR.event_c, h1, h2, h3, he, ChR.setCode, ChR.leaveLanes, ChR.intoEngine,
    ChR.leaveTrip, ChR.core_c_fcu, ChR.fcu_c_fcu, ChR.pwm_c_fcu, ChR.adc_c_fcu, ChR.prot_c_fcu, ChR.pos_c_fcu, hs, hw, hd,
    ChR.intoArmed, ChR.freshArmed, ChR.nle_c_fcu, ite_self]
  cases (r.c.core.code.drives && !new.drives) <;> cases (r.c.core.code == .brake) <;>
    cases (r.c.core.code == .discharge) <;> simp

/-! ### Protection, and the consequences that every command of a channel ends with -/

theorem ChR.trip_kept (r : ChR) (q : Qual) (qs : List Qual) : (r.trip q qs).c.kept = r.c.kept := by
  simp only [ChR.trip, ChR.protTrip]
  repeat' split
  all_goals (try rw [ChR.goto_kept]); rfl
theorem ChR.emits_c (r : ChR) (l : List Qual) (f : ChR → Qual → ChR) (h : ∀ x q, (f x q).c = x.c) : (l.foldl f r).c = r.c :=
  foldl_keeps ChR.c f h l r
theorem ChR.joinTrip_kept (r : ChR) (q : Qual) (qs : List Qual) : (r.joinTrip q qs).c.kept = r.c.kept := by
  simp only [ChR.joinTrip, ChR.protTrip]
  split
  · rw [ChR.goto_kept]; simp only [ChR.eventAt_c]; rw [ChR.when_kept Chan.kept _ _ _ (by intro _; rfl)]; rfl
  · rw [ChR.when_kept Chan.kept _ _ _ (by intro _; rfl)]; rfl
theorem ChR.qualify_kept (r : ChR) (q : Qual) (qs : List Qual) : (r.qualify q qs).c.kept = r.c.kept := by
  simp only [ChR.qualify]
  repeat' split
  · rw [ChR.joinTrip_kept]; rfl
  · rw [ChR.trip_kept]; rfl
  · rw [ChR.goto_kept, ChR.abortIdent_kept]; rfl
  all_goals rw [ChR.emits_c _ _ _ (by intro _ _; rfl)]; rfl
theorem ChR.xcmd_kept (r : ChR) (l : Fin 3) : (r.xcmd l).c.kept = r.c.kept := by
  simp only [ChR.xcmd]
  repeat' split
  all_goals (try rw [ChR.qualify_kept]); rfl

/-- R224 the lanes take the commands that drive them; nothing else changes. -/
theorem ChR.syncLegs_kept (r : ChR) : r.syncLegs.c.kept = r.c.kept := rfl

/-- R8: what follows from a command never touches what the host has set up. -/
theorem ChR.settle_kept (r : ChR) : r.settle.c.kept = r.c.kept := by
  simp only [ChR.settle]
  generalize h1 : (if (r.c.fcu.phase == FcuPhase.wrongMotorAsc && !(ascAbove (r.c.ascSpeed r.env.t) r.env.stoSpeed)) = true
    then r.goto .wrongMotor 0x55 else r) = r1
  have k1 : r1.c.kept = r.c.kept := by rw [← h1]; split; exact ChR.goto_kept _ _ _; rfl
  generalize h2 : (if (!(ascAbove (r1.c.ascSpeed r1.env.t) r1.env.stoSpeed)) = true then _ else r1) = r2
  have k2 : r2.c.kept = r.c.kept := by rw [← h2, ← k1]; split <;> rfl
  generalize h3 : r2.prot _ = r3
  have k3 : r3.c.kept = r.c.kept := by rw [← h3, ← k2]; rfl
  generalize h4 : (if r3.env.shut = true then r3 else _) = r4
  have k4 : r4.c.kept = r.c.kept := by rw [← h4, ← k3]; split <;> rfl
  generalize h5 : (if (r4.c.core.code == ChCode.brake && !r4.c.fcu.brakeSlow && _) = true then _ else r4) = r5
  have k5 : r5.c.kept = r.c.kept := by rw [← h5, ← k4]; split <;> rfl
  generalize h6 : r5.pwm _ = r6
  have k6 : r6.c.kept = r.c.kept := by rw [← h6, ← k5]; rfl
  generalize h7 : (List.finRange 3).foldl _ r6 = r7
  have k7 : r7.c.kept = r.c.kept := by
    rw [← h7, ← k6]
    exact foldl_keeps (fun r : ChR => r.c.kept) _
      (fun x i => ChR.when_kept Chan.kept x _ _ (fun x => ChR.xcmd_kept x _)) _ _
  generalize h8 : ChR.when r7.syncLegs _ _ = r8
  have k8 : r8.c.kept = r.c.kept := by
    rw [← h8, ← k7, ChR.when_kept Chan.kept _ _ _ (by intro _; rfl)]; rfl
  split
  · exact k8
  · rw [← k8]; rfl

end Sys2Proof.Machine
end

