-- ==== Sys2Proof/Laws/Leaves.lean ====
section
/-! SUPPORT. How a statement of the form `Leaves` is reached: by a command of a channel, by a register write of the channel's
owner, and by a descriptor addressed to the channel; and what the operations of a channel keep of what it sees. -/
namespace Sys2Proof.Machine

/-- R20 counting a dropped write keeps what the channel sees. -/
@[simp] theorem ChR.countDrop_env (r : ChR) (b : Bool) : (r.countDrop b).env = r.env := by
  simp only [ChR.countDrop]; split <;> simp

/-! ### The three ways -/

/-- A command of one channel at DTIME `t`. -/
theorem leaves_chCmd {i : Instr} {s : State} {t : Nat} {n : ChanId} {P : Chan → Prop} (f : ChOp)
    (he : exec i s = s.chCmd t n f) (hp : (s.at t).powered = true)
    {u : Nat} (hu : u ≤ max s.dtime t) (henv : (f ((s.at t).chanIn n)).env = { (s.at t).chEnv n with t := u })
    (h : P (f ((s.at t).chanIn n)).c) : Leaves i s t n P := by
  refine ⟨(s.at t).onChan n fun r => (f r).settle, u, _, (f ((s.at t).chanIn n)).out, he.trans ?_, hu, h, ?_⟩
  · simp only [State.chCmd, hp, if_true]
  · rw [State.onChan_still]; rw [← henv]; rfl

/-- A write of a register of a channel's block reaches the channel of its owner. -/
theorem State.barWrite_chan (s : State) (p : PortId) (n : ChanId) (reg : Nat) (v : Word) (h4 : reg % 4 = 0)
    (hr : reg < 0x1000) (ho : s.ownerOf (chUnit n) = some p) :
    s.barWrite p (chanOff n reg) v = s.chan n (fun r => r.writeReg reg v) := by
  have hn := n.isLt
  have e0 : chanOff n reg % 4 = 0 := by simp only [chanOff]; omega
  have e1 : ¬ (0x400000 ≤ chanOff n reg) := by simp only [chanOff]; omega
  have e2 : 0x100000 ≤ chanOff n reg ∧ chanOff n reg < 0x180000 := by simp only [chanOff]; omega
  have e3 : chanOff n reg / 0x10000 = 0x10 ∨ chanOff n reg / 0x10000 = 0x11 ∨ chanOff n reg / 0x10000 = 0x12 ∨
      chanOff n reg / 0x10000 = 0x13 ∨ chanOff n reg / 0x10000 = 0x14 ∨ chanOff n reg / 0x10000 = 0x15 ∨
      chanOff n reg / 0x10000 = 0x16 ∨ chanOff n reg / 0x10000 = 0x17 := by simp only [chanOff]; omega
  have e4 : (chanOff n reg - 0x100000) / 0x1000 = n.val := by simp only [chanOff]; omega
  have e5 : chanOff n reg % 0x1000 = reg := by simp only [chanOff]; omega
  simp only [State.barWrite, State.barStore, portOptions, e0, e1, ne_eq, not_true_eq_false, or_self, if_false]
  have key : s.regWrite p (chanOff n reg) v (.arrived []) =
      s.ownerWrite p (chUnit ⟨(chanOff n reg - 0x100000) / 0x1000, by omega⟩) (chanOff n reg) fun s =>
        s.chan ⟨(chanOff n reg - 0x100000) / 0x1000, by omega⟩ fun r => r.writeReg (chanOff n reg % 0x1000) v := by
    rcases e3 with e | e | e | e | e | e | e | e <;> simp only [State.regWrite, e] <;> rw [dif_pos e2]
  rw [key]
  have en : (⟨(chanOff n reg - 0x100000) / 0x1000, by omega⟩ : ChanId) = n := Fin.ext e4
  rw [en, e5]
  simp only [State.ownerWrite, ho, if_true]

/-- Counting a request changes byte counts only. -/
theorem State.countMmio_still (s : State) (p : PortId) : (s.countMmio p).still = s.still := rfl

/-- A register write of the channel's owner. -/
theorem leaves_write {i : Instr} {s : State} {t : Nat} {p : PortId} {n : ChanId} {P : Chan → Prop} (reg : Nat) (v : Word)
    (he : exec i s = s.chanWrite t p n reg v) (hp : (s.at t).busUp p = true) (h4 : reg % 4 = 0) (hr : reg < 0x1000)
    (ho : s.ownerOf (chUnit n) = some p)
    (henv : (((s.at t).chanIn n).writeReg reg v).env = (s.at t).chEnv n)
    (h : P (((s.at t).chanIn n).writeReg reg v).c) : Leaves i s t n P := by
  refine ⟨((s.at t).countMmio p).chan n fun r => r.writeReg reg v, max s.dtime t, _, (((s.at t).chanIn n).writeReg reg v).out,
    he.trans ?_, Nat.le_refl _, h, ?_⟩
  · simp only [State.chanWrite, State.barCmd, hp, if_true]
    rw [State.barWrite_chan _ _ _ _ _ h4 hr (by exact ho)]
  · have e : ({ (s.at t).chEnv n with t := max s.dtime t } : ChEnv) = (s.at t).chEnv n := rfl
    simp only [State.chan]
    rw [State.onChan_still, e, ← henv]; rfl

/-- The state in which a descriptor that passes its checks runs: taken off its ring, counted, its buffer asked for. -/
def State.running (s : State) (t : Nat) (q : SqRef) (bytes : Nat) (d : Desc) : State :=
  (((s.at t).take q).countDesc q.port (min bytes d.length)).readBuf q.port d

theorem State.readBuf_quiet (s : State) (p : PortId) (d : Desc) : (s.readBuf p d).quiet = s.quiet := by
  simp only [State.readBuf]; split <;> rfl

/-- Running a descriptor begins with reports alone. -/
theorem State.running_quiet (s : State) (t : Nat) (q : SqRef) (bytes : Nat) (d : Desc) :
    (s.running t q bytes d).quiet = (s.at t).quiet := by
  simp only [State.running, State.readBuf_quiet, State.countDesc_quiet, State.take_quiet]

/-- What the device shows beside its reports after the command in front of a ring that passes its checks has run: `run` of
its `Exec`. -/
theorem State.runDesc_still {s : State} {t : Nat} {q : SqRef} {op bytes : Nat} {x : Exec} {f : Fetched}
    (hn : Next s t q op f) (hp : Passes s t q f x) :
    (s.runDesc t q op bytes x).still = (x.run (s.running t q bytes f.desc) q.port f.desc).1.still := by
  obtain ⟨h1, h2⟩ := hn
  obtain ⟨c1, c2⟩ := hp
  simp only [State.runDesc, h1, h2, ne_eq, not_true_eq_false, false_and, if_false, c1, c2, firstFail, State.running]
  split
  · exact State.still_of_quiet (State.complete_quiet _ _ _)
  · exact State.still_of_quiet (State.onSq_quiet _ _ _)

/-- What a channel sees depends on the device apart from its reports. -/
theorem State.chanIn_of_quiet {s s1 : State} (h : s1.quiet = s.quiet) (n : ChanId) : s1.chanIn n = s.chanIn n := by
  have e : ∀ x : State, x.chanIn n = x.quiet.chanIn n := fun _ => rfl
  rw [e, e s, h]

/-- A descriptor that runs one operation of the channel it addresses. -/
theorem leaves_desc {i : Instr} {s : State} {t : Nat} {q : SqRef} {n : ChanId} {P : Chan → Prop} {op bytes : Nat} {x : Exec}
    {f : Fetched} (g : ChOp) (he : exec i s = .next (s.runDesc t q op bytes x)) (hn : Next s t q op f)
    (hp : Passes s t q f x)
    (hr : (x.run (s.running t q bytes f.desc) q.port f.desc).1 = (s.running t q bytes f.desc).chan n g)
    (henv : (g ((s.at t).chanIn n)).env = (s.at t).chEnv n) (h : P (g ((s.at t).chanIn n)).c) : Leaves i s t n P := by
  have hq := s.running_quiet t q bytes f.desc
  refine ⟨_, max s.dtime t, _, (g ((s.at t).chanIn n)).out, he, Nat.le_refl _, h, ?_⟩
  rw [State.runDesc_still hn hp, hr]
  have e : ({ (s.at t).chEnv n with t := max s.dtime t } : ChEnv) = (s.at t).chEnv n := rfl
  simp only [State.chan]
  rw [e, State.onChan_still, State.chanIn_of_quiet hq, State.still_of_quiet hq, State.quiet_chans hq, ← henv]; rfl

/-- R461 what a command finds of a channel: all of it stands, but for the lanes that a slot in progress has taken. -/
theorem State.chanAt_eq (s : State) (t : Nat) (n : ChanId) :
    ∃ sl, s.chanAt t n = { s.chans[n] with adc := { s.chans[n].adc with slot := sl } } := by
  simp only [State.chanAt, State.chanIn, ChR.lanesFirst]
  split
  · split
    · exact ⟨_, rfl⟩
    · exact ⟨s.chans[n].adc.slot, rfl⟩
  · exact ⟨s.chans[n].adc.slot, rfl⟩

@[simp] theorem State.chanAt_core (s : State) (t : Nat) (n : ChanId) : (s.chanAt t n).core = s.chans[n].core := by
  obtain ⟨_, h⟩ := s.chanAt_eq t n; rw [h]
@[simp] theorem State.chanAt_tb (s : State) (t : Nat) (n : ChanId) : (s.chanAt t n).tb = s.chans[n].tb := by
  obtain ⟨_, h⟩ := s.chanAt_eq t n; rw [h]
@[simp] theorem State.chanAt_pwm (s : State) (t : Nat) (n : ChanId) : (s.chanAt t n).pwm = s.chans[n].pwm := by
  obtain ⟨_, h⟩ := s.chanAt_eq t n; rw [h]
@[simp] theorem State.chanAt_pos (s : State) (t : Nat) (n : ChanId) : (s.chanAt t n).pos = s.chans[n].pos := by
  obtain ⟨_, h⟩ := s.chanAt_eq t n; rw [h]
@[simp] theorem State.chanAt_fcu (s : State) (t : Nat) (n : ChanId) : (s.chanAt t n).fcu = s.chans[n].fcu := by
  obtain ⟨_, h⟩ := s.chanAt_eq t n; rw [h]
@[simp] theorem State.chanAt_nle (s : State) (t : Nat) (n : ChanId) : (s.chanAt t n).nle = s.chans[n].nle := by
  obtain ⟨_, h⟩ := s.chanAt_eq t n; rw [h]
@[simp] theorem State.chanAt_prot (s : State) (t : Nat) (n : ChanId) : (s.chanAt t n).prot = s.chans[n].prot := by
  obtain ⟨_, h⟩ := s.chanAt_eq t n; rw [h]
@[simp] theorem State.chanAt_therm (s : State) (t : Nat) (n : ChanId) : (s.chanAt t n).therm = s.chans[n].therm := by
  obtain ⟨_, h⟩ := s.chanAt_eq t n; rw [h]
@[simp] theorem State.chanAt_tag (s : State) (t : Nat) (n : ChanId) : (s.chanAt t n).tag = s.chans[n].tag := by
  obtain ⟨_, h⟩ := s.chanAt_eq t n; rw [h]
@[simp] theorem State.chanAt_kept (s : State) (t : Nat) (n : ChanId) : (s.chanAt t n).kept = s.chans[n].kept := by
  obtain ⟨_, h⟩ := s.chanAt_eq t n; rw [h]; rfl

end Sys2Proof.Machine
end

