-- ==== Sys2Proof/Laws/Ports.lean ====
section
/-! SUPPORT. What an event leaves of each host port: all but its event ring, its event counts, its pending interrupts and its
byte counts. -/
namespace Sys2Proof.Machine

/-- A port without what an event can change in it. -/
def PortS.calm (x : PortS) : PortS := { x with eq := {}, evtLost := 0, lostSince := 0, pba := 0, live := {} }

/-- A change of one port that keeps what a view shows of it keeps the view of every port. -/
theorem State.onPort_map {α : Type} (g : PortS → α) (s : State) (p : PortId) (f : PortS → PortS) (h : ∀ x, g (f x) = g x) :
    (s.onPort p f).ports.map g = s.ports.map g := by
  simp only [State.onPort_ports]
  apply Vector.ext
  intro i hi
  simp only [Vector.getElem_map, Vector.getElem_set]
  split
  · rename_i e; subst e; exact h _
  · rfl

theorem State.emit_calm (s : State) (p : PortId) (b : Nat) (o : Out) :
    (s.emit p b o).ports.map PortS.calm = s.ports.map PortS.calm := by
  simp only [State.emit]; exact State.onPort_map PortS.calm s p _ (by intro _; rfl)

theorem State.sendMsix_calm (s : State) (p : PortId) (v : Nat) :
    (s.sendMsix p v).ports.map PortS.calm = s.ports.map PortS.calm := by
  simp only [State.sendMsix]; repeat' split
  · rfl
  · exact State.onPort_map PortS.calm s p _ (by intro _; rfl)
  · exact State.emit_calm _ _ _ _

theorem State.irqEq_calm (s : State) (p : PortId) : (s.irqEq p).ports.map PortS.calm = s.ports.map PortS.calm := by
  simp only [State.irqEq]; split
  · rw [State.sendMsix_calm]; exact State.onPort_map PortS.calm s p _ (by intro _; rfl)
  · rfl

theorem State.writeEvent_calm (s : State) (p : PortId) (r : Bool) (e : Ev) :
    (s.writeEvent p r e).ports.map PortS.calm = s.ports.map PortS.calm := by
  simp only [State.writeEvent]; rw [State.irqEq_calm, State.emit_calm]; exact State.onPort_map PortS.calm s p _ (by intro _; rfl)

/-- Admission to the recorder leaves the ports. -/
theorem State.queueRec_ports (s : State) (x : Rec) : (s.queueRec x).1.ports = s.ports := by
  simp only [State.queueRec]; repeat' split
  all_goals rfl

theorem State.flushLost_calm (s : State) (p : PortId) : (s.flushLost p).ports.map PortS.calm = s.ports.map PortS.calm := by
  simp only [State.flushLost]; split
  · rw [State.writeEvent_calm, State.onPort_map PortS.calm _ p _ (by intro _; rfl), State.queueRec_ports]
  · rfl

theorem State.deliver_calm (s : State) (r : Bool) (e : Ev) (p : PortId) :
    (s.deliver r e p).ports.map PortS.calm = s.ports.map PortS.calm := by
  simp only [State.deliver]; split
  · rw [State.writeEvent_calm, State.flushLost_calm]
  · rw [State.loseEvent, State.onPort_map PortS.calm _ p _ (by intro _; rfl), State.flushLost_calm]

theorem State.raiseTo_calm (s : State) (ps : List PortId) (e : Ev) :
    (s.raiseTo ps e).ports.map PortS.calm = s.ports.map PortS.calm := by
  simp only [State.raiseTo]
  rw [foldl_keeps (fun s : State => s.ports.map PortS.calm) _ (fun s p => State.deliver_calm s _ e p), State.queueRec_ports]

/-- What an event leaves of a port. -/
theorem State.raiseTo_port (s : State) (ps : List PortId) (e : Ev) (p : PortId) :
    (s.raiseTo ps e).ports[p].calm = s.ports[p].calm := by
  have h := congrArg (fun v : Vector PortS 4 => v[p]) (State.raiseTo_calm s ps e)
  simpa only [Fin.getElem_fin, Vector.getElem_map] using h

@[simp] theorem State.raiseTo_port_sqs (s : State) (ps : List PortId) (e : Ev) (p : PortId) :
    (s.raiseTo ps e).ports[p].sqs = s.ports[p].sqs := (congrArg PortS.sqs (State.raiseTo_port s ps e p) :)
@[simp] theorem State.raiseTo_port_cqs (s : State) (ps : List PortId) (e : Ev) (p : PortId) :
    (s.raiseTo ps e).ports[p].cqs = s.ports[p].cqs := (congrArg PortS.cqs (State.raiseTo_port s ps e p) :)
@[simp] theorem State.raiseTo_port_link (s : State) (ps : List PortId) (e : Ev) (p : PortId) :
    (s.raiseTo ps e).ports[p].link = s.ports[p].link := (congrArg PortS.link (State.raiseTo_port s ps e p) :)
@[simp] theorem State.raiseTo_port_control (s : State) (ps : List PortId) (e : Ev) (p : PortId) :
    (s.raiseTo ps e).ports[p].control = s.ports[p].control := (congrArg PortS.control (State.raiseTo_port s ps e p) :)
@[simp] theorem State.raiseTo_port_nonownerWr (s : State) (ps : List PortId) (e : Ev) (p : PortId) :
    (s.raiseTo ps e).ports[p].nonownerWr = s.ports[p].nonownerWr :=
  (congrArg PortS.nonownerWr (State.raiseTo_port s ps e p) :)
@[simp] theorem State.raiseTo_port_dbErr (s : State) (ps : List PortId) (e : Ev) (p : PortId) :
    (s.raiseTo ps e).ports[p].dbErr = s.ports[p].dbErr := (congrArg PortS.dbErr (State.raiseTo_port s ps e p) :)
@[simp] theorem State.raiseTo_port_latches (s : State) (ps : List PortId) (e : Ev) (p : PortId) :
    (s.raiseTo ps e).ports[p].latches = s.ports[p].latches := (congrArg PortS.latches (State.raiseTo_port s ps e p) :)

end Sys2Proof.Machine
end

