-- ==== Sys2Proof/Tests/Slice0.lean ====
section
/-! SUPPORT. Tests: ill-formed commands refused, a witness for the hypotheses of each statement, and commands run on small
states whose results are worked out by hand from the spec. -/
namespace Sys2Proof.Tests

open Sys2Proof Sys2Proof.Machine

set_option maxRecDepth 100000

/-! ### Small states -/

/-- A submission ring of 64 entries in use. -/
def sq64 : Sq := { cfg := 0x00000006#32, enabled := true }
/-- A completion or event ring of 64 entries in use, without an interrupt. -/
def out64 : OutRing := { cfg := 0x00000006#32, enabled := true }

/-- The device READY with port 0 up, ring 0 of each kind in use, and units 0, 0x100 and 0x200 bound to port 0. -/
def up : State :=
  let r := State.reset
  let u : UnitS := { owner := some 0 }
  { r with
    dtime := 1000
    dev := { r.dev with phase := .ready }
    sup := { r.sup with ctl := .running }
    time := { r.time with refaOk := true, refaFreq := 25000 }
    ports := r.ports.set 0 { r.ports[0] with
      link := .l0, sqs := r.ports[0].sqs.set 0 sq64, cqs := r.ports[0].cqs.set 0 out64, eq := out64 }
    units := ((r.units.set 0 u).set 128 u).set 144 u
    recorder := { r.recorder with ready := true } }

/-- Ring 0 of port 0. -/
def q0 : SqRef := { port := 0, sq := 0 }

/-- A descriptor. -/
def ask (op unit : Nat) (param : List Nat) (len : Nat) : Desc :=
  { opcode := op, flags := 0, unit := unit, epoch := 1, length := len, cid := 7, waitLimit := 0, bufAddr := 0x1000
    param := param.map (BitVec.ofNat 8) ++ List.replicate (40 - param.length) 0 }

/-- A descriptor as ring 0 holds it. -/
def held (d : Desc) : Fetched := { desc := d, index := 0, stamp := 900, seq := 1 }

/-- The state with port 0 changed. -/
def onP0 (s : State) (f : PortS → PortS) : State := { s with ports := s.ports.set 0 (f s.ports[0]) }
/-- The state with ring 0 of port 0 changed. -/
def onSq0 (s : State) (f : Sq → Sq) : State := onP0 s fun p => { p with sqs := p.sqs.set 0 (f p.sqs[0]) }
/-- The state with completion ring 0 of port 0 changed. -/
def onCq0 (s : State) (f : OutRing → OutRing) : State := onP0 s fun p => { p with cqs := p.cqs.set 0 (f p.cqs[0]) }
/-- The state in which `d` is the next descriptor of ring 0. -/
def asks (s : State) (d : Desc) : State := onSq0 s fun q => { q with fetched := [held d] }
/-- The state with channel 0 changed. -/
def onCh (s : State) (f : Chan → Chan) : State := { s with chans := s.chans.set 0 (f s.chans[0]) }

/-- `exec` answers a next state with a property. -/
def ran (i : Instr) (s : State) (p : State → Bool) : Bool :=
  match exec i s with
  | .next s1 => p s1
  | _ => false

/-- `d` is the ring's next descriptor and passes every check. -/
def poised (s : State) (op : Nat) (d : Desc) (x : Exec) : Prop :=
  Next s 2000 q0 op (held d) ∧ Passes s 2000 q0 (held d) x

/-- A completion for the tests. -/
def done : Completion :=
  { cid := 7, sqHead := 1, sqId := 0, status := 0, detail := 0, result := 0, stamp := 900, irqNow := false }

/-- Channel 0 put into a state. -/
def inState (s : State) (k : ChCode) : State := onCh s fun c => { c with core := { c.core with code := k } }

/-- The safety executive runs and permits every channel. -/
def permits : State := { up with se := { up.se with state := .run, released := [(0x1420, 0xFFFF#16)] } }

/-- A channel in READY that CH_ARM accepts: a program with an UPDATE entry and a budget of 1 µs. -/
def ready : State := onCh (inState permits .ready) fun c => { c with
  nle := { c.nle with loaded := true, entries := #v[some 0, none, none, none], budgets := #v[1000, 0, 0, 0] } }

/-- A bus voltage at the limit of R145. -/
def bus (s : State) (v : Nat) : State := onCh s fun c => { c with adc := { c.adc with vbus := v } }

/-- Channel 0's state changed by parts. -/
def onCore (s : State) (f : CoreS → CoreS) : State := onCh s fun c => { c with core := f c.core }
/-- Channel 0's time base changed. -/
def onTb (s : State) (f : TbS → TbS) : State := onCh s fun c => { c with tb := f c.tb }
/-- Channel 0's modulator changed. -/
def onPwm (s : State) (f : PwmS → PwmS) : State := onCh s fun c => { c with pwm := f c.pwm }
/-- Channel 0's sensing changed. -/
def onAdc (s : State) (f : AdcS → AdcS) : State := onCh s fun c => { c with adc := f c.adc }
/-- Channel 0's position unit changed. -/
def onPos (s : State) (f : PosS → PosS) : State := onCh s fun c => { c with pos := f c.pos }
/-- Channel 0's field control changed. -/
def onFcu (s : State) (f : FcuS → FcuS) : State := onCh s fun c => { c with fcu := f c.fcu }
/-- Channel 0's loop engine changed. -/
def onNle (s : State) (f : NleS → NleS) : State := onCh s fun c => { c with nle := f c.nle }
/-- Channel 0's protection changed. -/
def onProt (s : State) (f : ProtS → ProtS) : State := onCh s fun c => { c with prot := f c.prot }
/-- Channel 0's thermal model changed. -/
def onTherm (s : State) (f : ThermS → ThermS) : State := onCh s fun c => { c with therm := f c.therm }
/-- Channel 0. -/
def ch0 (s : State) : Chan := s.chans[0]

/-- The carrier of channel 0 runs on the locked PLL, its last count 0 at 1,000. -/
def carrier : State := onCh (inState up .run) fun c => { c with
  core := { c.core with onPll := true }
  tb := { c.tb with state := .locked, bands := (c.tb.bands.set 0 { valid := true, cal := true }).set 1 { valid := true, cal := true } }
  pwm := { c.pwm with count0 := some 1000 } }

/-- A slot of channel 0 at a step. -/
def slotAtStep (k : Nat) : SlotRun :=
  { start := 1000, free := true, mid := false, hk := true, xchk := true, delayed := false, deadline := 0, count := 0
    trim := Vector.replicate 5 {}, pos := none, lanes := none, step := k }

/-- A run of channel 0's loop engine. -/
def run0 : RunS := { entry := .update, trig := { stamp := 900, deadline := 100000 }, inp := [], waitsMod := false, waitsVbus := false
                     count := 0 }

/-- Channel 0's loop engine about to execute `x` with registers `r`. -/
def exe (x : Word) (r : RegsS) : State := onNle up fun e => { e with store := [(r.pc, x)], regs := r, run := some run0 }

/-- Some registers: D0 = 5, D1 = -3, D2 = 1,023; ACC0 = 7; IX0 = 1; the PC two words before the last. -/
def regs0 : RegsS := { d := (((Vector.replicate 32 0).set 0 5).set 1 0xFFFD).set 2 1023, acc := #v[7, 0, 0, 0], ix := #v[1, 1023, 0, 512], pc := 1022 }

/-- Every word can stand where the engine is about to execute it. -/
theorem placed (x : Word) : Runs (exe x regs0) 2000 0 run0 ∧ Stands (exe x regs0) 0 x := by
  refine ⟨⟨rfl, rfl, by decide, rfl⟩, ?_⟩
  unfold Stands exe onNle onCh regs0
  simp [Cells.get]

/-- The safety executive about to execute `x` in instance A, with registers `r`. -/
def seExe (x : Word) (r : RegsS) (u : SeRun) : State :=
  { up with se := { up.se with
      state := .run, store := [(r.pc, x)], regsA := r, regsB := r, run := some u
      img := { cycleUs := 1000, budget := 100000 } } }

/-- A run of instance A that began at 1,000. -/
def seRun0 : SeRun := { second := false, start := 1000, countA := 0, countB := 0, a := {}, b := {}, left := [], xStopped := false }

/-- Every word can stand where instance A is about to execute it. -/
theorem seats (x : Word) : RunsA (seExe x regs0 seRun0) 2000 seRun0 ∧ Cells.get 0 (seExe x regs0 seRun0).se.store regs0.pc = x := by
  refine ⟨⟨rfl, rfl, rfl, rfl, rfl, by decide, rfl⟩, ?_⟩
  simp [seExe, regs0, Cells.get]

/-- The FPE changed. -/
def onFpe (f : FpeS → FpeS) : State := { up with fpe := f up.fpe }

/-- A fix with QUAL = 3 and every other field 0. -/
def fix0 : List Byte := List.replicate 10 0 ++ [0x60] ++ List.replicate 29 0

/-- A computation of the tick at 1,000,000 with the one row of channel 0. -/
def tick0 : TickRun :=
  { instant := 1000000, deadline := 2000000, active := true, noMark := false, jack := false, valid := true, src := 0, qual := 3
    east := 1, north := 2, heading := 3, heading2 := 4, speed := 5, gamma := 6
    rows := [{ ch := 0, on := true, stop := false, speed := 0, tip := { e := 0, n := 0, re := 0, rn := 0 } }] }

/-- The raster changed. -/
def onRas (f : RasterS → RasterS) : State := onFpe fun x => { x with raster := f x.raster }

/-- Tile (0, 0) at offset 16,384 with its line 31 dirty. -/
def tile0 : Tile :=
  { col := 0, row := 0, entry := .present 16384, cov := (Vector.replicate 32 {}).set 31 { st := .dirty 1000, bits := 5 }
    exc := Vector.replicate 32 none, fetch := some 0, used := 0, holds := 0 }

/-- CAN controller 0 changed. -/
def onCan0 (f : CanS → CanS) : State := { up with can := up.can.set 0 (f up.can[0]) }

/-- A frame with identifier 0x123 and no data. -/
def frame0 : CanFrame := { id := 0x123, ide := false, rtr := false, fdf := false, brs := false, esi := false, dlc := 0, data := [] }

/-- The safety executive changed. -/
def onSe0 (f : SeS → SeS) : State := { up with se := f up.se }
/-- The safety inputs, outputs, slots and keys changed. -/
def onIo (f : SafeIoS → SafeIoS) : State := { up with io := f up.io }

/-- Instance B about to execute END, and A's run ended with `n` instructions. -/
def endB (n : Nat) : State :=
  let u : SeRun := { seRun0 with second := true, countA := n, countB := 4 }
  let s := seExe (engWord 0x02 0 0 0) regs0 u
  { s with se := { s.se with firstNow := false } }

/-- R640: a frame on connection 5 with sequence 1, its CRC computed. -/
def pst0 (conn seq : Nat) : List Byte :=
  let bs := leBytes 2 conn ++ leBytes 2 seq ++ leBytes 4 100
  bs ++ leBytes 4 (pstCrc conn bs)

/-- A housekeeping round: 16 dies at `die` and the other inputs at 12,000. -/
def round0 (die : Int) : List (Nat × Int) := List.replicate 16 (100, die) ++ List.replicate 48 (100, 12000)

/-- What the device has written to hosts: the completions, as (ring, cid, status, DETAIL, RESULT). -/
def answers (s : State) : List (Nat × Nat × Nat × Nat × Nat) :=
  s.outbox.filterMap fun o => match o with
    | .completion _ _ _ _ _ x => some (x.sqId, x.cid, x.status, x.detail, x.result)
    | _ => none

/-- A sound medium. -/
def medium0 : Medium := { err := 0, log2 := 24, mode := 1, clock := 200 }
/-- What a board brings to a start. -/
def board : StartInputs :=
  { clock := 0, refaKHz := 25000, admin := 2, seSplit := false, recCfg := false, bootMode := 0, s0 := medium0, s1 := medium0
    test := { clFail := 0, sharedFail := 0, portFail := 0, ms := 440 }, plugs := 1 }

/-! ### Witnesses: host interface and time -/

theorem witness_ReferenceInputs :
    let lost := { up with time := { up.time with refaOk := false } }
    let edge (l : Option Nat) : State := { up with time := { up.time with control := 1, ppsLast := l } }
    let lock := { up with time := { up.time with ppsLock := true, ppsLast := some 1000 } }
    let win := (edge none).time.ppsWin
    (up.at 2000).powered = true ∧ up.time.refaOk = true ∧ up.time.holdover = false ∧
    (lost.at 2000).powered = true ∧ lost.time.refaOk = false ∧
    bitOf (edge none).time.control 0 = true ∧ true ≠ bitOf (edge none).time.control 1 ∧ (edge none).time.ppsLast = none ∧
    (edge (some 1000)).time.ppsLast = some 1000 ∧ 1000 + 1000000000 + win < max up.dtime (1000001001 + win) ∧
    1000 + 1000000000 ≤ max up.dtime (1000001000 - win) + win ∧ max up.dtime (1000001000 + win) ≤ 1000 + 1000000000 + win ∧
    max up.dtime (1000000999 - win) + win < 1000 + 1000000000 ∧
    lock.time.ppsLock = true ∧ lock.time.ppsLate = none ∧ lock.time.ppsLast = some 1000 ∧
    1000 + 3000000000 + 250 ≤ max up.dtime 3000001250 := by decide

theorem witness_AlwaysOnDomainAndCoreVoltage :
    let slack := { up with sup := { up.sup with slack := some (300, 1000) } }
    (up.at 10000000).powered = true ∧ up.supplied = true ∧ State.reset.supplied = false ∧
    up.sup.windowAt + 10000000 ≤ max up.dtime 10000000 ∧ up.sup.slack = none ∧ slack.sup.slack = some (300, 1000) := by decide

theorem witness_NopBindUnbind :
    let other (d : Desc) : State := { asks up d with dev := { up.dev with admin := 3 } }
    poised (asks up (ask 0x02 5 [3, 9] 0)) 0x02 (ask 0x02 5 [3, 9] 0) bindExec ∧ unitIndex 5 = some (5 : Fin 145) ∧
    poised (asks up (ask 0x03 5 [] 0)) 0x03 (ask 0x03 5 [] 0) unbindExec ∧
    Next (asks up (ask 0x01 0 [] 0)) 2000 q0 0x01 (held (ask 0x01 0 [] 0)) ∧ (ask 0x01 0 [] 0).length = 0 ∧
    Roomy (asks up (ask 0x01 0 [] 0)) q0 ∧ (other (ask 0x02 5 [] 0)).admin ≠ q0.port ∧
    Next (other (ask 0x02 5 [] 0)) 2000 q0 0x02 (held (ask 0x02 5 [] 0)) ∧
    Next (other (ask 0x03 5 [] 0)) 2000 q0 0x03 (held (ask 0x03 5 [] 0)) := by
  unfold poised Next Passes Roomy; decide

theorem witness_Doorbells :
    (up.at 2000).busUp 0 = true ∧ up.ports[0].sqs[0].enabled = true ∧ fld 63#32 15 0 < ringSize up.ports[0].sqs[0].cfg ∧
    ¬ fld 64#32 15 0 < ringSize up.ports[0].sqs[0].cfg ∧ up.ports[0].sqs[31].enabled = false ∧
    (0x1FC % 8 ≠ 0 ∨ 0x200 < 0x1FC) ∧ (0x208 % 8 ≠ 0 ∨ 0x200 < 0x208) ∧ up.ports[0].cqs[0].enabled = true ∧
    up.ports[0].cqs[31].enabled = false ∧ up.ports[0].eq.enabled = true ∧ fld 63#32 15 0 < ringSize up.ports[0].cqs[0].cfg ∧
    ¬ fld 64#32 15 0 < ringSize up.ports[0].cqs[0].cfg ∧ fld 63#32 15 0 < ringSize up.ports[0].eq.cfg ∧
    ¬ fld 64#32 15 0 < ringSize up.ports[0].eq.cfg := by decide

theorem witness_DescriptorFetch :
    let s := onSq0 up fun q => { q with head := 56, tail := 0 }
    let d := ask 1 0 [] 0
    (s.at 2000).busUp 0 = true ∧ (s.sqAt q0).enabled = true ∧ (s.sqAt q0).err ≠ 5 ∧ (s.sqAt q0).waiting ≠ 0 ∧ d.wf = true ∧
    ((Vector.ofFn fun (i : Fin 64) => d.bytes.getD i 0) : RingEntry).toList = d.bytes := by decide

theorem witness_HeldCompletionsAndRingFaults :
    let stalled := onSq0 up fun q => { q with stalled := [done] }
    let lost := onP0 up fun p => { p with lostSince := 3 }
    let irq := onCq0 up fun r => { r with cfg := 0x8006#32, marks := [{ stamp := 900, irqNow := true, signalled := false }] }
    let h : Held := { opcode := 0x11, unit := 0, cid := 7, sqHead := 1, irqNow := false, deadline := some 1750 }
    let waits := onSq0 up fun q => { q with held := some h }
    (stalled.at 2000).busUp 0 = true ∧ (stalled.sqAt q0).stalled = [done] ∧
    (stalled.ports[0].cqs[(stalled.sqAt q0).cqId]).usable = true ∧ (stalled.ports[0].cqs[(stalled.sqAt q0).cqId]).hasSpace = true ∧
    (lost.at 2000).busUp 0 = true ∧ lost.ports[0].lostSince ≠ 0 ∧ lost.ports[0].eq.usable = true ∧ lost.ports[0].eq.hasSpace = true ∧
    (irq.at 2000).busUp 0 = true ∧ (irq.ports[0].cqs[0]).wantsIrq (max irq.dtime 2000) = true ∧
    (waits.at 2000).busUp 0 = true ∧ (waits.sqAt q0).held = some h ∧ h.deadline = some 1750 ∧ 1750 + 250 ≤ max waits.dtime 2000 ∧
    (waits.ports[0].cqs[(waits.sqAt q0).cqId]).usable = true := by decide

theorem witness_RingEnableDisable :
    let d := ask 1 0 [] 0
    (up.at 2000).busUp 0 = true ∧ up.ports[0].sqs[31].enabled = false ∧ up.ports[0].cqs[31].enabled = false ∧
    (onP0 up fun p => { p with eq := {} }).ports[0].eq.enabled = false ∧ up.ports[0].sqs[0].enabled = true ∧
    (asks up d).ports[0].sqs[0].held = none ∧ ((asks up d).ports[0].cqs[(asks up d).ports[0].sqs[0].cqId]).usable = true ∧
    held d ∈ (asks up d).ports[0].sqs[0].fetched ∧ up.ports[0].cqs[0].enabled = true ∧ up.ports[0].sqs[0].cqId = 0 ∧
    (onP0 up fun p => { p with cqs := p.cqs.set 31 out64 }).ports[0].cqs[31].enabled = true ∧
    (∀ m : Fin 32, up.ports[0].sqs[m].enabled = true → up.ports[0].sqs[m].cqId ≠ 31) ∧ up.ports[0].eq.enabled = true := by decide

/-- R93, R94: SIZE_K 4 and 16 are the limits; a completion ring that is not enabled refuses the submission ring. -/
theorem test_ring_enable_limits :
    ran (.ringEnable 2000 0 (.cq 5) 0x80000004#32) up (fun s => s.ports[0].cqs[5].enabled) = true ∧
    ran (.ringEnable 2000 0 (.cq 5) 0x80000010#32) up (fun s => s.ports[0].cqs[5].enabled) = true ∧
    ran (.ringEnable 2000 0 (.cq 5) 0x80000003#32) up (fun s => s.ports[0].cqs[5].err == 1) = true ∧
    ran (.ringEnable 2000 0 (.cq 5) 0x80000011#32) up (fun s => s.ports[0].cqs[5].err == 1) = true ∧
    ran (.ringEnable 2000 0 (.sq 1) 0x80000504#32) up (fun s => s.ports[0].sqs[1].err == 3) = true := by decide

theorem witness_PortsDownUpReset :
    let d3 := onP0 up fun p => { p with link := .d3hot }
    let early : State := { up with dev := { up.dev with phase := .starting } }
    up.supplied = true ∧ up.ports[0].link = .l0 ∧ up.ports[1].link = .down ∧ d3.ports[0].link = .d3hot ∧
    up.ports[0].link ≠ .down ∧ up.dev.portFail.getLsbD 0 = false ∧ up.hostUp = true ∧ early.supplied = true ∧
    early.ports[0].link ≠ .down ∧ early.dev.portFail.getLsbD 0 = false ∧ early.hostUp = false := by decide

theorem witness_RegisterAccess :
    let other : State := { up with dev := { up.dev with admin := 3 }, units := State.reset.units }
    (up.at 2000).busUp 0 = true ∧ ((2 : Nat) < 4 ∨ 0x1000 % 4 ≠ 0) ∧ ((4 : Nat) < 4 ∨ 0x1002 % 4 ≠ 0) ∧
    0xFFC % 4 = 0 ∧ 0xFFC < 0x1000 ∧ up.ownerOf (chUnit 0) = some 0 ∧ other.ownerOf (chUnit 127) ≠ some 0 ∧
    0xFFFC % 4 = 0 ∧ 0xFFFC < 0x10000 ∧ up.ownerOf fpeUnit = some 0 ∧ other.ownerOf fpeUnit ≠ some 0 ∧
    up.ownerOf (canUnit 0) = some 0 ∧ other.ownerOf (canUnit 15) ≠ some 0 ∧ up.admin = 0 ∧
    (other.at 2000).busUp 0 = true ∧ other.admin ≠ 0 := by decide

/-! ### Witnesses: descriptors of a channel -/

theorem witness_ChannelRunStopBrake :
    let run := inState up .run
    let done := onFcu run fun f => { f with startDone := true }
    let locking := onTb (inState up .ready) fun b => { b with seqBegan := some 1000 }
    let stop (k : Nat) := ask 0x12 0 [k] 0
    chanOf (stop 1) = 0 ∧
    poised (asks (inState permits .armed) (ask 0x11 0 [] 0)) 0x11 (ask 0x11 0 [] 0) chRunExec ∧
    poised (asks run (stop 1)) 0x12 (stop 1) chStopExec ∧ (ch0 run).core.code = .run ∧ (stop 1).byte 24 ≠ 0 ∧
    poised (asks run (stop 0)) 0x12 (stop 0) chStopExec ∧ (stop 0).byte 24 = 0 ∧ (ch0 run).fcu.startDone = false ∧
    poised (asks done (stop 0)) 0x12 (stop 0) chStopExec ∧ (ch0 done).fcu.startDone = true ∧ (ch0 done).core.code = .run ∧
    poised (asks (inState up .brake) (stop 0)) 0x12 (stop 0) chStopExec ∧ (ch0 (inState up .brake)).core.code = .brake ∧
    poised (asks locking (stop 0)) 0x12 (stop 0) chStopExec ∧ (ch0 locking).core.code = .ready ∧
    (ch0 locking).tb.seqBegan.isSome = true ∧
    poised (asks (inState up .off) (stop 0)) 0x12 (stop 0) chStopExec ∧ (ch0 (inState up .off)).tb.seqBegan = none ∧
    poised (asks run (ask 0x13 0 [1] 0)) 0x13 (ask 0x13 0 [1] 0) chBrakeExec := by
  unfold poised Next Passes; decide

theorem witness_ChannelDischargeAndClearTrip :
    let aux := onCh (inState up .off) fun c => { c with pwm := { c.pwm with cfg := 0x10000000#32 } }
    poised (asks aux (ask 0x14 0 [0] 0)) 0x14 (ask 0x14 0 [0] 0) chDischargeExec ∧
    poised (asks (inState up .locked) (ask 0x15 0 [] 0)) 0x15 (ask 0x15 0 [] 0) chClearTripExec := by
  unfold poised Next Passes; decide

theorem witness_ChannelSetpointAndTests :
    let param := [0x81, 0, 0, 0, 0, 0, 0, 0, 0x34, 0x12]
    let hall := onPos (inState up .off) fun p => { p with cfg := 0xC4346428#32 }
    poised (asks up (ask 0x16 0 param 0)) 0x16 (ask 0x16 0 param 0) chSetpointExec ∧ Cells.wf 0#16 (ch0 up).nle.inp = true ∧
    poised (asks (inState up .off) (ask 0x17 0 [] 0)) 0x17 (ask 0x17 0 [] 0) chCmpTestExec ∧
    poised (asks (inState up .off) (ask 0x19 0 [0, 1] 0)) 0x19 (ask 0x19 0 [0, 1] 0) chLbTestExec ∧
    (ask 0x19 0 [0, 1] 0).byte 24 ≠ 1 ∧ poised (asks hall (ask 0x19 0 [1, 2] 0)) 0x19 (ask 0x19 0 [1, 2] 0) chLbTestExec ∧
    (ask 0x19 0 [1, 2] 0).byte 24 = 1 := by
  unfold poised Next Passes; decide

theorem witness_ChannelArm :
    let arm := ask 0x10 0 [] 0
    let a := asks (inState permits .armed) arm
    let b := asks ready arm
    let fault (s : State) := ((s.at 2000).chanIn 0).takeConfig.c.armFault s.time.refaKHz s.hk.basking
    let none' : State := { b with time := { b.time with refaOk := false } }
    let twice := onTb b fun x => { x with seqBegan := some 1000 }
    let bad := onCore b fun c => { c with config := 3 }
    poised a 0x10 arm chArmExec ∧ (ch0 a).core.code = .armed ∧
    poised b 0x10 arm chArmExec ∧ (ch0 b).core.code ≠ .armed ∧ (ch0 b).fcu.phase ≠ .wrongMotorAsc ∧ (ch0 b).tb.seqBegan = none ∧
    b.time.refaOk = true ∧ fault b = none ∧ poised none' 0x10 arm chArmExec ∧ none'.time.refaOk = false ∧ fault none' = none ∧
    poised twice 0x10 arm chArmExec ∧ (ch0 twice).tb.seqBegan = some 1000 ∧ fault twice = none ∧
    poised bad 0x10 arm chArmExec ∧ (fault bad).isSome = true := by
  unfold poised Next Passes; decide

theorem witness_ChannelIdentify :
    let ident := ask 0x18 0 [] 0
    let a := asks (bus ready 1024) ident
    let b := asks (bus ready 1023) ident
    let c := onProt a fun p => { p with trip := p.trip.set 0 { p.trip[0] with qual := true } }
    poised a 0x18 ident chIdentExec ∧ 1024 ≤ (ch0 a).adc.vbus ∧ (ch0 a).active &&& 0xF = 0 ∧ (ch0 a).posMode = 0 ∧
    poised b 0x18 ident chIdentExec ∧ (ch0 b).adc.vbus < 1024 ∧
    poised c 0x18 ident chIdentExec ∧ (ch0 c).active &&& 0xF ≠ 0 ∧ 1024 ≤ (ch0 c).adc.vbus := by
  unfold poised Next Passes; decide

theorem witness_LoopEngineDescriptors :
    let load := [0, 0, 1, 0, 0, 0x80]
    let code : List Byte := [0, 0, 0, 8]
    let a := asks (inState up .off) (ask 0x20 0 load 4)
    let w := asks up (ask 0x21 0 [0xFF, 1] 2)
    let r := asks up (ask 0x22 0 [0xFF, 1] 2)
    let busy := onNle r fun e => { e with run := some run0 }
    let m := asks (onNle up fun e => { e with enabled := true, loaded := true, entries := #v[some 0, none, none, some 9] })
      (ask 0x23 0 [5, 0] 4)
    poised a 0x20 (ask 0x20 0 load 4) (nleLoadExec (.arrived code)) ∧ Cells.wf 0#32 (ch0 a).nle.store = true ∧
    (ask 0x20 0 load 4).byte 26 % 2 = 1 ∧ ((ask 0x20 0 load 4).num 28 2).testBit 15 = true ∧
    poised a 0x20 (ask 0x20 0 load 4) (nleLoadExec .failed) ∧
    poised w 0x21 (ask 0x21 0 [0xFF, 1] 2) (psmWriteExec (.arrived [1, 2])) ∧ (ch0 w).nle.run = none ∧
    (∀ k : Fin 4, (ch0 w).nle.pend[k] = none) ∧ Cells.wf 0#16 (ch0 w).nle.psm = true ∧
    poised r 0x22 (ask 0x22 0 [0xFF, 1] 2) (psmReadExec true) ∧ (ch0 r).nle.run = none ∧ (∀ k : Fin 4, (ch0 r).nle.pend[k] = none) ∧
    poised busy 0x22 (ask 0x22 0 [0xFF, 1] 2) (psmReadExec true) ∧ (ch0 busy).nle.run.isSome = true ∧
    poised m 0x23 (ask 0x23 0 [5, 0] 4) (mailboxExec (.arrived [1, 2, 3, 4])) ∧
    ([1, 2, 3, 4] : List Byte).length = (ask 0x23 0 [5, 0] 4).length ∧ Cells.wf 0#16 (ch0 m).nle.inp = true ∧
    (ch0 m).nle.loaded = true := by
  unfold poised Next Passes; decide

theorem witness_ChannelOpcodeStates :
    chRunExec.check (inState permits .armed) 0 (ask 0x11 0 [] 0) = none ∧ chArmExec.check ready 0 (ask 0x10 0 [] 0) = none ∧
    chRunExec.check (inState permits .run) 0 (ask 0x11 0 [] 0) = some (5, 3) ∧
    chBrakeExec.check (inState permits .run) 0 (ask 0x13 0 [] 0) = none ∧
    chBrakeExec.check (onFcu (inState permits .run) fun f => { f with phase := .wrongMotorAsc }) 0 (ask 0x13 0 [] 0) = some (5, 12) ∧
    chIdentExec.check ready 0 (ask 0x18 0 [] 0) = none ∧ chCmpTestExec.check up 0 (ask 0x17 0 [] 0) = none ∧
    (ch0 (inState up .off)).core.code ≠ .run ∧ (ch0 (inState up .off)).core.code ≠ .armed ∧
    (ch0 (inState up .off)).core.code ≠ .tripped := by decide

/-! ### Witnesses: time base, carrier, modulator -/

theorem witness_LockSequence :
    let seq := onTb up fun b => { b with seqFrom := some 1000, seqBegan := some 1000, picked := true, calCount := 1 }
    let align := onTb (onCore up fun c => { c with onPll := true, isUnplugged := false }) fun b => { b with seqBegan := some 1000, state := .aligning }
    let none' : State := { seq with time := { seq.time with refaOk := false } }
    (seq.at 100000).powered = true ∧ (ch0 seq).tb.seqFrom = some 1000 ∧ (ch0 seq).tb.state = .idle ∧ seq.time.refaOk = true ∧
    1000 + 4000 * (ch0 seq).tb.calCount ≤ max seq.dtime 100000 ∧
    max seq.dtime 100000 ≤ 1000 + 4000 * (ch0 seq).tb.calCount + 500000 ∧
    4000 * (ch0 seq).tb.calCount * seq.time.refaKHz * 2 ^ 20 + 256 * refU ≤
      seq.time.phase (max seq.dtime 100000) - (ch0 seq).tb.stateRef ∧
    (ch0 align).tb.seqBegan = some 1000 ∧ (ch0 align).tb.state = .aligning ∧ (ch0 align).active = 0 ∧ (ch0 align).adc.cmpFail = 0 ∧
    (ch0 align).firstGrid ≤ (ch0 align).ticksMost align.time (align.dieTemp 0) (max align.dtime 1000000) ∧
    (ch0 seq).tb.picked = true ∧ timedOut (1000 + 4000 * (ch0 seq).tb.calCount + 500000) (max seq.dtime 505250) = true ∧
    (none'.at 505250).powered = true ∧ none'.time.refaOk = false ∧ (ch0 none').tb.seqFrom = some 1000 := by decide

theorem witness_BandChangesAndCoast :
    let f := tbClk 25000 0x1000000#26
    let change (g : Bool) : BandChange := { entry := 1, glide := g, start := 1000, ref := 0, clk := f }
    let st (x : TbState) (g : Bool) := onTb carrier fun b => { b with state := x, tickClk := f, change := some (change g), coastFrom := some 1000 }
    let re := onTb carrier fun b => { b with coastFrom := some 1000, state := .relocking, ctrl := 0x08000000#32 }
    (carrier.at 20000).powered = true ∧ (ch0 (st .hopping false)).tb.change = some (change false) ∧
    (ch0 (st .hopping false)).tb.state = .hopping ∧
    256 * refU ≤ carrier.time.phase (max up.dtime 20000) - (ch0 (st .hopping false)).tb.stateRef ∧ max up.dtime 20000 ≤ 1000 + 60000 ∧
    (ch0 (st .gliding true)).tb.state = .gliding ∧
    (ch0 (st .gliding true)).tb.glideNeeds carrier.time.refaKHz f (ch0 (st .gliding true)).tb.tickClk ≤
      (ch0 (st .gliding true)).tb.elapsed carrier.time (max up.dtime 1000000000) ∧
    timedOut (1000 + 60000) (max up.dtime 61250) = true ∧
    (ch0 carrier).tb.state = .locked ∧ carrier.time.refaOk = true ∧
    16 * refU ≤ carrier.time.phase (max up.dtime 20000) - (ch0 carrier).tb.stateRef ∧
    (ch0 re).tb.coastFrom = some 1000 ∧ (ch0 re).tb.state = .relocking ∧
    256 * refU ≤ re.time.phase (max up.dtime 20000) - (ch0 re).tb.stateRef ∧ (ch0 re).tb.seqBegan = none ∧ (ch0 re).tb.change = none ∧
    (ch0 (st .relocking true)).tb.seqBegan = none ∧ (ch0 (st .relocking true)).tb.change = some (change true) ∧
    (ch0 (onTb re fun b => { b with seqBegan := some 900 })).tb.seqBegan.isSome = true ∧
    (ch0 re).tb.offGrid = false ∧ bitOf (ch0 re).tb.ctrl 27 = true ∧ fld (ch0 re).tb.profile 7 0 ≠ 0 ∧ (ch0 re).tb.coastLimit = false ∧
    timedOut (1000 + fld (ch0 re).tb.profile 7 0 * 1000000) (max up.dtime 100001250) = true ∧ (ch0 re).core.code = .run := by decide

theorem witness_TimeBaseWrites :
    (up.at 2000).busUp 0 = true ∧ up.ownerOf (chUnit 0) = some 0 ∧ (ch0 up).tb.picked = false ∧ (ch0 up).core.onPll = false ∧
    (carrier.at 2000).busUp 0 = true ∧ carrier.ownerOf (chUnit 0) = some 0 ∧ (ch0 carrier).core.onPll = true ∧
    (ch0 carrier).tb.bands[1].valid = true ∧ (ch0 carrier).tb.bands[7].valid = false ∧
    (ch0 up).pwm.count0 = none ∧ (ch0 carrier).pwm.count0.isSome = true := by decide

/-- R161, R196: TBCLK = 25 MHz × 16 = 400 MHz; a PERIOD of 20,000 ticks gives a 50 µs carrier. -/
theorem witness_CarrierUpdates :
    let d : DutySet := { cu := 1, cv := 2, cw := 3 }
    let duty := onPwm carrier fun p => { p with duty := { now := some d } }
    let per := onPwm carrier fun p => { p with periodReq := { now := some (0x4E200, false) } }
    let bad := onPwm carrier fun p => { p with periodReq := { now := some (0xFFFFFF, false) } }
    let hop := onTb carrier fun b => { b with req := { now := some { entry := 1, program := false } } }
    let no := onTb carrier fun b => { b with req := { now := some { entry := 2, program := false } } }
    let re := onTb carrier fun b => { b with realign := { now := some () } }
    let long := onTb carrier fun b => { b with lengthened := true }
    let arm := onPwm (onCore carrier fun c => { c with code := .armed }) fun p => { p with release := true }
    let mid := onPwm duty fun p => { p with updIn := 2 }
    let now := max up.dtime 1000000
    let fits (w : BitVec 26) (x : Nat) : Prop := carrierOk up.time.refaKHz w x (ch0 carrier).pwm.updIn = true ∧
      ((ch0 carrier).nle.enabled = true → (ch0 carrier).budgetFits up.time.refaKHz w x (ch0 carrier).pwm.updIn
        (sofsOf (ch0 carrier).adc.cfgIn) = true)
    (carrier.at 1000000).powered = true ∧ (ch0 carrier).pwm.count0.isSome = true ∧
    (ch0 carrier).nextTick ≤ (ch0 carrier).ticksMost carrier.time (carrier.dieTemp 0) now ∧ (ch0 carrier).pwm.release = false ∧
    (ch0 duty).pwm.duty.now = some d ∧ (ch0 duty).pwm.updIn ≠ 1 ∧ (ch0 carrier).pwm.duty.now = none ∧
    (ch0 per).pwm.periodReq.now = some (0x4E200, false) ∧ fits (ch0 per).tb.word 0x4E200 ∧ (ch0 per).periodFits 0x4E200 = true ∧
    (ch0 bad).pwm.periodReq.now = some (0xFFFFFF, false) ∧ ¬ (fits (ch0 bad).tb.word 0xFFFFFF ∧ (ch0 bad).periodFits 0xFFFFFF = true) ∧
    (ch0 hop).pwm.periodReq.now = none ∧ (ch0 hop).tb.req.now = some { entry := 1, program := false } ∧
    (ch0 hop).tb.bands[1].valid = true ∧ (ch0 hop).tb.bands[1].cal = true ∧
    (ch0 hop).tb.change = none ∧ (ch0 hop).tb.state = .locked ∧ fits (ch0 hop).tb.bands[1].word (ch0 hop).pwm.period ∧
    (1 : Fin 8) ≠ (ch0 hop).tb.entry ∧ (ch0 no).tb.req.now = some { entry := 2, program := false } ∧
    (ch0 no).tb.bands[2].valid = false ∧ (ch0 re).tb.realign.now = some () ∧ (ch0 re).tb.req.now = none ∧
    (ch0 re).tb.change = none ∧ (ch0 long).tb.realign.now = none ∧ (ch0 long).tb.lengthened = true ∧
    (ch0 arm).core.code = .armed ∧ (ch0 arm).pwm.release = true ∧ (ch0 arm).pwm.releaseLate = false ∧ (ch0 arm).adc.az = none ∧
    (ch0 mid).pwm.count0.isSome = true ∧ (ch0 mid).pwm.updIn = 2 ∧ (ch0 mid).pwm.midDone = false ∧
    (ch0 mid).midTick ≤ (ch0 mid).ticksMost mid.time (mid.dieTemp 0) now ∧ (ch0 mid).pwm.duty.now = some d ∧
    (ch0 (onPwm carrier fun p => { p with updIn := 2 })).pwm.duty.now = none ∧ (ch0 carrier).pwm.updIn ≠ 1 ∧
    (ch0 carrier).pwm.updIn ≠ 2 := by decide

/-! ### Witnesses: sensing -/

theorem witness_SensingSlots :
    let mid := onPwm carrier fun p => { p with updIn := 1 }
    let again := onAdc up fun a => { a with freeNo := 1, slotAt := 1000 }
    let now := max up.dtime 40000
    (up.at 40000).powered = true ∧ (ch0 carrier).core.onPll = true ∧ (ch0 carrier).pwm.count0.isSome = true ∧
    (ch0 carrier).pwm.updIn = 0 ∧ (ch0 mid).pwm.updIn = 1 ∧
    ((ch0 carrier).slotPeriod up.time.refaKHz false ((ch0 carrier).ticksMost up.time (up.dieTemp 0) now)).isSome = true ∧
    ((ch0 mid).slotPeriod up.time.refaKHz true ((ch0 mid).ticksMost up.time (up.dieTemp 0) now)).isSome = true ∧
    (ch0 up).core.onPll = false ∧ (ch0 up).core.code ≠ .ident ∧ (ch0 up).adc.freeNo = 0 ∧
    (ch0 again).adc.freeNo ≠ 0 ∧ (ch0 again).adc.slotAt + freeSlotNs ≤ now := by decide

theorem witness_SensingResults :
    let at' (k : Nat) := onAdc up fun a => { a with slot := some (slotAtStep k), devA := [3, -4] }
    let hall := onPos (at' 0) fun p => { p with cfg := 0xC4346428#32, pins := pinsOf true false false }
    (up.at 2000).powered = true ∧ Cells.wf 0 (ch0 (at' 0)).nle.inp = true ∧ (ch0 (at' 0)).adc.cmpTest = none ∧
    (ch0 (at' 0)).core.lb = none ∧ (ch0 (at' 0)).adc.slot = some (slotAtStep 0) ∧ (ch0 (at' 0)).posMode ≠ 3 ∧
    (ch0 hall).posMode = 3 ∧ (hallOf (ch0 hall).pos.pins.toNat).isSome = true ∧
    (slotAtStep 0).start + 200 ≤ max up.dtime 1200 ∧ max up.dtime 1200 ≤ (slotAtStep 0).start + 400 ∧
    (ch0 (at' 1)).adc.slot = some (slotAtStep 1) ∧ (slotAtStep 1).start + 400 ≤ max up.dtime 1600 ∧
    max up.dtime 1600 ≤ (slotAtStep 1).start + 600 ∧ (ch0 (at' 2)).adc.slot = some (slotAtStep 2) ∧ (slotAtStep 2).hk = true ∧
    (ch0 (at' 2)).adc.hkEnd (slotAtStep 2) ≤ max up.dtime 1900 ∧
    max up.dtime 1900 ≤ (ch0 (at' 2)).adc.hkEnd (slotAtStep 2) + 200 := by decide

theorem witness_SensingFaultsAndAutoZero :
    let slot (k : ChCode) := onAdc (inState up k) fun a => { a with slot := some (slotAtStep 1) }
    let x : AzSum := { lo := -32, hi := 32, sum := -65536 }
    let y : AzSum := { lo := -32, hi := 33, sum := 0 }
    let z (u v : AzSum) := onAdc up fun a => { a with az := some { slots := 64, u := some u, v := some v } }
    let test (k : ChCode) := onAdc (inState up k) fun a => { a with cmpTest := some 1000 }
    (up.at 2000).powered = true ∧ (ch0 (slot .run)).adc.slot = some (slotAtStep 1) ∧
    (ch0 (slot .run)).adc.slotDue (slotAtStep 1) + 250 ≤ max up.dtime 2000 ∧ (ch0 (slot .run)).core.code = .run ∧
    (ch0 (slot .off)).core.code = .off ∧ (ch0 (z x y)).adc.az = some { slots := 64, u := some x, v := some y } ∧
    (ch0 (z y x)).adc.az = some { slots := 64, u := some y, v := some x } ∧
    (x.hi - x.lo ≤ 64 ∧ x.sum.natAbs ≤ 65536) ∧ ¬ (y.hi - y.lo ≤ 64 ∧ y.sum.natAbs ≤ 65536) ∧
    (ch0 (test .off)).adc.cmpTest = some 1000 ∧ 1000 + 20000 ≤ max up.dtime 21000 ∧ (ch0 (test .off)).core.code ≠ .armed ∧
    (ch0 (test .armed)).core.code = .armed ∧ (ch0 (test .armed)).adc.cmpTest = some 1000 ∧ (1#5 : BitVec 5) ≠ 0 := by decide

/-- Comparator 0 at its reset threshold, with a pin above it, and one below it by more than 16 mV. -/
theorem witness_TripInputs :
    let now := max up.dtime 100000
    let lvl (r q : Bool) : TripIn := { raw := r, since := 1000, qual := q }
    let hot (k : Fin 4) (x : ChCode) := onAdc (onProt (inState up x) fun p => { p with trip := p.trip.set k (lvl true false) })
      fun a => { a with live := 0x1F }
    let cold := onProt up fun p => { p with trip := p.trip.set 0 (lvl false true) }
    (up.at 100000).powered = true ∧ (ch0 up).prot.trip[0].raw ≠ true ∧ (ch0 cold).prot.trip[0].raw ≠ true ∧
    (ch0 up).adc.settle[0] = none ∧ (ch0 up).adc.settle[1] = none ∧
    (ch0 up).adc.threshold 0 * 3000000 < 3000000 * 1024 ∧ 0 * 1024 + 16000 * 1024 < (ch0 up).adc.threshold 0 * 3000000 ∧
    0 * 1024 < (ch0 up).adc.threshold 1 * 3000000 ∧ (ch0 up).adc.threshold 1 * 3000000 + 16000 * 1024 < 3000000 * 1024 ∧
    fld (ch0 (hot 0 .run)).prot.map[(tripIdx .fltn).val] 9 0 * tickU ≤ (ch0 (hot 0 .run)).ticksWithin up.time 1000 now ∧
    (ch0 (hot 0 .run)).prot.trip[tripIdx .fltn] = lvl true false ∧ bitOf (ch0 (hot 0 .run)).prot.map[(tripIdx .fltn).val] 23 = true ∧
    (ch0 (hot 0 .run)).prot.stamps = [] ∧ 1 ≤ fld (ch0 (hot 0 .run)).prot.retry 17 14 ∧ (ch0 (hot 0 .run)).core.code = .run ∧
    fld (ch0 (hot 3 .run)).prot.map[(tripIdx .ov2).val] 9 0 * tickU ≤ (ch0 (hot 3 .run)).ticksWithin up.time 1000 now ∧
    (ch0 (hot 3 .run)).prot.trip[tripIdx .ov2] = lvl true false ∧
    cmpLevel ((ch0 (hot 3 .run)).adc.live &&& ~~~((ch0 (hot 3 .run)).adc.underTestMask now)) .ov2 = true ∧
    bitOf (ch0 (hot 3 .run)).prot.map[(tripIdx .ov2).val] 23 = false ∧ (ch0 (hot 0 .off)).core.code = .off ∧
    (ch0 cold).prot.trip[tripIdx .fltn] = lvl false true ∧
    fld (ch0 cold).prot.map[(tripIdx .fltn).val] 9 0 * tickU ≤ (ch0 cold).ticksWithin up.time 1000 now := by decide

theorem witness_CapturesThresholdsWindows :
    let y : Capture := { cmp := 4, crossing := 900, sample := none, trim := {} }
    let d (k : Fin 5) : Capture := { cmp := k, crossing := 900, sample := some 1060, trim := {} }
    let a := onAdc up fun c => { c with capA := some y, capB := some y }
    let b (k : Fin 5) := onAdc up fun c => { c with capA := some (d k), capB := some (d k) }
    (up.at 2000).powered = true ∧ (a.chanAt 2000 0).adc.idle false (max up.dtime 2000) = true ∧
    (a.chanAt 2000 0).adc.idle true (max up.dtime 2000) = true ∧ (ch0 a).adc.capA = some y ∧ (ch0 a).adc.capB = some y ∧
    y.sample = none ∧ Cells.wf 0 (ch0 (b 0)).nle.inp = true ∧ (ch0 (b 0)).adc.capA = some (d 0) ∧
    (ch0 (b 0)).adc.capB = some (d 0) ∧ (d 0).sample = some 1060 ∧ (d 0).cmp ≠ 4 ∧ (ch0 (b 4)).adc.capA = some (d 4) ∧
    1060 - 60 + 200 ≤ max up.dtime 1400 ∧ max up.dtime 1400 ≤ 1060 - 60 + 400 ∧
    (ch0 (onAdc up fun c => { c with settle := c.settle.set 4 (some 1000) })).adc.settle[4] = some 1000 ∧
    1000 + 1000 ≤ max up.dtime 2000 ∧ (up.at 2000).busUp 0 = true ∧ up.ownerOf (chUnit 0) = some 0 ∧
    (ch0 (inState up .off)).core.code = .off := by decide

/-! ### Witnesses: plug, identification, protection -/

theorem witness_Plug :
    let on (k : ChCode) := onCore (inState up k) fun c => { c with plugEn := true, plugPin := true, debounce := some 0, isUnplugged := true }
    let auto := onCh (on .unplugged) fun c => { c with core := { c.core with motorRs := 0x0A000064#32 }, adc := { c.adc with vbus := 1024 } }
    let open' (e : Bool) := onCore (inState up .off) fun c => { c with plugEn := e, plugPin := !e }
    let bare := onCore (inState up .off) fun c => { c with plugEn := false, plugPin := false }
    let now := max up.dtime 200000000
    let shut : Prop := (ch0 bare).core.plugPin = false ∧ bitOf 1#32 0 = true
    (up.at 200000000).powered = true ∧ 1000 ≤ now ∧ 8 * tickU ≤ (ch0 (on .off)).ticksWithin up.time 1000 now ∧
    (ch0 (on .off)).core.plugEn = true ∧ (ch0 (on .off)).core.plugPin = true ∧ (ch0 (on .off)).core.code = .off ∧
    (ch0 (on .locked)).core.code = .locked ∧ (ch0 (open' false)).core.plugEn = false ∧ (ch0 (open' false)).core.plugPin = true ∧
    8 * tickU ≤ (ch0 (open' false)).ticksWithin up.time 1000 now ∧ 8 * tickU ≤ (ch0 bare).ticksWithin up.time 1000 now ∧
    (ch0 (on .off)).core.debounce = some 0 ∧ 0 + 200000000 ≤ now ∧ (ch0 (on .unplugged)).core.code = .unplugged ∧
    (ch0 (on .unplugged)).profileSet = false ∧ (ch0 auto).core.code = .unplugged ∧ (ch0 auto).profileSet = true ∧
    bitOf (ch0 auto).core.config 3 = true ∧ auto.clusterFailed 0 = false ∧ auto.hk.basking = false ∧ 1024 ≤ (ch0 auto).adc.vbus ∧
    (ch0 auto).active &&& 0xF = 0 ∧ (ch0 auto).posMode = 0 ∧ (ch0 auto).core.debounce = some 0 ∧
    (up.at 2000).busUp 0 = true ∧ up.ownerOf (chUnit 0) = some 0 ∧ (ch0 bare).core.code = .off ∧ (ch0 bare).core.plugEn = false ∧
    shut ∧ bitOf 0#32 0 = false ∧ (ch0 (inState up .run)).core.code = .run := by decide

/-- Step 3 measures 16 V for 3 A; 16 pulses of step 5 last TP at a code of 1,000. -/
theorem witness_Identification :
    let run (rs ls : Word) : IdentRun := { start := 900, rs := rs, ls := ls, iFs := 500, vFs := 800, rsMeas := some 100 }
    let s (rs ls : Word) := onCore (inState up .ident) fun c => { c with ident := some (run rs ls) }
    let free := s 0x00000064#32 0x00000064#32
    let tight := s 0x0A000001#32 0x00000064#32
    let m := List.replicate 16 (1000000, (ch0 free).core.identTp, 1600000)
    let steady := [(1000000, 100, 1600000)]
    let out (profile : Word) (x : Nat) : Prop := min (fld profile 31 24) 100 ≠ 0 ∧
      fld profile 19 0 * min (fld profile 31 24) 100 < 100 * ((x : Int) - fld profile 19 0).natAbs
    (free.at 73000900).powered = true ∧ (free.at 2000).busUp 0 = true ∧ free.ownerOf (chUnit 0) = some 0 ∧
    (ch0 free).core.ident = some (run 0x00000064#32 0x00000064#32) ∧ 900 + 31000000 ≤ max up.dtime 31000900 ∧
    0 < steady.foldl (fun (x : Int) (p : Nat × Nat × Nat) => x + (ch0 free).adc.currentOf false p.2.2) 0 ∧
    (ch0 free).adc.vbusOf 0 < 1024 ∧ 900 + 73000000 ≤ max up.dtime 73000900 ∧ m.length = 16 ∧
    m.all (ch0 free).identPulseOk = true ∧ (m.all (ch0 tight).identPulseOk) = true ∧
    ¬ out 0x00000064#32 100 ∧ ¬ out 0x00000064#32 (identLs (ch0 free).adc (run 0x00000064#32 0x00000064#32) m (free.freeCtr + 1)) ∧
    out 0x0A000001#32 100 := by decide

theorem witness_StopLimitAndRetry :
    let stop := onCore (inState up .stopping) fun c => { c with stopFrom := some 1000 }
    let wait := onCh (inState up .tripped) fun c => { c with
      core := { c.core with isUnplugged := false }, prot := { c.prot with wait := some (1000, false) } }
    let act := onProt wait fun p => { p with sto := true }
    let auto := onCore (onCh permits fun _ => ch0 wait) fun c => { c with onPll := true, configIn := 0x10#32 }
    let arm := onCore wait fun c => { c with onPll := true, configIn := 0#32 }
    (up.at 5000001250).powered = true ∧ (ch0 stop).core.stopFrom = some 1000 ∧ (ch0 stop).core.code = .stopping ∧
    (ch0 stop).fcu.phase ≠ .wrongMotorAsc ∧
    timedOut (1000 + max (fld (ch0 stop).core.configIn 15 8) 1 * 100000000) (max up.dtime 5000001250) = true ∧
    (ch0 wait).prot.wait = some (1000, false) ∧ (ch0 wait).core.code = .tripped ∧ (ch0 wait).core.thermal = false ∧
    1000 + (ch0 wait).retryWait ≤ max up.dtime 100001000 ∧ (ch0 act).activeNoPlg ≠ 0 ∧ (ch0 wait).activeNoPlg = 0 ∧
    (ch0 wait).core.onPll = false ∧ (ch0 auto).activeNoPlg = 0 ∧ (ch0 auto).core.onPll = true ∧
    bitOf (ch0 auto).core.configIn 4 = true ∧ auto.permit 0 = true ∧ (ch0 arm).core.onPll = true ∧
    bitOf (ch0 arm).core.configIn 4 = false ∧ (ch0 arm).adc.cmpFail = 0 := by decide

theorem witness_ProtectionChecks :
    let k : ChopCheck := { v0 := 5, deadline := 1000, last := 5 }
    let chop := onProt (onCore (inState up .run) fun c => { c with isUnplugged := false }) fun p => { p with chop := some k }
    let regen := onFcu (onPwm (onProt chop fun p => { p with power := [(1900, -1)] }) fun p => { p with released := true, setValid := true }) fun f => { f with startDone := true }
    let hist := onTherm (inState up .run) fun h => { h with
      hist := [{ stamp := 1000000000, temp := 100 * 1048576, broken := false }, { stamp := 0, temp := 20 * 1048576, broken := false }] }
    let d (x : Option Nat) : DisRun := { mode := 1, start := 1000, low := x }
    let dis (x : Option Nat) := onFcu (inState up .discharge) fun f => { f with phase := .discharge, dis := some (d x) }
    (up.at 2000).powered = true ∧ (ch0 up).prot.sto = false ∧ (ch0 (inState up .run)).core.code = .run ∧
    (ch0 (inState up .run)).prot.sto = false ∧ (ch0 chop).prot.chop = some k ∧ timedOut k.deadline (max up.dtime 2000) = true ∧
    (ch0 chop).regenerating chop.hk.shut 2000 = false ∧ (ch0 regen).regenerating regen.hk.shut 2000 = true ∧
    (ch0 regen).core.code = .run ∧ (ch0 regen).prot.chop = some k ∧
    max up.dtime 1000000000 % 100000000 = 0 ∧ (ch0 (onTherm up fun h => { h with par := h.par.set 15 0 })).thermPar 15 = 0 ∧
    (ch0 hist).thermPar 15 ≠ 0 ∧ (ch0 hist).ntcEn = true ∧ (ch0 hist).therm.hist.head?.map (·.temp) = some (100 * 1048576) ∧
    ((ch0 hist).therm.hist.find? (fun h => decide (h.stamp + 1000000000 ≤ max up.dtime 1000000000))).map (·.temp) = some (20 * 1048576) ∧
    (ch0 hist).therm.rise = false ∧
    ((ch0 hist).thermPar 15 : Int) * 1048576 < (100 * 1048576 - 20 * 1048576) * 10 ∧ bitOf (ch0 hist).prot.map[9] 23 = false ∧
    (ch0 hist).core.code = .run ∧ (ch0 (dis (some 1000))).fcu.dis = some (d (some 1000)) ∧ (ch0 (dis none)).core.code = .discharge ∧
    1000 + 1000000 ≤ 1000 + (ch0 (dis none)).fcuPar 32 * 1000000 ∧ 1000 + 1000000 ≤ max up.dtime 1001000 ∧
    (ch0 (dis none)).fcu.dis = some (d none) ∧
    timedOut (1000 + (ch0 (dis none)).fcuPar 32 * 1000000) (max up.dtime 5000001250) = true := by decide

/-! ### Witnesses: position, field control -/

theorem witness_PositionCounting :
    let quad := onPos up fun p => { p with cfg := 0x44346428#32, still := false }
    let at' (k : ChCode) := onCh quad fun c => { c with
      core := { c.core with code := k, ident := some { start := 900, rs := 0, ls := 0, iFs := 0, vFs := 0, rsMeas := none } }
      fcu := { c.fcu with dis := some { mode := 2, start := 1000, low := none } } }
    let idx (count : Nat) := onPos up fun p => { p with cfg := 0x84346428#32, dirKnown := true, acquire := false, count := count }
    let acq := onPos (idx 5) fun p => { p with acquire := true }
    let hall (b : BitVec 3) := onPos up fun p => { p with cfg := 0xC4346428#32, sector := some 0, pins := b }
    let now := max up.dtime 100000
    let d (s : State) : Int := foldCount (ch0 s).cpr (((ch0 s).pos.count : Int) - ((ch0 s).pos.indexPos % (ch0 s).cpr : Nat))
    let dwell (s : State) : Prop := fld (ch0 s).pos.cfg 7 0 * tickU ≤ (ch0 s).ticksWithin up.time (16000 / 16) now
    (up.at 100000).powered = true ∧ 16000 ≤ 16 * now ∧ (ch0 quad).core.lb = none ∧ dwell quad ∧ dwell (idx 0) ∧ dwell (hall 1) ∧
    (ch0 quad).posMode = 1 ∧ (ch0 (idx 0)).posMode = 2 ∧
    2 * b2n ((ch0 quad).pos.pins.getLsbD 0) + b2n ((ch0 quad).pos.pins.getLsbD 1) = 0 ∧
    (ch0 (at' .ident)).core.code = .ident ∧ (ch0 (at' .ident)).core.ident.isSome = true ∧ (ch0 (at' .ident)).posMode = 1 ∧
    (ch0 (at' .discharge)).core.code = .discharge ∧ ((ch0 (at' .discharge)).fcu.dis.map (·.mode)) = some 2 ∧
    (ch0 quad).core.code ≠ .ident ∧ (ch0 quad).core.code ≠ .discharge ∧ (ch0 (hall 1)).posMode = 3 ∧
    (ch0 (hall (pinsOf true false false))).pos.sector = some 0 ∧
    (hallOf (pinsOf true false false).toNat = some 0) ∧ hallOf (pinsOf true true false).toNat = some 1 ∧
    hallOf (pinsOf true false true).toNat = some 5 ∧ hallOf (pinsOf false true false).toNat = some 2 ∧
    hallOf (pinsOf false false false).toNat = none ∧ (ch0 (hall 0)).adc.slot = none ∧ (ch0 (idx 0)).pos.dirKnown = true ∧
    true = !(ch0 (idx 0)).pos.down ∧ (ch0 (idx 0)).pos.pins.getLsbD 2 = !true ∧ (ch0 acq).pos.acquire = true ∧
    (ch0 (idx 0)).pos.acquire = false ∧ d (idx 0) = 0 ∧ d (idx 1) ≠ 0 ∧ (d (idx 1)).natAbs ≤ fld (ch0 (idx 1)).pos.cfg 28 24 ∧
    fld (ch0 (idx 100)).pos.cfg 28 24 < (d (idx 100)).natAbs ∧ (ch0 quad).pos.still = false ∧
    (ch0 quad).pos.stillDue + 16 * max 250 ((ch0 quad).ticksNs up.time (max up.dtime 200000000) (fld (ch0 quad).pos.cfg 7 0 + 8)) ≤
      16 * max up.dtime 200000000 := by decide

/-- R295: the six Hall states in order, 30° apart: each step up, and back down. -/
theorem test_hall_sectors :
    (List.range 6).all (fun k => hallOf (pinsOf (k == 0 || k == 1 || k == 5) (1 ≤ k && k ≤ 3) (3 ≤ k && k ≤ 5)).toNat == some k) = true := by
  decide

theorem witness_PositionWrites :
    (up.at 2000).busUp 0 = true ∧ up.ownerOf (chUnit 0) = some 0 ∧ (ch0 up).core.lb = none ∧ (ch0 up).posMode ≠ 3 ∧
    (ch0 (inState up .off)).core.code = .off ∧
    fld ((ch0 up).pos.cfg ^^^ 0x24346428#32) 31 29 ≠ 0 ∧ fld ((ch0 up).pos.cfg ^^^ 0x04346400#32) 31 29 = 0 ∧
    (ch0 up).pos.cpr = 4096 ∧ (4096#32 : Word) ≠ 4097 ∧ (ch0 (inState up .run)).core.code = .run ∧ (ch0 up).pos.indexPos < 2 ^ 31 := by
  decide

theorem witness_FieldControl :
    let u : RunS := { run0 with waitsMod := true }
    let wait := onNle carrier fun e => { e with run := some u }
    let cmd (v : Half) := onNle wait fun e => { e with out := [(0x280, v), (0x281, v)] }
    let rise := onFcu up fun f => { f with blendDir := .rising, blend := 65535 }
    let fall := onFcu up fun f => { f with blendDir := .falling, blend := 1 }
    let ke (x lo wr bk : Nat) (dem : Bool) := onFcu up fun f => { f with
      keAt := some 1000, keFilt := x * 65536, keLow := lo, keWrong := wr, keBack := bk, demag := dem }
    let due (k : Nat) : Prop := (ch0 up).fcuPar 24 * 1000000 ≤ k + (max up.dtime 2000 - 1000)
    let v (s : State) (a : Nat) : Int := (BitVec.ofNat 16 ((ch0 s).outWord a)).toInt
    (up.at 2000).powered = true ∧ (ch0 (cmd 0x4000)).nle.run = some u ∧ u.waitsMod = true ∧
    Cells.wf 0 (ch0 (cmd 0x4000)).nle.out = true ∧ Cells.wf 0 (ch0 (cmd 0x7FFF)).nle.out = true ∧
    v (cmd 0x4000) 0x280 * v (cmd 0x4000) 0x280 + v (cmd 0x4000) 0x281 * v (cmd 0x4000) 0x281 ≤ 32767 * 32767 ∧
    (ch0 (cmd 0x4000)).injecting (max up.dtime 2000) = false ∧ (ch0 (cmd 0x7FFF)).injecting (max up.dtime 2000) = false ∧
    32767 * 32767 < v (cmd 0x7FFF) 0x280 * v (cmd 0x7FFF) 0x280 + v (cmd 0x7FFF) 0x281 * v (cmd 0x7FFF) 0x281 ∧
    (ch0 rise).fcu.blendDir = .rising ∧ (ch0 rise).blendW (max up.dtime 2000000) = 65536 ∧ (ch0 fall).fcu.blendDir = .falling ∧
    (ch0 fall).blendW (max up.dtime 2000000) = 0 ∧ (ch0 (ke 0 0 499999000 0 false)).fcu.phase ≠ .wrongMotorAsc ∧
    (ch0 (ke 0 0 499999000 0 false)).keOut = true ∧ due 499999000 ∧
    (ch0 (ke 204 499999000 0 0 false)).keOut = false ∧ (ch0 (ke 204 499999000 0 0 false)).keWeak = true ∧
    (ch0 (ke 204 499999000 0 0 false)).fcu.demag = false ∧
    (ch0 (ke 213 0 0 499999000 true)).keOut = false ∧ (ch0 (ke 213 0 0 499999000 true)).keStrong = true ∧
    (ch0 (ke 213 0 0 499999000 true)).fcu.demag = true := by decide

theorem witness_Starts :
    let st (ph : FcuPhase) := onFcu (inState up .run) fun f => { f with phase := ph, startFrom := some 1000 }
    let last := onFcu (st .probe) fun f => { f with probe := List.replicate 7 (0, 0) }
    let pol (k : Nat) := onFcu (st .polarity) fun f => { f with polarity := k, polarityAt := 1000 }
    let x (n : Nat) : PolPulse := { ns := n, uvU := 3000000, uvV := 0 }
    let y (n : Nat) : PolPulse := { ns := n, uvU := 3000000, uvV := 0 }
    let m := 100 - (ch0 up).fcuPar 20
    let stops (k : Nat) : Prop := (ch0 (pol k)).polarityStops (x 1) (ch0 (pol k)).fcu.hfi.theta = true ∧
      (ch0 (pol k)).polarityStops (y 1) (angle (((ch0 (pol k)).fcu.hfi.theta : Int) + 32768)) = true
    let now := max up.dtime 2000000
    (up.at 2000000).powered = true ∧ (ch0 (st .probe)).fcu.phase = .probe ∧
    (ch0 (st .probe)).probeEnd (ch0 (st .probe)).fcu.probe.length + 140 ≤ now ∧
    (ch0 (st .probe)).fcu.probe.length + 1 < (ch0 (st .probe)).fcuPar 16 ∧ (ch0 last).fcuPar 16 ≤ (ch0 last).fcu.probe.length + 1 ∧
    (ch0 last).probeEnd (ch0 last).fcu.probe.length + 140 ≤ now ∧
    (ch0 (pol 0)).fcu.phase = .polarity ∧ (ch0 (pol 0)).fcu.startFrom = some 1000 ∧ now ≤ 1000 + (ch0 (pol 0)).fcuPar 19 * 1000000 ∧
    (ch0 (pol 0)).fcu.polarityAt + 100000 + 1000000 + 100000 ≤ now ∧ stops 0 ∧ stops 2 ∧ 1000 * 100 < 100000 * m ∧
    100000 * m ≤ 100000 * 100 ∧ 1000 * m ≤ 100000 * 100 ∧ (ch0 (pol 0)).fcu.polarity < 2 ∧ 2 ≤ (ch0 (pol 2)).fcu.polarity ∧
    (ch0 (st .align)).fcu.phase = .align ∧
    (ch0 (st .align)).fcu.alignFrom + 10000000 + (ch0 up).fcuPar 22 * 1000000 ≤ max up.dtime 210000000 ∧
    max up.dtime 210000000 ≤ 1000 + (ch0 up).fcuPar 19 * 1000000 ∧ (ch0 (st .align)).angleSrc = 0 ∧
    timedOut (1000 + (ch0 up).fcuPar 19 * 1000000) (max up.dtime 2000001250) = true ∧ (ch0 (st .align)).core.code = .run ∧
    bitOf (ch0 up).prot.map[10] 23 = false := by decide

/-! ### Witnesses: the engines -/

theorem witness_EngineControlFlow :
    (∀ x ∈ [engWord 0x01 0 0 0, engWord 0x02 0 0 0, engWord 0x03 0 0 1023, engWord 0x04 31 0 0, engWord 0x05 0 2 0,
      engWord 0x06 0 0 1023, engWord 0x07 0 1 0, engWord 0x08 1 0 5, engWord 0x09 0 1 5, engWord 0x0A 0 0 5, engWord 0x0A 0 1 5,
      engWord 0x0A 0 2 5, engWord 0x0A 0 3 5, engWord 0x0A 0 4 5, engWord 0x0A 0 5 5, engWord 0x0A 0 6 5, engWord 0x0B 0 0 5,
      engWord 0x0B 3 0 5, engWord 0x0C 0 15 5, engWord 0x0D 0 0 5], Runs (exe x regs0) 2000 0 run0 ∧ Stands (exe x regs0) 0 x) ∧
    (exe 0 regs0).chans[0].nle.regs = regs0 ∧ regs0.pc + 1 < 1024 ∧ (regs0.bits 2).toNat < 1024 ∧ regs0.ix[0] < 1024 ∧
    regs0.ix[3] < 1024 := by
  exact ⟨fun x _ => placed x, by decide⟩

theorem witness_EngineRegisters :
    (∀ x ∈ [engWord 0x12 31 0 0xFFFF, engWord 0x13 31 1 0, engWord 0x16 3 0 0xFFFF, engWord 0x17 3 0 0x8000, engWord 0x18 3 1 0,
      engWord 0x18 31 3 1, engWord 0x1A 31 2 0, wordR 0x20 0 1 2 0 false 0 0, wordR 0x20 0 1 31 0 false 0 9, wordR 0x20 0 1 0 0 false 0 8,
      engWord 0x21 0 1 0x7FFF, engWord 0x22 0 1 1, engWord 0x23 0 1 1, engWord 0x24 0 1 1, wordR 0x25 0 1 0 0 false 15 0,
      wordR 0x25 0 1 0 0 true 15 1, wordR 0x25 0 1 0 0 false 15 2, wordR 0x25 0 1 0 0 false 15 3, wordR 0x26 0 1 2 0 true 15 0,
      engWord 0x27 0 1 0x8000, wordR 0x20 0 1 2 0 false 0 10, wordR 0x20 0 1 2 1 false 0 0, wordR 0x20 0 1 2 0 true 0 0,
      wordR 0x20 0 1 2 0 false 1 0, wordR 0x20 0 1 2 0 false 0 7, wordR 0x25 0 1 0 0 false 0 4, wordR 0x25 0 1 2 0 false 0 0,
      wordR 0x25 0 1 0 1 false 0 0, wordR 0x25 0 1 0 0 true 0 0], Runs (exe x regs0) 2000 0 run0 ∧ Stands (exe x regs0) 0 x) ∧
    (exe 0 regs0).chans[0].nle.regs = regs0 ∧ regs0.pc + 1 < 1024 := by
  exact ⟨fun x _ => placed x, by decide⟩

theorem witness_EngineMemory :
    let free (w : Word) : Bool := !run0.stalls ((ch0 (exe w regs0)).nle.eng run0) regs0 w
    let waits := { run0 with waitsMod := true, waitsVbus := true }
    let stop (k : ChCode) (w : Word) := onCore (onCh up fun _ => ch0 (exe w regs0)) fun c => { c with code := k }
    (∀ x ∈ [wordM 0x10 0 0 0 0, wordM 0x10 0 1 2 1, wordM 0x11 0 0 0 511, wordM 0x11 0 0 0 0x281, wordM 0x11 0 0 0 0x292,
      wordM 0x11 0 0 0 0x28C, wordM 0x11 1 0 0 0x281, wordM 0x14 3 3 3 1023, wordM 0x15 3 0 0 0x1FF], Runs (exe x regs0) 2000 0 run0 ∧ Stands (exe x regs0) 0 x) ∧
    [wordM 0x10 0 0 0 0, wordM 0x10 0 1 2 1, wordM 0x11 0 0 0 511, wordM 0x11 0 0 0 0x281, wordM 0x11 0 0 0 0x292,
      wordM 0x11 0 0 0 0x28C, wordM 0x11 1 0 0 0x281, wordM 0x14 3 3 3 1023, wordM 0x15 3 0 0 0x1FF].all free = true ∧
    regs0.pc + 1 < 1024 ∧ (∀ y : Fin 4, regs0.ix[y] < 1024) ∧ Cells.wf 0#16 (ch0 (exe 0 regs0)).nle.psm = true ∧
    Cells.wf 0#16 (ch0 (exe 0 regs0)).nle.out = true ∧ regs0.eaOf 1 2 1 = 0 ∧
    (ch0 (stop .stopping 0)).core.code = .stopping ∧ (regs0.bits 0).getLsbD 0 = true ∧ (ch0 (stop .stopping 0)).fcu.phase ≠ .wrongMotorAsc ∧
    (ch0 (stop .run 0)).core.code ≠ .stopping ∧ Cells.get 0 (ch0 (stop .stopping (wordM 0x11 0 0 0 0x28C))).nle.store 1022 = wordM 0x11 0 0 0 0x28C ∧
    waits.stalls ((ch0 (exe 0 regs0)).nle.eng waits) regs0 (wordM 0x10 0 0 0 0x203) = true ∧
    waits.stalls ((ch0 (exe 0 regs0)).nle.eng waits) regs0 (wordM 0x11 0 0 0 0x287) = true := by
  exact ⟨fun x _ => placed x, by decide⟩

theorem witness_EngineAccumulatorsAndPi :
    (∀ x ∈ [wordR 0x30 0 1 2 0 false 7 0, wordR 0x30 0 1 2 0 false 0 2, wordR 0x31 0 0 0 3 false 0 0, wordR 0x31 0 3 0 0 false 0 1,
      wordR 0x31 0 3 0 0 false 0 3, wordR 0x31 0 0 0 0 false 15 6, wordR 0x31 0 0 0 0 true 15 7, wordR 0x31 0 31 0 0 false 0 8,
      wordR 0x31 0 31 0 0 false 0 9, wordR 0x32 31 0 0 3 true 15 0, wordR 0x33 0 1 29 3 true 15 1, wordR 0x33 31 1 2 0 false 0 0,
      wordR 0x30 0 1 2 0 false 0 3, wordR 0x30 0 1 2 0 false 8 0, wordR 0x31 0 0 0 0 false 0 10, wordR 0x31 0 4 0 0 false 0 1,
      wordR 0x33 0 1 2 0 false 0 2], Runs (exe x regs0) 2000 0 run0 ∧ Stands (exe x regs0) 0 x) ∧
    (exe 0 regs0).chans[0].nle.regs = regs0 ∧ regs0.pc + 1 < 1024 := by
  exact ⟨fun x _ => placed x, by decide⟩

theorem witness_EngineDutySetAndExceptions :
    let s := exe (engWord 0x19 0 0 0) regs0
    let run := onCh s fun c => { c with
      core := { c.core with code := .run }, fcu := { c.fcu with startDone := true }, pwm := { c.pwm with count0 := some 1000 } }
    (∀ x ∈ [engWord 0x19 0 0 0, 0, engWord 0x3C 0 0 0], Runs (exe x regs0) 2000 0 run0 ∧ Stands (exe x regs0) 0 x) ∧
    (s.at 2000).powered = true ∧ (ch0 s).nle.run = some run0 ∧ (ch0 s).nle.overdue (max s.dtime 2000) = false ∧
    (ch0 s).nle.overdue (max s.dtime 100001) = false ∧ run0.entry = .update ∧ noFault.parity = false ∧
    run0.count < 65536 ∧ (ch0 s).nle.regs.pc + 1 < 1024 ∧ run0.waitsMod = false ∧ ¬ run0.trig.deadline < max s.dtime 2000 ∧
    run0.trig.deadline < max s.dtime 100001 ∧ (ch0 run).core.code = .run ∧ (ch0 run).fcu.startDone = true ∧
    (ch0 run).pwm.count0.isSome = true ∧ (∀ other ∈ engineRows.map (·.1), other ≠ opOf 0#32) ∧
    ((engineRows.map (·.1)).contains (opOf (engWord 0x19 0 0 0))) = true := by
  exact ⟨fun x _ => placed x, by decide⟩

theorem witness_EngineRuns :
    let g : Trigger := { stamp := 900, deadline := 1900 }
    let s := onNle up fun e => { e with pend := e.pend.set 2 (some g), entries := #v[none, none, some 1023, none] }
    let d := onNle up fun e => { e with enabled := false, disabledAt := some 1000 }
    let fe := onCh (inState up .run) fun c => { c with
      fcu := { c.fcu with startDone := true }
      nle := { c.nle with feIn := 0x8064FFFF#32, feWritten := true, feOver := true, feAt := some 1000, feTime := 5 } }
    (s.at 2000).powered = true ∧ (ch0 s).nle.run = none ∧ (ch0 s).nle.overdue (max up.dtime 2000) = false ∧ (ch0 s).nle.chunkFirst = false ∧ (ch0 s).nle.pend[Entry.slow.idx] = some g ∧
    (ch0 s).nle.entries[Entry.slow.idx] = some 1023 ∧ (∀ k : Fin 4, k.val < Entry.slow.idx.val → (ch0 s).nle.pend[k] = none) ∧
    (ch0 (exe 0 regs0)).nle.run = some run0 ∧ (ch0 d).nle.disabledAt = some 1000 ∧ (ch0 d).nle.enabled = false ∧
    1000 + 1000000 + 250 ≤ max d.dtime 1001250 ∧ ¬ 1000 + 1000000 + 250 ≤ max d.dtime 1001249 ∧ (ch0 fe).nle.feAt = some 1000 ∧
    (ch0 fe).feActs = true ∧
    1000 + (max 1 (fld (ch0 fe).nle.feIn 24 16) * 1000000 - (ch0 fe).nle.feTime) + 250 ≤ max fe.dtime 100001250 ∧
    max fe.dtime 2000 < 1000 + (max 1 (fld (ch0 fe).nle.feIn 24 16) * 1000000 - (ch0 fe).nle.feTime) + 250 := by decide

theorem witness_SafetyProgram :
    let g := (seExe 0 regs0 seRun0).seEng seRun0
    (∀ x ∈ [engWord 0x38 0 28 16383, engWord 0x39 31 0 23, engWord 0x3A 0 0 7, engWord 0x3B 24 1 (7 * 8192 + 2024),
      engWord 0x3C 24 1 (7 * 8192 + 2023), engWord 0x02 0 0 0, engWord 0x12 0 0 5], RunsA (seExe x regs0 seRun0) 2000 seRun0 ∧
      Cells.get 0 (seExe x regs0 seRun0).se.store regs0.pc = x) ∧
    (g.plan regs0 (engWord 0x12 0 0 5)).map (fun p => (p.act, p.writes)) = some (EngAct.none, []) ∧
    regs0.pc + 1 < 16384 ∧ seRun0.a.outs.length + 24 ≤ 1024 ∧ g.ea regs0 (engWord 0x3B 24 1 (7 * 8192 + 2024)) + 24 ≤ 2048 ∧
    g.ea regs0 (engWord 0x3C 24 1 (7 * 8192 + 2023)) + 24 + 1 ≤ 2048 ∧ Cells.wf 0#16 (seExe 0 regs0 seRun0).se.psm = true ∧
    (seExe 0 regs0 seRun0).se.dbgLog = [] := by
  exact ⟨fun x _ => seats x, by decide⟩

theorem witness_MirrorExact :
    let g := (seExe 0 regs0 seRun0).seEng seRun0
    g.mir = false ∧ exactMirror (engWord 0x12 0 0 5) = true ∧ exactMirror (wordR 0x31 0 0 0 3 false 0 3) = true := by decide

/-! ### Witnesses: field position engine, raster -/

theorem witness_PositionFixes :
    let p (cfg : Word) := onFpe fun f => { f with ports := f.ports.set 1 { cfg := cfg } }
    let on := p 0x80000480#32
    let lb := p 0xA0000480#32
    let head : List Byte := [1, 40]
    let ask1 := ask 0x30 0x200 (fix0.map (·.toNat)) 0
    let got (s : State) := poised (asks s ask1) 0x30 ask1 (fpeFixExec 900 (.arrived []))
    let last (a : Nat) : Fix := { east := 0, north := 0, heading := 0, speed := 0, yaw := 0, epoch := 900, arrival := a, qual := 3, hitch := none }
    let fresh := onFpe fun f => { f with src := f.src.set 2 { last := some (last 900), fresh := true } }
    let owed := onFpe fun f => { f with src := f.src.set 2 { last := some (last 1900), fresh := true, owed := some (1000, 900) } }
    let bad : List Byte := [1] ++ fix0 ++ leBytes 2 0
    (up.at 2000).powered = true ∧ bitOf on.fpe.ports[1].cfg 31 = true ∧ fld on.fpe.ports[1].cfg 30 29 = 0 ∧
    bitOf lb.fpe.ports[1].cfg 31 = true ∧ fld lb.fpe.ports[1].cfg 30 29 ≠ 0 ∧ lb.fpe.ports[1].lbAt = none ∧
    40 ≤ fix0.length ∧ fix0.length ≤ 64 ∧ ccitt (head ++ fix0) < 65536 ∧
    ccitt (head ++ fix0) ≠ 0 ∧ (0xA7#8 : Byte) ∉ bad ∧ ([2#8] : List Byte) ≠ [1] ∧ (on.ownerOf fpeUnit).isSome = true ∧ on.fpeFailed = false ∧
    on.fpe.rejectFix 1 2000 (on.fixEpoch 2000 fix0) fix0 = none ∧
    on.fpe.rejectFix 1 2000 (on.fixEpoch 2000 fix0) (List.replicate 40 0) = some 0 ∧ got up ∧
    (asks up ask1).fpe.rejectFix 2 900 ((asks up ask1).fixEpoch 900 fix0) fix0 = none ∧
    got fresh ∧ (asks fresh ask1).fpe.rejectFix 2 900 ((asks fresh ask1).fixEpoch 900 fix0) fix0 = some 2 ∧
    fresh.fpe.src[2].last = some (last 900) ∧ fresh.fpe.src[2].owed = none ∧
    fresh.fpe.src[2].fresh = true ∧ (∀ j : Fin 3, j ≠ 2 → fresh.fpe.src[j].fresh = false) ∧
    900 + min 1000 (max 10 (fld fresh.fpe.srcCfg 9 0)) * 1000000 + 250 ≤ max fresh.dtime 300001150 ∧
    max fresh.dtime 2000 < 900 + min 1000 (max 10 (fld fresh.fpe.srcCfg 9 0)) * 1000000 + 250 ∧
    owed.fpe.src[2].last = some (last 1900) ∧ owed.fpe.src[2].owed = some (1000, 900) ∧ 1000 < (last 1900).arrival ∧
    1000 + 250 ≤ max owed.dtime 2000 := by
  unfold poised Next Passes; decide

theorem witness_FpeTicks :
    let geo := onFpe fun f => { f with geoWait := some { first := 127, recs := [{ x := 5 }], impl := some {} } }
    let st (k : FpeCode) (late : Nat) := onFpe fun f => { f with state := k, tick := some tick0, lastTick := 1000000, lateRun := late }
    let run := st .running 0
    (up.at 2000).powered = true ∧ (up.ownerOf fpeUnit).isSome = true ∧ up.fpeFailed = false ∧
    max up.dtime 2000 / up.fpe.period * up.fpe.period ≤ up.fpe.lastTick ∧ up.fpe.runAt = none ∧
    up.fpe.lastTick < max up.dtime 1000250 / up.fpe.period * up.fpe.period ∧
    max up.dtime 1000250 / up.fpe.period * up.fpe.period + 250 ≤ max up.dtime 1000250 ∧ up.fpe.tick = none ∧ up.fpe.geoWait = none ∧
    geo.fpe.geoWait.isSome = true ∧ geo.fpe.tick = none ∧ run.fpe.lastTick < max run.dtime 2000250 / run.fpe.period * run.fpe.period ∧
    max run.dtime 2000250 / run.fpe.period * run.fpe.period + 250 ≤ max run.dtime 2000250 ∧
    run.fpe.tick = some tick0 ∧ run.fpe.wait = none ∧ tick0.deadline < max run.dtime 2000001 ∧
    (st .idle 0).fpe.state ≠ .running ∧ run.fpe.state = .running ∧ run.fpe.lateRun + 1 < run.fpe.lateMax ∧
    (st .running (up.fpe.lateMax - 1)).fpe.lateRun + 1 = (st .running (up.fpe.lateMax - 1)).fpe.lateMax ∧
    max run.dtime 2000000 ≤ tick0.deadline ∧ tick0.rows.length = 1 ∧ tick0.active = true ∧ run.fpe.state ≠ .idle ∧ run.fpe.owed = [] ∧
    run.fpe.geo[0].epoch = 0 ∧ Cells.wf 0 run.chans[0].nle.inp = true := by decide

theorem witness_FpeModes :
    let geo := ask 0x31 0x200 [127, 1] 32
    let mode (k : Nat) := ask 0x32 0x200 [k] 0
    let fit := onFpe fun f => { f with geo := f.geo.set 0 { enable := true, lOff := 5 }, raster := { f.raster with enable := true } }
    let run := { fit with fpe := { fit.fpe with state := .running } }
    let stop := { fit with fpe := { fit.fpe with state := .stopping, stopAt := 1000 } }
    poised (asks up geo) 0x31 geo (fpeGeometryExec (.arrived (List.replicate 32 0))) ∧
    poised (asks fit (mode 1)) 0x32 (mode 1) fpeModeExec ∧ fit.fpe.state = .idle ∧
    poised (asks run (mode 1)) 0x32 (mode 1) fpeModeExec ∧ poised (asks run (mode 0)) 0x32 (mode 0) fpeModeExec ∧
    run.fpe.state = .running ∧ poised (asks stop (mode 2)) 0x32 (mode 2) fpeModeExec ∧ (stop.at 2000).powered = true ∧
    stop.fpe.state = .stopping ∧ 1000 + stop.fpe.longestOff ≤ max stop.dtime 5001000 ∧
    max stop.dtime 5000999 < 1000 + stop.fpe.longestOff ∧ stop.fpe.raster.ready = true ∧ stop.fpe.raster.paused = none ∧
    (stop.ports[stop.rasterPort].link == .l0) = true ∧ stop.dev.phase ≠ .powerFail := by
  unfold poised Next Passes; decide

theorem witness_RasterServiceAndFetches :
    let good := onRas fun r => { r with winSize := 2, originE := 0x80000000#32 }
    let merged (s : State) : RasterS := { s.fpe.raster with ctrl := merge s.fpe.raster.ctrl (0x000703E8#32 ||| 0x80000000#32) 0x070FFFFF#32 }
    let hold (x : Tile) := onRas fun r => { r with enable := true, slots := r.slots.set 31 (some x) }
    let wide (x : Tile) := { hold x with fpe := { (hold x).fpe with raster := { (hold x).fpe.raster with winSize := 2, originE := 0x80000000#32 } } }
    let wait := onRas fun r => { r with enable := true, waits := [(3, 4)] }
    let asked : Tile := { tile0 with entry := .awaited }
    (up.at 2000).busUp 0 = true ∧ up.ownerOf fpeUnit = some 0 ∧ up.fpe.state = .idle ∧ good.fpe.raster.enable = false ∧
    (merged good).configErr = 0 ∧ (merged up).configErr = 2 ∧ (hold tile0).fpe.raster.enable = true ∧
    (hold tile0).fpe.raster.fault = false ∧ (onRas fun r => { r with fault := true }).fpe.raster.fault = true ∧
    ((hold tile0).at 2000).powered = true ∧ (hold tile0).fpe.raster.ready = true ∧ (hold tile0).fpe.raster.find 0 0 = some 31 ∧
    (hold tile0).fpe.raster.slots[31].isSome = true ∧ (hold tile0).fpe.raster.outstanding tile0 = true ∧
    (hold asked).fpe.raster.find 0 0 = some 31 ∧ (hold asked).fpe.raster.outstanding asked = true ∧
    (wide asked).fpe.raster.outstanding asked = true ∧ asked.entry = .awaited ∧ tile0.entry = .present 16384 ∧
    bitOf 0#32 0 = false ∧ bitOf 0x4001#32 0 = true ∧ (hold asked).fpe.raster.entryErr asked.col asked.row 0x4001#32 0 ≠ none ∧
    (wide asked).fpe.raster.entryErr asked.col asked.row 0x4001#32 0 = none ∧ (hold tile0).fpe.raster.queue = [] ∧
    wait.fpe.raster.ready = true ∧ wait.fpe.raster.waits = [(3, 4)] ∧ wait.fpe.raster.find 3 4 = none ∧ wait.fpe.raster.slots[0] = none ∧
    (onRas fun r => { r with enable := true, waits := [(0, 0)], slots := r.slots.set 31 (some tile0) }).fpe.raster.find 0 0 = some 31 ∧
    (up.ports[up.rasterPort].link == .l0) = true := by decide

theorem witness_RasterWriteBack :
    let s := onRas fun r => { r with enable := true, slots := r.slots.set 31 (some tile0) }
    let paused := { s with fpe := { s.fpe with raster := { s.fpe.raster with paused := some 1000 } } }
    let flush := ask 0x34 0x200 [] 0
    let inval := ask 0x33 0x200 [0, 0, 0, 0, 0, 0, 0, 0, 0, 0, 0, 0] 0
    let pause (k : Nat) := ask 0x35 0x200 [k] 0
    (s.at 2000).powered = true ∧ s.fpe.raster.paused = none ∧ s.fpe.raster.fault = false ∧
    (s.ports[s.rasterPort].link == .l0) = true ∧ s.fpe.raster.find 0 0 = some 31 ∧ s.fpe.raster.slots[31].isSome = true ∧
    (31, 31) ∈ s.fpe.raster.dirty ∧ poised (asks s flush) 0x34 flush (rasterFlushExec none) ∧ s.fpe.raster.wbLines < 2 ^ 32 ∧
    poised (asks s inval) 0x33 inval (rasterInvalidateExec none) ∧ s.fpe.raster.slots[31].any (inRange inval) = true ∧
    s.fpe.raster.slots[0].any (inRange inval) = false ∧
    poised (asks s (pause 1)) 0x35 (pause 1) (rasterPauseExec [] none) ∧
    poised (asks paused (pause 0)) 0x35 (pause 0) (rasterPauseExec [] none) ∧ paused.fpe.raster.paused.isSome = true ∧
    poised (asks paused (pause 1)) 0x35 (pause 1) (rasterPauseExec [] none) ∧ paused.fpe.raster.ready = true ∧
    (pause 1).byte 24 = 1 ∧ (pause 0).byte 24 ≠ 1 ∧
    1000 + min 10000 (max 10 (fld paused.fpe.raster.ctrl 15 0)) * 1000000 ≤ max paused.dtime 1000001000 ∧
    max paused.dtime 1000000999 < 1000 + min 10000 (max 10 (fld paused.fpe.raster.ctrl 15 0)) * 1000000 := by
  unfold poised Next Passes; decide

/-! ### Witnesses: CAN -/

theorem witness_CanModesAndReception :
    let st (x : CanCode) (m : Nat) := onCan0 fun c => { c with state := x, mode := m }
    let open' := onCan0 fun c => { c with state := .errorActive, mode := 1, ctrl := 1 }
    let rx (k : OutRing) := onCan0 fun c => { c with
      state := .errorActive, mode := 1, ring := k, objs := c.objs.set 127 { cfg := 1, id := 0x80000123#32, mask := 0x7FF } }
    let full : OutRing := { out64 with tail := 63 }
    let abd := onCan0 fun c => { c with state := .abdSearch, mode := 3, ctrl := 3, abdFrom := 1000 }
    let off (c : CanS) : CanS := { c with ctrl := merge c.ctrl 0x49#32 0x7F78#32 }
    let bad := onCan0 fun c => { c with nbt := 0 }
    (up.at 2000).busUp 0 = true ∧ up.ownerOf (canUnit 0) = some 0 ∧ modeOf up.can[0].ctrl = 0 ∧ up.can[0].mode = 0 ∧
    up.can[0].state = .off ∧ (off up.can[0]).refused = false ∧ (off bad.can[0]).refused = true ∧ fld 0x49#32 2 0 = 1 ∧ fld 0x48#32 2 0 = 0 ∧
    modeOf bad.can[0].ctrl = 0 ∧ bad.can[0].mode = 0 ∧ modeOf open'.can[0].ctrl ≠ 0 ∧
    (0x09#32 : Word) &&& 0x38#32 ≠ open'.can[0].ctrl &&& 0x38#32 ∧
    (rx out64).can[0].ring.enabled = true ∧ fld 63#32 15 0 < ringSize (rx out64).can[0].ring.cfg ∧
    ringSize (rx out64).can[0].ring.cfg ≤ fld 64#32 15 0 ∧ (up.at 2000).powered = true ∧ up.canFailed = false ∧
    modeOf (st .errorActive 1).can[0].ctrl ≠ (st .errorActive 1).can[0].mode ∧ (st .errorActive 1).can[0].onBus = none ∧
    (st .integrating 1).can[0].state = .integrating ∧ (st .recovering 1).can[0].mode = 1 ∧ (st .abdSearch 3).can[0].state = .abdSearch ∧
    abd.can[0].abdFrom + max 1 (fld abd.can[0].abdCfg 15 8) * 10000000 + 250 ≤ max up.dtime 500001250 ∧
    up.can[0].lb ≠ 1 ∧ up.can[0].lb ≠ 2 ∧ frame0.fdf = false ∧ abd.can[0].lb ≠ 1 ∧ abd.can[0].lb ≠ 2 ∧
    abd.can[0].state = .abdSearch ∧ abd.can[0].mode = 3 ∧ modeOf abd.can[0].ctrl = 3 ∧
    max up.dtime 2000 ≤ abd.can[0].abdFrom + max 1 (fld abd.can[0].abdCfg 15 8) * 10000000 ∧
    (rx out64).can[0].onLine = true ∧ (rx out64).can[0].onBus = none ∧ (rx out64).can[0].past = [] ∧
    (st .errorActive 1).acceptor 0 frame0 = none ∧ (st .errorActive 1).can[0].onLine = true ∧
    (rx out64).acceptor 0 frame0 = some 127 ∧ (rx out64).can[0].objs[127].pst = false ∧
    (rx out64).can[0].ring.usable = true ∧ (rx out64).can[0].ring.hasSpace = true ∧ (rx full).acceptor 0 frame0 = some 127 ∧
    (rx full).can[0].ring.hasSpace = false := by decide

theorem witness_CanTransmission :
    let on := onCan0 fun c => { c with state := .errorActive, mode := 1, ctrl := 0x49#32 }
    let free := onCan0 fun c => { c with state := .errorActive, mode := 1, ctrl := 0x49#32, objs := c.objs.set 127 { cfg := 2 } }
    let x : CanTx := { frame := frame0, waiter := none, abort := false, attempts := 1, sof := 900 }
    let y : CanTx := { x with frame := { frame0 with fdf := true, brs := true } }
    let sent (x : CanTx) (ctrl : Word) := onCan0 fun c => { c with
      state := .errorActive, mode := 1, ctrl := ctrl, onBus := some 127, objs := c.objs.set 127 { cfg := 2, pend := some x } }
    let pend := onCan0 fun c => { c with state := .errorActive, mode := 1, objs := c.objs.set 127 { cfg := 2, pend := some x } }
    let off := onCan0 fun c => { c with state := .busOff, mode := 1, ctrl := 0x49#32 }
    let abd (k : Nat) := onCan0 fun c => { c with state := .abdSearch, mode := 3, abdFrom := 1000, abdRun := k }
    let send (w : Nat) := ask 0x40 0x100 [127, 0, w, 0, 0x23, 1, 0, 0, 0, 0, 0, 0] 0
    let abort := ask 0x41 0x100 [0xFF, 0xFF] 0
    let restart := ask 0x42 0x100 [] 0
    let e (snd : Bool) (kind : Nat) (data : Bool) : CanErr := { kind := kind, sender := snd, data := data, exempt := false, extra := 0, tdc := none }
    (0 : CanId).val = (send 0).unit % 16 ∧ poised (asks free (send 0)) 0x40 (send 0) (canSendExec q0 (.arrived [])) ∧
    poised (asks free (send 1)) 0x40 (send 1) (canSendExec q0 (.arrived [])) ∧ ((send 1).byte 26).testBit 0 = true ∧
    ((send 0).byte 26).testBit 0 = false ∧
    poised (asks on abort) 0x41 abort canAbortExec ∧ on.can[0].onBus = none ∧ poised (asks off restart) 0x42 restart canRestartExec ∧
    (up.at 2000).powered = true ∧ up.canFailed = false ∧ pend.can[0].onLine = true ∧ pend.can[0].mode = 1 ∧ pend.can[0].onBus = none ∧
    pend.can[0].pendings ≠ [] ∧ up.can[0].pendings = [] ∧ (sent x 0x49#32).can[0].onBus = some 127 ∧
    (sent x 0x49#32).can[0].objs[127].pend = some x ∧ (sent x 0x49#32).can[0].delayBad x.frame none = false ∧
    fld (sent x 0x49#32).can[0].ctrl 5 4 = 0 ∧ bitOf (sent x 0x49#32).can[0].objs[127].cfg 9 = false ∧
    (sent x 0x49#32).can[0].leaving = false ∧ (sent y 0x49#32).can[0].delayBad y.frame (some 128) = true ∧ (sent y 0x49#32).can[0].onLine = true ∧
    (sent y 0x49#32).can[0].objs[127].pend = some y ∧
    (e true 1 false).kind ≠ 3 ∧ (e false 3 false).sender = false ∧ on.can[0].onLine = true ∧ off.can[0].state = .busOff ∧
    (onCan0 fun c => { c with state := .listening, mode := 2 }).can[0].state = .listening ∧
    (abd 1).can[0].mode = 3 ∧ max up.dtime 2000 ≤ (abd 1).can[0].abdFrom + max 1 (fld (abd 1).can[0].abdCfg 15 8) * 10000000 ∧
    (abd 1).can[0].abdRun < 2 ∧ 2 ≤ (abd 2).can[0].abdRun ∧ on.can[0].mode = 1 ∧ on.can[0].lb ≠ 1 ∧
    (sent x 0x49#32).can[0].onBus.isSome = true ∧ (sent x 0x49#32).can[0].lb ≠ 1 := by
  unfold poised Next Passes; decide

/-! ### Witnesses: safety executive, its ports -/

theorem witness_SafetyCycle :
    let cyc (st : SeCode) := onSe0 fun e => { e with state := st, armed := true, tested := true, img := { cycleUs := 1000 } }
    let bad := seExe 0 regs0 seRun0
    (up.at 2000).powered = true ∧ ((cyc .run).at 1000001).seStarts = false ∧ ((cyc .run).at 2000000).seStarts = true ∧
    ((cyc .init).at 2000000).seStarts = true ∧ ((cyc .restart).at 2000000).seStarts = true ∧ (cyc .restart).se.state = .restart ∧
    bad.se.run = some seRun0 ∧ (∃ row ∈ engineRows, row.1 = opOf (Cells.get 0 (endB 5).se.store (endB 5).se.regsB.pc)) ∧ bad.se.state ≠ .debug ∧ bad.se.deadline 1000 + 250 ≤ max bad.dtime 996250 ∧
    max bad.dtime 996249 < bad.se.deadline 1000 + 250 ∧ bad.dev.seSplit = false ∧
    (bad.seEng seRun0).plan bad.se.regsA (Cells.get 0 bad.se.store bad.se.regsA.pc) = none ∧
    ((endB 5).se.run.map fun u => (u.second, u.countA, u.countB, u.overAt)) = some (true, 5, 4, none) ∧ (endB 5).dev.seSplit = false ∧
    (endB 5).se.state ≠ .debug ∧ (endB 5).se.attached = false ∧
    (endB 5).se.firstNow = false ∧ Cells.get 0 (endB 5).se.store (endB 5).se.regsB.pc = engWord 0x02 0 0 0 ∧
    max (endB 5).dtime 996000 ≤ (endB 5).se.deadline 1000 ∧ seRun0.a.issued = seRun0.b.issued ∧ seRun0.left = [] ∧
    ((endB 6).se.run.map (·.countA)) ≠ some (4 + 1) ∧ (cyc .run).se.state ≠ .restart := by decide

theorem witness_SafetyDebug :
    let img (d : Bool) : SeImg := { debugEn := d }
    let on := onSe0 fun e => { e with attached := true, state := .debug }
    let s := seExe (engWord 0x12 0 0 5) regs0 seRun0
    let at' (h : Bool) (n : Nat) := { s with se := { s.se with
      attached := true, state := .debug, dbgHalt := h, dbgCount := n, breaks := s.se.breaks.set 7 (some 1022) } }
    (up.at 2000).powered = true ∧ (onSe0 fun e => { e with img := img true }).se.img.debugEn = true ∧ up.se.attached = false ∧
    up.se.state ≠ .halted ∧ up.dev.seSplit = false ∧ up.se.img.debugEn = false ∧ on.se.attached = true ∧
    (at' true 255).se.dbgHalt = true ∧ (at' false 0).se.run = some seRun0 ∧ seRun0.second = false ∧
    (at' false 0).se.breaks[7] = some (at' false 0).se.regsA.pc ∧ (at' false 0).se.dbgPass = false ∧
    (((at' true 0).seEng seRun0).plan (at' true 0).se.regsA (Cells.get 0 (at' true 0).se.store (at' true 0).se.regsA.pc)).map
      (fun p => (p.act, p.writes)) = some (EngAct.none, []) ∧ (at' true 255).se.dbgCount < 256 ∧ 256 ≤ (at' true 256).se.dbgCount := by
  decide

theorem witness_SafetyPorts :
    let si (x : SiS) := onIo fun i => { i with si := i.si.set 23 x }
    let eq (b : Bool) : SiS := { cfg := 2, seenA := true, seenB := true, b := b }
    let fell : SiS := { cfg := 2, seenA := true, seenB := true, a := true, b := true, safe := true }
    let so (x : SoS) := onIo fun i => { i with so := i.so.set 7 x }
    let on : SoS := { cfg := 0x0103, on := true, since := 0, ra := true, rb := true }
    let pst (p : PstS) := { onIo fun i => { i with pst := i.pst.set 15 p } with se := { up.se with state := .run } }
    let ok : PstS := { cfg := #v[5, 0, 100, 0, 0x0012, 0, 0, 0], state := .ok, count := 1, seq := 1, stamp := 90 }
    (up.at 2000).powered = true ∧ (si (eq false)).io.si[23].mode = 2 ∧ (eq false).a ≠ true ∧ (eq false).b = !true ∧ (eq false).disc = none ∧
    ((si (eq false)).at 2000).siFiltered 23 2000 = true ∧ ((si (eq true)).at 2000).siFiltered 23 2000 = true ∧ (eq true).b ≠ !true ∧
    (eq true).discFault = false ∧ (eq true).testFault = false ∧ (eq true).startup = false ∧ (eq true).disc = none ∧ (eq true).inTime = true ∧
    ((si fell).at 2000).siFiltered 23 2000 = true ∧ fell.a ≠ false ∧
    (si { eq false with disc := some 1000 }).io.si[23].disc = some 1000 ∧ 1000 + 250 ≤ max up.dtime 1250 ∧ max up.dtime 1200 < 1000 + 250 ∧
    (so on).io.so[7].en = true ∧ on.fault = false ∧ (so on).dev.seSplit = false ∧ on.since + on.rbT ≤ max up.dtime 100000 ∧
    on.pulse = none ∧ on.pulsed = none ∧ true = on.on ∧ false ≠ on.on ∧
    on.cfg.getLsbD 1 = true ∧ on.opPer ≤ 100000000 - on.since - 0 ∧ (100000000 - on.since - 0) % on.opPer = 0 ∧
    on.opPer ≤ 150000000 - on.since - on.opPer / 2 ∧ (150000000 - on.since - on.opPer / 2) % on.opPer = 0 ∧
    1000 + ({ on with pulse := some (true, 1000) } : SoS).opW ≤ max up.dtime 3000 ∧
    (pst { ok with deadline := some 1000 }).io.pst[15].deadline = some 1000 ∧ ok.late = [] := by decide

theorem witness_SafetyPorts_slotsAndKeys :
    let key (x : KeyS) := onIo fun i => { i with keys := i.keys.set 5 x }
    let run (s : State) : State := { s with se := { s.se with state := .run } }
    let pst (p : PstS) := { onIo fun i => { i with pst := i.pst.set 15 p } with se := { up.se with state := .run } }
    let ok : PstS := { cfg := #v[5, 0, 100, 0, 0x0012, 0, 0, 0], state := .ok, count := 1, seq := 1, stamp := 90 }
    let d5 := ask 0x50 0x300 [15] 12
    (15 : Fin 16).val = d5.byte 24 ∧ poised (asks (pst ok) d5) 0x50 d5 (pstSendExec 900 (.arrived (pst0 5 2))) ∧
    poised (asks (pst ok) d5) 0x50 d5 (pstSendExec 900 (.arrived (pst0 5 3))) ∧
    poised (asks (pst ok) d5) 0x50 d5 (pstSendExec 900 (.arrived (pst0 5 1))) ∧
    (pst ok).io.pst[15].state = .ok ∧ (pst ok).io.pst[15].deadline = none ∧ (pst ok).io.pst[15].rstEn = false ∧ ok.outcome (pst0 5 2) 900 = 0 ∧
    ok.outcome (pst0 5 3) 900 = 5 ∧ ok.outcome (pst0 5 1) 900 = 4 ∧ ok.outcome (pst0 6 2) 900 = 2 ∧
    (key { cfg := 1 }).io.keys[5].type = 1 ∧ max up.dtime 19002000 = 2000 + 19000000 ∧ (key { cfg := 5 }).io.keys[5].isReset = true ∧
    (key { cfg := 1, press := some 0 }).io.keys[5].isReset = false ∧ 100000000 ≤ max up.dtime 119000000 - 0 ∧
    max up.dtime 119000000 - 0 ≤ 5000000000 ∧ max up.dtime 119000000 = 100000000 + 19000000 ∧
    (run (key { cfg := 5, press := some 0 })).se.state = .run ∧ (key { cfg := 1 }).io.keys[5].due ≤ max up.dtime 2000 ∧
    0 + max 1 (hfld (1 : Half) 15 8) * 100000000 ≤ max up.dtime 100000000 ∧ (key { cfg := 2, base := some 1000 }).io.keys[5].type = 2 ∧
    (key { cfg := 2, base := some 1000, run := 1 }).io.keys[5].due ≤ max up.dtime 2000 ∧
    800 * 1 < 1000 * (100 - 2 * max 1 (hfld (2 : Half) 7 4)) := by
  unfold poised Next Passes; decide

/-- R650: a count of 1 is neither 0 nor at full scale. -/
theorem witness_SafetyPorts_touch : 1 < Config.touchFull := by unfold Config.touchFull; omega

/-! ### Witnesses: the rest of the device -/

theorem witness_RecorderAndStorage :
    let x : Rec := { code := 1, port := 0, unit := 0, stamp := 5, epoch := 1, kind := false, calValid := false, data := [], mark := none, owes := false }
    let rec' (f : RecS → RecS) : State := { up with recorder := f up.recorder }
    let stor (f : StorS → StorS) : State := { up with stor := f up.stor }
    let rd := ask 0x60 0x400 [0xFF, 0xFF] 64
    let mk := ask 0x61 0x400 [] 0
    let z : Suppr := { code := 1, unit := 0, count := 1, first := 5 }
    let mk8 := ask 0x61 0x400 [] 8
    let unready := rec' fun r => { r with ready := false }
    let half := stor fun m => { m with bankUsed := true, s1Info := 24#32 }
    let wide := stor fun m => { m with s1Info := 24#32 }
    let busy := stor fun m => { m with s1Busy := true, s1Cmd := 0x40000100#32 }
    up.supplied = true ∧ x.owes = false ∧ (rec' fun r => { r with queue := [x] }).recorder.queue = [x] ∧ up.recorder.ready = true ∧
    (rec' fun r => { r with queue := [{ x with owes := true }], global := 0 }).recorder.globalLevel 2000 < 1000000000 ∧
    up.recorder.queue = [] ∧ up.recorder.draining = false ∧ (rec' fun r => { r with extended := true }).recorder.extended = true ∧
    (rec' fun r => { r with erasing := [3] }).recorder.erasing = [3] ∧ max up.dtime 2000 % 1000000000 ≠ 0 ∧
    max up.dtime 1000000000 % 1000000000 = 0 ∧ up.recorder.supprAt ≠ some (max up.dtime 1000000000 / 1000000000) ∧
    (rec' fun r => { r with supprs := [z] }).recorder.supprs = [z] ∧ up.recorder.lostSince = 0 ∧ up.recorder.queue.length < 255 ∧
    (rec' fun r => { r with lostSince := 3 }).recorder.lostSince ≠ 0 ∧ up.recorder.closed = false ∧ up.recorder.mediaErr ≠ 4 ∧
    poised (asks up rd) 0x60 rd (recReadExec true) ∧ poised (asks up mk) 0x61 mk (recMarkExec q0 (.arrived [])) ∧ poised (asks up mk8) 0x61 mk8 (recMarkExec q0 .failed) ∧ mk8.length ≠ 0 ∧
    poised (asks unready mk) 0x61 mk (recMarkExec q0 (.arrived [])) ∧ unready.recorder.ready = false ∧
    (up.at 2000).busUp 0 = true ∧ up.admin = 0 ∧ (up.admin : PortId) ≠ 1 ∧ up.stor.busy = false ∧ half.stor.busy = false ∧ wide.stor.busy = false ∧ wide.stor.bankUsed = false ∧ 0 % wide.stor.density % 4096 = 0 ∧ 1 % wide.stor.density % 256 ≠ 0 ∧ up.stor.bankUsed = false ∧ busy.stor.busy = true ∧
    fld busy.stor.s1Cmd 31 30 = 1 ∧ Cells.wf 0xFF#8 busy.stor.s1 = true ∧
    busy.stor.s1Busy = true ∧ half.stor.bankUsed = true ∧ decide (half.stor.density / 2 ≤ 0 % half.stor.density) = half.stor.bankB ∧
    (stor fun m => { m with s1Busy := true, s1Cmd := 0x80000100#32 }).stor.s1Cmd.getLsbD 31 = true ∧ up.stor.lbBusy = false ∧
    (stor fun m => { m with lbBusy := true }).stor.lbBusy = true := by
  unfold poised Next Passes; decide

theorem witness_HousekeepingAndSupply :
    let hk (f : HkS → HkS) : State := { up with hk := f up.hk }
    let sup (f : SupS → SupS) : State := { up with sup := f up.sup }
    let dev (f : DevS → DevS) : State := { up with dev := f up.dev }
    let bask := hk fun h => { h with basking := true, shut := true, shutAt := 0 }
    let fail : State := { up with dev := { up.dev with phase := .powerFail, warnAt := 1000 }, sup := { up.sup with pf := true } }
    let die (v : Int) : Int := if v < -550 ∨ 1750 < v then 1750 else v
    (up.at 2000).powered = true ∧ max up.dtime 2000 % 10000000 ≠ 0 ∧ max up.dtime 10000000 % 10000000 = 0 ∧
    up.dev.testing = false ∧ (round0 250).length = 64 ∧ (round0 1350).length = 64 ∧ 1350 ≤ die 1350 ∧ die 250 < 1100 ∧
    up.hk.shut = false ∧ bask.hk.basking = true ∧
    bask.hk.shutAt + max 10 (fld bask.hk.ctrl 23 16) * 1000000000 ≤ (max up.dtime 10000000000 : Nat) ∧
    ((max up.dtime 10000000 : Nat) : Int) < bask.hk.shutAt + max 10 (fld bask.hk.ctrl 23 16) * 1000000000 ∧ bask.hk.shut = true ∧
    max up.dtime 2000 < 1000 + 50000 ∧ 1000 + 50000 ≤ max up.dtime 51000 ∧
    up.supplied = true ∧ up.sup.pf = false ∧ up.dev.phase ≠ .shutdown ∧ (dev fun d => { d with phase := .shutdown }).dev.phase = .shutdown ∧
    (dev fun d => { d with phase := .shutdown }).supplied = true ∧ 899 < fld up.sup.cfg 15 0 ∧ 10999 < 11000 ∧
    1000 + 400000 ≤ max up.dtime 401000 ∧
    fail.supplied = true ∧ fail.sup.pf = true ∧ fail.dev.phase = .powerFail ∧ fail.dev.warnAt + 50000000 ≤ max up.dtime 50001000 ∧
    max up.dtime 50000999 < fail.dev.warnAt + 50000000 ∧ 0 < 570 ∧ 1000 + 2000 ≤ max up.dtime 3000 ∧ 570 ≤ 900 ∧ 900 ≤ 950 ∧
    up.sup.ctl = .running ∧ up.dev.phase = .ready ∧ (dev fun d => { d with phase := .starting }).dev.phase ≠ .ready ∧ up.sup.owed = [] ∧
    (sup fun x => { x with ctl := .held, heldAt := 1000 }).sup.heldAt + 1000000000 ≤ max up.dtime 1000001000 ∧
    max up.dtime 1000000999 < (sup fun x => { x with ctl := .held, heldAt := 1000 }).sup.heldAt + 1000000000 ∧
    (sup fun x => { x with ctl := .stopped }).sup.ctl = .stopped ∧ up.sup.ctl ≠ .stopped := by decide

theorem witness_StartAndShutdown :
    let dev (f : DevS → DevS) : State := { up with dev := f up.dev }
    let due (c : Nat) := dev fun d => { d with phase := .off, due := some c }
    let good : State := { due 1 with aon := { up.aon with selfTest := { up.aon.selfTest with result := 1 }, aonLost := false } }
    let latch (w : BitVec 6) : State := { up with
      dev := { up.dev with phase := .off }, sup := { up.sup with ctl := .offLatch, heldAt := 1000 }, aon := { up.aon with wake := w } }
    let dark : State := { dev (fun d => { d with phase := .starting }) with time := { up.time with refaOk := false, holdover := false } }
    let test (r : Bool) := dev fun d => { d with testing := true, restart := r }
    up.dev.due = none ∧ (due 1).dev.due = some 1 ∧ (due 1).dev.phase = .off ∧ (due 1).sup.ctl = .running ∧
    good.aon.selfTest.result = 1 ∧ good.aon.aonLost = false ∧ good.dev.due = some 1 ∧ ¬ (4 ≤ 2) ∧ (due 4).dev.due = some 4 ∧
    (dev fun d => { d with phase := .starting }).dev.phase = .starting ∧ up.time.refaOk = true ∧ up.dev.phase ≠ .starting ∧
    dark.time.refaOk = false ∧ dark.time.holdover = false ∧ up.supplied = true ∧ (test true).dev.testing = true ∧
    (test true).supplied = true ∧ (test true).dev.restart = true ∧ (test false).dev.restart = false ∧ up.dev.testing = false ∧
    (latch 0x20).dev.phase = .off ∧ (latch 0x20).aon.wake.getLsbD 5 = true ∧
    (latch 0x20).sup.ctl = .offLatch ∧ (latch 0x20).sup.heldAt + 20000000 ≤ max up.dtime 20001000 ∧
    max up.dtime 20000999 < (latch 0x20).sup.heldAt + 20000000 ∧ (latch 0).aon.wake.getLsbD 5 = false := by decide

theorem witness_StartAndShutdown_descriptors :
    let down (ps : List Nat) := ask 0x7E 0x700 ps 0
    let skip (k : Nat) : Desc := down [k, 1]
    let live := inState up .run
    let other : State := { up with dev := { up.dev with admin := 3 } }
    let cal := ask 0x7F 0x700 [1, 0, 0, 0, 0, 0, 0, 0, 0, 0, 0, 0, 0, 0, 0, 0] 0
    poised (asks up (down [])) 0x7E (down []) shutdownExec ∧ up.dev.phase = .ready ∧ Roomy (asks up (down [])) q0 ∧
    (Desc.skipTest (down []) || up.hk.basking || up.sup.pf) = false ∧ up.se.run = none ∧
    poised (asks up (skip 0)) 0x7E (skip 0) shutdownExec ∧ Desc.skipTest (skip 0) = true ∧ Desc.isRestart (skip 0) = false ∧
    poised (asks up (skip 1)) 0x7E (skip 1) shutdownExec ∧ Desc.skipTest (skip 1) = true ∧ Desc.isRestart (skip 1) = true ∧
    Next (asks live (down [])) 2000 q0 0x7E (held (down [])) ∧
    (((asks live (down [])).at 2000).take q0).checks1to4 0 (down []) = none ∧ Desc.force (down []) = false ∧
    live.chans[0].core.code ∈ [ChCode.armed, .run, .stopping, .brake, .discharge, .ident, .tripped, .safe] ∧
    (up.at 2000).busUp 0 = true ∧ Next (asks other cal) 2000 q0 0x7F (held cal) ∧ (asks other cal).admin ≠ q0.port ∧
    unitIs cal.unit = some .device ∧ poised (asks up cal) 0x7F cal calendarSetExec := by
  unfold poised Next Passes Roomy; decide

theorem witness_TestAndPerformance :
    let lb (n d : Nat) := onCore up fun c => { c with
      lb := some { target := n, depth := d, start := 0, made := 0, balls := 0, first := 0, home := 0, bad := 0 } }
    let gate : State := onCore carrier fun c => { c with lb := (ch0 (lb 2 0)).core.lb }
    let hd : Held := { opcode := 0x19, unit := 0, cid := 7, sqHead := 1, irqNow := false, deadline := some 5000000 }
    let w := onSq0 (lb 1 1) fun q => { q with held := some hd }
    let boot (n : Fin 4) : State := { up with dev := { up.dev with bootMode := n } }
    let waits (b : Bool) : State := { up with perf := { up.perf with winWait := b } }
    let codes : List (Nat × Nat) := (List.range 24).map fun k => ((64 + 128 * (k / 3)) * 16, (64 + 128 * (k / 3)) * 16)
    (up.at 2000).powered = true ∧ ((ch0 (lb 1 1)).core.lb.map (·.target)) = some 1 ∧ ((ch0 (lb 0 1)).core.lb.map (·.target)) = some 0 ∧
    (ch0 (lb 0 1)).adc.slot = none ∧ ((ch0 (lb 0 2)).core.lb.map (·.depth)) = some 2 ∧ codes.length = 24 ∧
    (List.replicate 8 (0#5 : BitVec 5)).length = 8 ∧ 0 + 640 * 8193 ≤ max up.dtime 5243520 ∧ (ch0 (lb 1 1)).posMode ≠ 3 ∧
    ((ch0 gate).core.lb.map (·.target)) = some 2 ∧
    4 * actPeriod (ch0 gate).pwm.period * sixteenth ≤ (gate.chanAt 1000000 0).ticksWithin up.time 0 (max up.dtime 1000000) ∧
    (w.sqAt q0).held = some hd ∧ hd.unit = (0 : ChanId).val ∧ hd.late = false ∧ max up.dtime 2000 ≤ 5000000 ∧
    (w.ports[0].cqs[(w.sqAt q0).cqId]).usable = true ∧ up.supplied = true ∧
    max up.dtime 2000 < up.perf.winEnd ∧ up.perf.winEnd ≤ max up.dtime 1000000000 ∧ (waits true).perf.winWait = true ∧
    (waits false).perf.winWait = false ∧ (up.at 2000).busUp 0 = true ∧
    up.admin = 0 ∧ (up.admin : PortId) ≠ 1 ∧ (up.ports[1].link == up.ports[1].link) = true ∧ fld 0x2710#32 15 0 = fld up.perf.ctrl 15 0 ∧
    fld 1#32 15 0 ≠ fld up.perf.ctrl 15 0 ∧ (0 : ChanId).val = fld up.ports[0].tagSel 6 0 ∧
    (onCh up fun c => { c with tag := { c.tag with words := c.tag.words.set 0 1 } }).chans[0].tag.words ≠ Vector.replicate 6 0#32 ∧
    (boot 2).dev.bootMode = 2 ∧ (boot 3).dev.bootMode ≠ 2 ∧ State.reset.supplied = false := by decide

theorem witness_StepRunsFront :
    let s : State := { up with pending := [.nop 2000 q0, .gap 3000] }
    s.pending = .nop 2000 q0 :: [.gap 3000] ∧ up.pending = [] := by decide

theorem witness_ResetAndPowerUp :
    let s : State := { up with dev := { up.dev with phase := .off, due := some 0 } }
    s.dev.due = some 0 ∧ s.dev.phase = .off ∧ s.sup.ctl = .running := by decide

theorem witness_ChannelIsolation :
    Instr.chan (.hopLocked 2000 127) = some 127 ∧ Instr.chan (.nleNop 2000 (.ch 5) noFault) = some 5 ∧
    Instr.chan (.nleNop 2000 .se noFault) = none ∧ (exec (.hopLocked 2000 127) up matches .next _) = true := by decide

theorem witness_InvariantKept :
    let s : State := { up with pending := [.gap 3000] }
    s.Inv ∧ (step s matches .next _) = true := by
  refine ⟨?_, by decide⟩
  constructor <;> decide

/-! ### Ill-formed commands -/

/-- Too long a buffer. -/
def longBuf : Buf := .arrived (List.replicate 65536 0)

theorem test_wf_buffer : (Buf.wf longBuf) = false ∧ Buf.wf (.arrived []) = true := by
  refine ⟨?_, by decide⟩
  show decide ((List.replicate 65536 (0 : Byte)).length < 65536) = false
  rw [List.length_replicate]
  decide

theorem test_wf_buffer_commands :
    ([Instr.nleLoad 0 q0 longBuf, .nlePsmWrite 0 q0 longBuf, .nleMailbox 0 q0 longBuf, .fpeFix 0 q0 longBuf, .fpeGeometry 0 q0 longBuf,
      .canSend 0 q0 longBuf, .pstSend 0 q0 longBuf, .recMark 0 q0 longBuf].any Instr.wf) = false := by
  show (Buf.wf longBuf || (Buf.wf longBuf || (Buf.wf longBuf || (Buf.wf longBuf || (Buf.wf longBuf || (Buf.wf longBuf ||
    (Buf.wf longBuf || (Buf.wf longBuf || false)))))))) = false
  rw [test_wf_buffer.1]
  rfl

theorem test_wf_descriptor :
    (ask 1 0 [] 0).wf = true ∧ (ask 256 0 [] 0).wf = false ∧ { ask 1 0 [] 0 with flags := 256 }.wf = false ∧
    (ask 1 65536 [] 0).wf = false ∧ { ask 1 0 [] 0 with epoch := 65536 }.wf = false ∧ (ask 1 0 [] 65536).wf = false ∧
    { ask 1 0 [] 0 with cid := 65536 }.wf = false ∧ { ask 1 0 [] 0 with waitLimit := 2 ^ 32 }.wf = false ∧
    { ask 1 0 [] 0 with bufAddr := 2 ^ 64 }.wf = false ∧ { ask 1 0 [] 0 with param := [] }.wf = false := by decide

/-- A descriptor's 64 bytes. -/
def entry0 : RingEntry := Vector.replicate 64 0

theorem test_wf_rings :
    (Instr.descriptorFetch 0 q0 (.arrived (List.replicate 8 entry0))).wf = true ∧
    (Instr.descriptorFetch 0 q0 (.arrived (List.replicate 9 entry0))).wf = false ∧ (Instr.descriptorFetch 0 q0 (.failed 32)).wf = false ∧
    (Instr.ringDisable 0 0 .eq 0 (.failed 32)).wf = false ∧ (Instr.sqTailDoorbell 0 0 0x10000 0).wf = false := by decide

theorem test_wf_ports_and_registers :
    (Instr.portUp 0 0 0 1).wf = false ∧ (Instr.portUp 0 0 5 1).wf = false ∧ (Instr.portUp 0 0 4 3).wf = false ∧
    (Instr.registerWrite 0 0 0x400000 ⟨0, (.arrived [])⟩).wf = false ∧ (Instr.registerWrite 0 0 2 ⟨0, (.arrived [])⟩).wf = false ∧
    (Instr.registerWrite 0 0 4 ⟨0, (.failed 32)⟩).wf = false ∧
    (Instr.narrowAccess 0 0 0x400000 1 none).wf = false ∧ (Instr.narrowAccess 0 0 0 4 none).wf = false ∧
    (Instr.narrowAccess 0 0 2 4 none).wf = true ∧ (Instr.narrowAccess 0 0 0 0 none).wf = false ∧
    (Instr.lowHalfRead 0 0 ⟨false, 0x400000⟩).wf = false ∧ (Instr.lowHalfRead 0 0 ⟨true, 0x10000⟩).wf = false ∧
    (Instr.lowHalfRead 0 0 ⟨false, 1⟩).wf = false := by decide

theorem test_wf_events :
    (Instr.refaLost 0 2).wf = false ∧ (Instr.refaRestored 0 9999).wf = false ∧ (Instr.refaRestored 0 50001).wf = false ∧
    (Instr.identDone 0 0 (.completed [])).wf = false ∧ (Instr.identDone 0 0 (.steady [])).wf = false ∧
    (Instr.lbTestDone 0 0 (.analog [] [] false)).wf = false ∧ (Instr.tileFetchDone 0 4096 0 (.entry 0 0)).wf = false ∧
    (Instr.writeBackDue 0 0 4096 0).wf = false ∧ (Instr.powerFail ⟨0, 0⟩ 2 0 0).wf = false ∧ (Instr.railReset ⟨0, 0⟩ ⟨0, 0⟩).wf = false ∧
    (Instr.railReset ⟨0, 0⟩ ⟨6, 0⟩).wf = false ∧ (Instr.supFault 0 2).wf = false ∧
    (Instr.hkRound 0 { samples := [], above := 0 }).wf = false ∧
    (Instr.hkRound 0 { samples := List.replicate 64 (4096, 0), above := 0 }).wf = false := by decide

theorem test_wf_can_frame :
    frame0.wf = true ∧ { frame0 with id := 0x800 }.wf = false ∧ { frame0 with id := 0x800, ide := true }.wf = true ∧
    { frame0 with rtr := true, fdf := true }.wf = false ∧ { frame0 with brs := true }.wf = false ∧
    { frame0 with esi := true }.wf = false ∧ { frame0 with dlc := 9, fdf := true, data := List.replicate 12 0 }.wf = true ∧
    { frame0 with dlc := 9, data := List.replicate 12 0 }.wf = false ∧
    (Instr.canFrameReceived 0 0 0 { frame0 with id := 0x800 } none).wf = false ∧
    (Instr.canError 0 0 { kind := 0, data := false, sender := false, exempt := false, extra := 0, tdc := none }).wf = false ∧
    (Instr.canError 0 0 { kind := 7, data := false, sender := false, exempt := false, extra := 0, tdc := none }).wf = false := by decide

theorem test_wf_start :
    (Instr.start 0 board).wf = true ∧ (Instr.start 0 { board with s0 := { medium0 with err := 4 } }).wf = false ∧
    (Instr.start 0 { board with s1 := { medium0 with log2 := 32 } }).wf = false ∧
    (Instr.start 0 { board with s1 := { medium0 with mode := 8 } }).wf = false ∧
    (Instr.start 0 { board with s0 := { medium0 with clock := 201 } }).wf = false := by decide

/-! ### The spec's worked examples and values worked out by hand -/

/-- R110 NOP, and R113 check 4 with a LENGTH. -/
theorem test_nop :
    ran (.nop 2000 q0) (asks up (ask 0x01 0 [] 0)) (fun s => answers s == [(0, 7, 0, 0, 0)]) = true ∧
    ran (.nop 2000 q0) (asks up (ask 0x01 0 [] 4)) (fun s => answers s == [(0, 7, 4, 0, 0)]) = true := by decide

/-- The role change after R89: the first BIND gives epoch 15, the CH_ARM of epoch 14 then is STALE with DETAIL 15. -/
theorem test_role_change :
    let u (e : Nat) : State := { up with units := up.units.set 37 { owner := some 0, epoch := e } }
    let b : Desc := { ask 0x02 37 [1, 3] 0 with epoch := 14 }
    ran (.bind 2000 q0) (asks (u 14) b) (fun s => answers s == [(0, 7, 0, 0, 15)] && s.units[37] == { owner := some 1, epoch := 15, role := 3 }) = true ∧
    ran (.bind 2000 q0) (asks (u 15) b) (fun s => answers s == [(0, 7, 1, 15, 0)] && s.units[37].epoch == 15) = true ∧
    ran (.chArm 2000 q0) (asks (u 15) { b with opcode := 0x10 }) (fun s => answers s == [(0, 7, 1, 15, 0)]) = true ∧
    ran (.bind 2000 q0) (asks (u 65535) { b with epoch := 65535 }) (fun s => s.units[37].epoch == 1) = true := by decide

/-- The oversized load after R110: LEN_RANGE with the greatest LENGTH, 4,096, and nothing loaded. -/
theorem test_oversized_load :
    ran (.nleLoad 2000 q0 .failed) (asks up (ask 0x20 0 [] 4100)) (fun s =>
      answers s == [(0, 7, 4, 4096, 0)] && s.chans[0].nle.store.isEmpty) = true := by decide

/-- R14, R15: a low-half read of DTIME latches the high half; R18: a narrow read returns 0. -/
theorem test_register_reads :
    ran (.lowHalfRead 0x100000002 0 ⟨false, 0x054010⟩) up (fun s =>
      s.lastRead == 2 && Cells.get 0 s.ports[0].latches 0x054010 == 1#32) = true ∧
    ran (.narrowAccess 2000 0 0x054010 2 none) { up with lastRead := 5 } (fun s => s.lastRead == 0) = true := by decide

/-- The check values of CRC-32C and CRC-16/CCITT-FALSE. -/
theorem test_crc :
    let x : List Byte := [0x31, 0x32, 0x33, 0x34, 0x35, 0x36, 0x37, 0x38, 0x39]
    crc32c x = 0xE3069283 ∧ ccitt x = 0x29B1 := by decide

/-- The example of R210 to R214: the six compares in DROP and STRETCH. -/
theorem test_leg_plans :
    let g (st : Bool) : PlanCfg := { period := 320000, length := 320000, dtH := 3200, dtL := 3200, minpw := 1920, stretch := st, win := 16 }
    let p (st : Bool) (c : Nat) := (g st).plain true false (16 * c)
    let idle : LegPlan := { high := none, low := [(0, none)] }
    let on : LegPlan := { high := some (3200, none), low := [] }
    p false 150 = idle ∧ p true 150 = idle ∧ p false 200 = idle ∧ p true 200 = idle ∧ p false 280 = idle ∧
    p true 280 = { high := some (3200, some 5120), low := [(8320, none)] } ∧
    p false 320 = { high := some (3200, some 5120), low := [(8320, none)] } ∧ p true 320 = p false 320 ∧
    p false 19750 = on ∧ p true 19750 = { high := some (3200, some 314880), low := [(318080, none)] } ∧
    p false 19800 = on ∧ p true 19800 = on ∧
    (g false).plain true false 0x1B585 = { high := some (3200, some 0x1B585), low := [(0x1B585 + 3200, none)] } := by decide

/-- The example of R202: at 40 kHz with UPD = BOTH, a set at count 4,990 is due at MID and one at 4,995 at the next BOUNDARY. -/
theorem test_commit_window :
    let s := onCh (exe (engWord 0x19 0 0 0) regs0) fun c => { c with
      core := { c.core with code := .run, onPll := true }, fcu := { c.fcu with startDone := true }
      tb := { c.tb with state := .locked }
      pwm := { c.pwm with count0 := some 0, period := 160000, updIn := 2 } }
    ran (.dset 12475 (.ch 0) noFault) s (fun s => s.chans[0].pwm.duty.now.isSome && s.chans[0].pwm.lateCnt == 0) = true ∧
    ran (.dset 12488 (.ch 0) noFault) s (fun s =>
      s.chans[0].pwm.duty.now.isNone && s.chans[0].pwm.duty.next.isSome && s.chans[0].pwm.lateCnt == 1) = true := by decide

/-- The over-current example of R271: code 6,560 is 26,240 in Q15. -/
theorem test_capture_scale :
    let s := onAdc up fun a => { a with capA := some { cmp := 0, crossing := 1460, sample := some 1660, trim := {} } }
    ran (.captureDelivery 2000 0 .a 2701172) s (fun s => Cells.get 0 s.chans[0].nle.inp 0x230 == 26240#16) = true := by decide

/-- The index example of R308: acquisition; one count lost; 9 counts of noise, once and for the third time. -/
theorem test_index :
    let s (count rev err : Nat) (acq : Bool) := onPos up fun p => { p with
      cfg := 0x84340000#32 ||| 0x6428#32, count := count, rev := BitVec.ofNat 32 rev, dirKnown := true, acquire := acq, still := false
      errRun := err, referenced := !acq }
    let edge := Instr.indexEdge 100000 32000 0 true
    ran edge (s 1377 0 0 true) (fun s => let p := s.chans[0].pos; p.count == 0 && p.referenced && p.rev == 0) = true ∧
    ran edge (s 0 1 0 false) (fun s => let p := s.chans[0].pos; p.count == 0 && p.rev == 1 && p.slip == 0) = true ∧
    ran edge (s 4095 1 0 false) (fun s => let p := s.chans[0].pos; p.count == 0 && p.rev == 2 && p.slip == -1) = true ∧
    ran edge (s 9 3 0 false) (fun s => let p := s.chans[0].pos; p.count == 9 && p.errRun == 1 && !p.flt) = true ∧
    ran edge (s 9 5 2 false) (fun s => let p := s.chans[0].pos; p.count == 9 && p.errRun == 3 && p.flt) = true := by decide

/-- The seed meter of R311 to R316: steps 1, 2, 4, 6 and 7; 24 counts per revolution, states in the order of R295. -/
theorem test_hall_speed :
    let s (pins : BitVec 3) (sector count n : Nat) (edge : Nat) (down still known : Bool) (v : Int) := onPos up fun p => { p with
      cfg := 0xC4346428#32, cpr := 24, pins := pins, sector := some sector, count := count, n := n, edge := edge * 16000000
      down := down, still := still, dirKnown := known, speed := v }
    let pos (t : Nat) (a b c : Bool) (s : State) (f : PosS → Bool) := ran (.positionEdge (t * 100000 + 50000) (t * 1600000) 0 a b c) s (fun s => f s.chans[0].pos)
    pos 100 true true false (s (pinsOf true false false) 0 0 0 0 false true false 0)
      (fun p => p.count == 1 && p.speed == 0 && p.uncertain && !p.down) = true ∧
    pos 140 false true false (s (pinsOf true true false) 1 1 1 10 false false true 0)
      (fun p => p.count == 2 && p.speed == 4000 && !p.uncertain) = true ∧
    pos 165 false true true (s (pinsOf false true false) 2 2 2 14 false false true 4000)
      (fun p => p.count == 3 && p.speed == 6400) = true ∧
    pos 240 false true false (s (pinsOf false true true) 3 3 3 16 false false true 3200)
      (fun p => p.count == 2 && p.speed == 0 && p.uncertain && p.down) = true ∧
    pos 300 true true false (s (pinsOf false true false) 2 2 1 24 true false true 0)
      (fun p => p.count == 1 && p.speed == -2667 && p.down) = true := by decide

/-- The example of R396: A = 11,897.25 ns at 40 kHz with 2 % of spread and SOFS 40. -/
theorem test_budgets :
    let c (b : Nat) : Chan := { up.chans[0] with
      tb := { up.chans[0].tb with profile := 0xA8640A64#32 }
      nle := { up.chans[0].nle with entries := #v[some 0, some 1, some 2, some 3], budgets := #v[1460, 320, 610, b] } }
    (c 940).budgetFits 25000 0x1000000#26 160000 2 40 = true ∧ (c 10437).budgetFits 25000 0x1000000#26 160000 2 40 = true ∧
    (c 10438).budgetFits 25000 0x1000000#26 160000 2 40 = false := by decide

/-- The d-q current loop after R434: its words from the formats of R416. -/
theorem test_program_words :
    wordM 0x10 0 0 0 0x212 = 0x40000212#32 ∧ wordM 0x10 15 0 0 0x017 = 0x41E00017#32 ∧ wordR 0x20 4 2 0 0 false 0 1 = 0x80820001#32 ∧
    wordR 0x20 5 3 1 0 false 0 1 = 0x80A30801#32 ∧ wordR 0x33 6 4 8 0 true 9 0 = 0xCCC44190#32 ∧
    wordR 0x33 7 5 12 1 true 9 0 = 0xCCE56390#32 ∧ wordM 0x11 6 0 0 0x280 = 0x44C00280#32 ∧ engWord 0x19 0 0 0 = 0x64000000#32 ∧
    engWord 0x02 0 0 0 = 0x08000000#32 := by decide

/-- The registers of channel 0 after the instruction `x` from registers `r`. -/
def after (i : Nat → Eng → EngFault → Instr) (x : Word) (r : RegsS) (p : RegsS → Bool) : Bool :=
  ran (i 2000 (.ch 0) noFault) (exe x r) fun s => p s.chans[0].nle.regs

/-- The PI step worked out after R427. -/
theorem test_pi :
    let r : RegsS := { d := ((((((Vector.replicate 32 0).set 4 2000).set 8 19661).set 9 655).set 10 (BitVec.ofInt 16 (-20000))).set 11 20000)
                       acc := #v[268435456, 0, 0, 0] }
    after .pi 0xCCC44190#32 r (fun r => r.bits 6 == 6536 && r.accAt 0 == 271055456 && r.pc == 1) = true := by decide

/-- R421 to R424: sums and products at their limits, in Q15. -/
theorem test_arithmetic :
    let r : RegsS := { d := ((((Vector.replicate 32 0).set 1 0x8000).set 2 0x7FFF).set 3 0x4000).set 4 0xFFFF, acc := #v[0x7FFFFFFFFF, 1, 0, 0] }
    after .alu (wordR 0x20 0 2 4 0 false 0 0) r (fun r => r.bits 0 == 0x7FFE) = true ∧
    after .alu (wordR 0x20 0 2 2 0 false 0 0) r (fun r => r.bits 0 == 0x7FFF) = true ∧
    after .alu (wordR 0x20 0 1 2 0 false 0 1) r (fun r => r.bits 0 == 0x8000) = true ∧
    after .alu (wordR 0x20 0 1 0 0 false 0 8) r (fun r => r.bits 0 == 0x7FFF) = true ∧
    after .alu (wordR 0x20 0 1 4 0 false 0 6) r (fun r => r.bits 0 == 0x7FFF) = true ∧
    after .mul (wordR 0x26 0 3 3 0 false 0 0) r (fun r => r.bits 0 == 0x2000) = true ∧
    after .mul (wordR 0x26 0 1 1 0 false 0 0) r (fun r => r.bits 0 == 0x7FFF) = true ∧
    after .shift (wordR 0x25 0 3 0 0 false 1 0) r (fun r => r.bits 0 == 0x7FFF) = true ∧
    after .shift (wordR 0x25 0 4 0 0 false 1 1) r (fun r => r.bits 0 == 0xFFFF) = true ∧
    after .shift (wordR 0x25 0 4 0 0 true 1 1) r (fun r => r.bits 0 == 0xFFFF) = true ∧
    after .shift (wordR 0x25 0 4 0 0 false 1 3) r (fun r => r.bits 0 == 0x7FFF) = true ∧
    after .addi (engWord 0x21 0 4 0xFFFF) r (fun r => r.bits 0 == 0xFFFE) = true ∧
    after .muli (engWord 0x27 0 3 0x4000) r (fun r => r.bits 0 == 0x2000) = true ∧
    after .mac (wordR 0x30 0 3 3 1 false 0 0) r (fun r => r.accAt 1 == 536870912) = true ∧
    after .mac (wordR 0x30 0 3 3 0 false 0 1) r (fun r => r.accAt 0 == 549755813887) = true ∧
    after .racc (wordR 0x32 0 0 0 0 false 0 0) r (fun r => r.bits 0 == 0x7FFF) = true := by decide

/-- R420, R425: branches and calls; R331: sin and cos of a quarter turn. -/
theorem test_control_and_angles :
    after .jal (engWord 0x04 5 0 100) regs0 (fun r => r.bits 5 == 1023 && r.pc == 100) = true ∧
    after .blt (engWord 0x08 1 0 5) regs0 (fun r => r.pc == 5) = true ∧ after .bge (engWord 0x09 1 0 5) regs0 (fun r => r.pc == 1023) = true ∧
    after .loop (engWord 0x0B 0 0 5) regs0 (fun r => r.ix[0] == 0 && r.pc == 1023) = true ∧
    after .loop (engWord 0x0B 2 0 5) regs0 (fun r => r.ix[2] == 1023 && r.pc == 5) = true ∧
    after .bbs (engWord 0x0C 0 2 5) regs0 (fun r => r.pc == 5) = true ∧
    after .sincos (engWord 0x1A 6 7 0) { regs0 with d := regs0.d.set 7 0x4000 } (fun r => r.bits 6 == 0x7FFF && r.bits 7 == 0) = true := by
  decide

/-- The retry example of R448 to R451: the fourth trip within the window, of 3 permitted, locks. -/
theorem test_retry_limit :
    let s (stamps : List Nat) := onProt (inState up .run) fun p => { p with
      retry := (p.retry &&& 0xFFFC3FFF#32) ||| 0xC000#32, stamps := stamps, n := stamps.length
      trip := p.trip.set 0 { raw := true, since := 6000000000, qual := false } }
    ran (.tripQualified 6000000100 0 .fltn) (s [4000000000, 2000000000]) (fun s => s.chans[0].core.code == .tripped) = true ∧
    ran (.tripQualified 6000000100 0 .fltn) (s [4000000000, 2000000000, 0]) (fun s =>
      s.chans[0].core.code == .locked && s.chans[0].core.cause == 0x31) = true := by decide

/-- The tight curve of R492: FPE_SPEED of rows 0, 7, 8 and 15 at YAW 869, and of row 15 at YAW 5,000. -/
theorem test_row_speed :
    let v (yaw y : Int) : Int := ({ trailed := false, hx := -1500, hy := 0 } : Impl).motion (2500 * 65536) (yaw * 65536) 0 0 |>.speed (-1000) y
    v 869 (-5700) = 2982 ∧ v 869 (-380) = 2540 ∧ v 869 380 = 2477 ∧ v 869 5700 = 2036 ∧ v 5000 5700 = -1221 := by decide

/-- The cell of R522's example: tile (2, 3), byte 452 and bit 6 of the coverage plane. -/
theorem test_raster_cell :
    let r : RasterS := { dirDim := 0x003E0004#32 }
    r.cellOf 70500 100096 = (550, 782) ∧ r.tileOf 550 782 = some (2, 3) ∧
    (lineBit 38 14).1.val * 2048 + (lineBit 38 14).2 = 452 * 8 + 6 := by decide

/-- The example of R570 to R572: the sixteenth ACK error makes the controller error-passive and LONELY; the success after it
gives TEC 127. -/
theorem test_can_lonely :
    let x : CanTx := { frame := frame0, waiter := none, abort := false, attempts := 16, sof := 900 }
    let s (st : CanCode) (tec ack : Nat) := onCan0 fun c => { c with
      state := st, mode := 1, tec := tec, ackRun := ack, onBus := some 5, objs := c.objs.set 5 { cfg := 2, pend := some x } }
    let ackErr : CanErr := { kind := 3, data := false, sender := true, exempt := false, extra := 0, tdc := none }
    ran (.canError 2000 0 ackErr) (s .errorActive 112 14) (fun s =>
      s.can[0].tec == 120 && s.can[0].state == .errorActive && !s.can[0].lonely) = true ∧
    ran (.canError 2000 0 ackErr) (s .errorActive 120 15) (fun s =>
      s.can[0].tec == 128 && s.can[0].state == .errorPassive && s.can[0].lonely) = true ∧
    ran (.canTxDone 2000 0 none none) (s .errorPassive 128 100) (fun s =>
      s.can[0].tec == 127 && s.can[0].state == .errorActive && !s.can[0].lonely) = true := by decide

/-- The hopper lid of R626 to R634: steps 2, 3, 4, 5, 7 and 8. -/
theorem test_hopper_lid :
    let lid (x : SiS) : State := { onIo fun i => { i with configured := true, tpW := 50, si := i.si.set 3 x } with se := { up.se with state := .run, img := { cycleUs := 1000 } } }
    let base : SiS := { cfg := 0x32A1, a := true, b := true, seenA := true, seenB := true, startup := true }
    let at' (i : Instr) (x : SiS) (p : SiS → Bool) := ran i (lid x) fun s => p s.io.si[3]
    at' (.siLevelQualified ⟨5001500000, 5000400000⟩ 3 false false) base (fun x => !x.safe && x.disc == some 5501500000) = true ∧
    at' (.siLevelQualified ⟨5004500000, 5003400000⟩ 3 true false) { base with a := false, disc := some 5501500000, inTime := true }
      (fun x => !x.safe && x.disc == none) = true ∧
    at' (.siLevelQualified ⟨8001500000, 8000400000⟩ 3 false true) { base with a := false, b := false, sawUnsafe := true, startUnsafe := true }
      (fun x => !x.safe && x.disc == some 8501500000) = true ∧
    at' (.siLevelQualified ⟨8003500000, 8002400000⟩ 3 true true) { base with b := false, disc := some 8501500000, sawUnsafe := true, startUnsafe := true }
      (fun x => x.safe && !x.startup && x.disc == none) = true ∧
    at' (.discTimeout 20501500250 3) { base with a := false, startup := false, disc := some 20501500000 } (fun x => x.discFault && x.disc == none) = true ∧
    at' (.siLevelQualified ⟨25001500000, 25000400000⟩ 3 false true) { base with a := false, startup := false, discFault := true } (fun x => !x.safe && x.discFault) = true := by
  decide

/-- The safety frame after R62: WD 20 ms from a frame stamped 5,000,000,000; the deadline passes 250 ns after it. -/
theorem test_pst_deadline :
    let p : PstS := { cfg := #v[5, 0, 20, 0, 0x0012, 0, 0, 0], state := .ok, count := 1, seq := 1, stamp := 90 }
    let s (p : PstS) := { onIo fun i => { i with pst := i.pst.set 15 p } with se := { up.se with state := .run } }
    let d := ask 0x50 0x300 [15] 12
    let x := onSq0 (s p) fun q => { q with fetched := [{ held d with stamp := 5000000000 }] }
    ran (.pstSend 5000000100 q0 (.arrived (pst0 5 2))) x (fun s => s.io.pst[15].deadline == some 5020000000 && s.io.pst[15].seq == 2) = true ∧
    ran (.pstWatchdogTimeout 5020000250 15) (s { p with deadline := some 5020000000 }) (fun s =>
      s.io.pst[15].state == .resync && s.io.pst[15].timeout) = true := by decide +kernel

/-- The fan of R681 to R687: the shutdown, and the first round after BASK_T with every die below 110 °C. -/
theorem test_basking :
    let run := inState up .run
    let bask (t : Nat) : State := { up with hk := { up.hk with basking := true, shut := true, shutAt := t } }
    ran (.dieShutdown ⟨60000, 2000⟩ 9 1351) run (fun s =>
      s.hk.shut && s.hk.basking && s.chans[0].core.code == .tripped && s.chans[0].core.cause == 0x60 && s.aon.shutCnt == 1) = true ∧
    ran (.hkRound 10000000000 { samples := round0 1099, above := 0 }) (bask 0) (fun s => !s.hk.basking) = true ∧
    ran (.hkRound 10000000000 { samples := round0 1100, above := 0 }) (bask 0) (fun s => s.hk.basking) = true ∧
    ran (.hkRound 9990000000 { samples := round0 1099, above := 0 }) (bask 0) (fun s => s.hk.basking) = true := by decide +kernel

/-- The end of a field day after R717: RESULT 440, and the verdict PASS leaves the device in the off latch. -/
theorem test_shutdown :
    let d := ask 0x7E 0x700 [0, 0] 0
    let t : State := { up with dev := { up.dev with phase := .shutdown, testing := true } }
    ran (.shutdown 2000 q0) (asks up d) (fun s => answers s == [(0, 7, 0, 0, 440)] && s.aon.selfTest.result == 3) = true ∧
    ran (.selftestEnd 460000000 { clFail := 0, sharedFail := 0, portFail := 0, ms := 440 }) t (fun s =>
      s.aon.selfTest.result == 1 && s.sup.ctl == .offLatch) = true := by decide +kernel

/-- R705, R706: a start takes the administrator from the straps, resets DTIME and leaves the units unbound; R711 READY. -/
theorem test_start :
    let s : State := { up with dev := { up.dev with phase := .off, due := some 0 } }
    ran (.start 5000 board) s (fun s => s.dtime == 0 && s.admin == 2 && s.units[0].owner == none && s.dev.phase == .starting) = true ∧
    ran (.startReady 5000 57) { up with dev := { up.dev with phase := .starting } } (fun s =>
      s.dev.phase == .ready && s.dev.tReady == 57) = true := by decide

/-- R661, R662: the slot after the last is 0 and flips the lap; the recorder counts what it wrote. -/
theorem test_recorder_wrap :
    let x : Rec := { code := 1, port := 0, unit := 0, stamp := 5, epoch := 1, kind := false, calValid := false, data := [], mark := none, owes := false }
    let s : State := { up with recorder := { up.recorder with queue := [x], next := 65535, lap := 1 } }
    ran (.recordWrite 2000 true) s (fun s => s.recorder.next == 0 && s.recorder.lap == 2 && s.recorder.written == 1) = true := by decide

/-- R41 to R43: an edge one second after the last is accepted; the fourth sets PPS_LOCK; one half a second after is rejected. -/
theorem test_pps :
    let s (run : Nat) : State := { up with time := { up.time with ppsLast := some 5000, ppsRun := run } }
    ran (.refbEdge 1000005000 true) (s 3) (fun s => s.time.ppsLock && s.time.ppsRun == 4 && s.time.ppsStamp == 1000005000) = true ∧
    ran (.refbEdge 500005000 true) (s 3) (fun s => !s.time.ppsLock && s.time.ppsReject == 1) = true := by decide

/-- R48: CALENDAR_SET to 7 days at the reference now. -/
theorem test_calendar :
    let d := ask 0x7F 0x700 [0, 0, 0x29, 0xF9, 0x0F, 0x26, 0x02, 0] 0
    ran (.calendarSet 2000 q0) (asks up d) (fun s => s.time.calOffset == 604800000000000 - 2000 && s.aon.calValid) = true := by decide

/-- R9: the block of channel 37 stands at 0x12_5000; its owner's write reaches CH_CONFIG, another port's does not. -/
theorem test_channel_block :
    let s : State := { up with units := up.units.set 37 { owner := some 0 } }
    let o : State := { up with units := up.units.set 37 { owner := some 1 } }
    ran (.registerWrite 2000 0 0x125014 ⟨0x05000200#32, (.arrived [])⟩) s (fun s => s.chans[37].core.motorLs == 0x05000200#32) = true ∧
    ran (.registerWrite 2000 0 0x125014 ⟨0x05000200#32, (.arrived [])⟩) o (fun s => s.chans[37].core.motorLs == 0 && s.ports[0].nonownerWr == 1) = true := by
  decide

/-- R145, R146: 40 V at a duty of 0.1 drive 10 A through 1.5 phases: 0.2667 Ω. R135, R147: 1.31 Ω against 1.2 Ω within 25 % is
READY, and 2.4 Ω is WRONG_MOTOR. -/
theorem test_identification :
    let run (rs : Nat) : IdentRun := { start := 900, rs := 0x19002EE0#32, ls := 0, iFs := 50000, vFs := 8000, rsMeas := some rs }
    let s (rs : Nat) := onCore (inState up .ident) fun c => { c with ident := some (run rs) }
    let pulses := List.replicate 16 (1500000, (ch0 up).core.identTp, 1799927)
    ran (.identDone 31000900 0 (.steady [(1500000, 6554, 1799927)])) (s 0) (fun s =>
      (s.chans[0].core.ident.map (·.rsMeas)) == some (some 2667)) = true ∧
    ran (.identDone 73000900 0 (.completed pulses)) (s 13100) (fun s =>
      s.chans[0].core.code == .ready && fld s.chans[0].core.identRs 19 0 == 13100) = true ∧
    ran (.identDone 73000900 0 (.completed pulses)) (s 24000) (fun s =>
      s.chans[0].core.code == .wrongMotor && bitOf s.chans[0].core.identRs 23) = true := by decide

/-- R124: a port that goes down leaves its rings disabled, and the unit table stands. -/
theorem test_port_down :
    ran (.portDown 2000 0 .link) up (fun s =>
      !s.ports[0].sqs[0].enabled && s.ports[0].link == .down && s.units[0].owner == some 0) = true := by decide +kernel

/-- R744: IDCODE is selected at any time, EXTEST only in BOOT_MODE 2. -/
theorem test_jtag :
    ran .idcode up (fun s => s.jtag.ir == .idcode) = true ∧ ran .extest up (fun s => s.jtag.ir == .bypass) = true ∧
    ran .extest { up with dev := { up.dev with bootMode := 2 } } (fun s => s.jtag.ir == .extest) = true := by decide

end Sys2Proof.Tests
end

section
/-! What the owner's write of a channel register keeps: the view that the channel has of the device (`ChR.env`). The
register writes reach the position unit, protection and the transitions; none of these moves the view. -/
namespace Sys2Proof.Machine

/-! ### Time base and PWM -/

@[simp] theorem ChR.retick_env (r : ChR) : r.retick.env = r.env := rfl
@[simp] theorem ChR.requestRealign_env (r : ChR) : r.requestRealign.env = r.env := by
  simp only [ChR.requestRealign]; split <;> rfl
@[simp] theorem ChR.requestBand_env (r : ChR) (e : Fin 8) (b : Bool) : (r.requestBand e b).env = r.env := by
  simp only [ChR.requestBand]; split <;> rfl
@[simp] theorem ChR.requestPeriod_env (r : ChR) (p : Nat) (b : Bool) : (r.requestPeriod p b).env = r.env := by
  simp only [ChR.requestPeriod]; split <;> rfl
@[simp] theorem ChR.setProfile_env (r : ChR) (w : Word) : (r.setProfile w).env = r.env := rfl

/-! ### Qualifications and trips (R439 to R449) -/

@[simp] theorem ChR.protTrip_env (r : ChR) (a b c d : Nat) (x : ChCode) : (r.protTrip a b c d x).env = r.env := rfl

@[simp] theorem ChR.trip_env (r : ChR) (q : Qual) (qs : List Qual) : (r.trip q qs).env = r.env := by
  simp only [ChR.trip]
  split
  · split
    · simp only [ChR.protTrip_env]; split <;> rfl
    · simp
  · simp

@[simp] theorem ChR.joinTrip_env (r : ChR) (q : Qual) (qs : List Qual) : (r.joinTrip q qs).env = r.env := by
  simp only [ChR.joinTrip]; split <;> simp [ChR.when_view ChR.env]

@[simp] theorem ChR.qualify_env (r : ChR) (q : Qual) (qs : List Qual) : (r.qualify q qs).env = r.env := by
  simp only [ChR.qualify]
  split
  · simp
  split
  · simp
  split
  · simp
  · rw [foldl_keeps ChR.env _ (fun r x => ChR.emit_env r _)]; split <;> rfl

@[simp] theorem ChR.qualifyPos_env (r : ChR) (a b c : Nat) : (r.qualifyPos a b c).env = r.env := by
  simp [ChR.qualifyPos]

/-- R140 a qualified unplug. -/
@[simp] theorem ChR.unplug_env (r : ChR) (t : Nat) : (r.unplug t).env = r.env := by
  simp only [ChR.unplug]; split <;> simp

/-! ### Position: changes of the pins, the pattern of the loop-back test, the sample instant (R295 to R320) -/

@[simp] theorem ChR.startEnds_env (r : ChR) (b : Bool) : (r.startEnds b).env = r.env := by
  simp only [ChR.startEnds]
  split
  · rfl
  split
  · rfl
  · simp [ChR.when_view ChR.env, ChR.srcChange]

@[simp] theorem ChR.quadChange_env (r : ChR) (t a b : Nat) : (r.quadChange t a b).env = r.env := by
  simp only [ChR.quadChange, ChR.posLimited]; repeat' split
  all_goals rfl

@[simp] theorem ChR.hallChange_env (r : ChR) (t a b : Nat) : (r.hallChange t a b).env = r.env := by
  simp only [ChR.hallChange, ChR.posLimited]
  split
  · split <;> rfl
  split
  · rfl
  · repeat' split
    all_goals rfl

@[simp] theorem ChR.indexEvent_env (r : ChR) (t : Nat) : (r.indexEvent t).env = r.env := by
  simp only [ChR.indexEvent]; repeat' split
  all_goals simp

@[simp] theorem ChR.zChange_env (r : ChR) (t : Nat) (b : Bool) : (r.zChange t b).env = r.env := by
  simp only [ChR.zChange]; split <;> simp

@[simp] theorem ChR.pinsTo_env (r : ChR) (t : Nat) (x : BitVec 3) : (r.pinsTo t x).env = r.env := by
  simp only [ChR.pinsTo]
  split
  · rfl
  all_goals split <;> simp

@[simp] theorem ChR.patternStep_env (r : ChR) : r.patternStep.env = r.env := by
  simp only [ChR.patternStep]
  split
  · simp only [ChR.core_env]; split <;> simp
  · rfl

@[simp] theorem ChR.patternSteps_env (r : ChR) (k : Nat) : (r.patternSteps k).env = r.env := by
  induction k generalizing r with
  | zero => rfl
  | succ k ih => rw [ChR.patternSteps, ih, ChR.patternStep_env]

@[simp] theorem ChR.pattern_env (r : ChR) (t : Nat) : (r.pattern t).env = r.env := by
  simp only [ChR.pattern]
  split
  · split <;> simp
  · rfl

@[simp] theorem ChR.hallSample_env (r : ChR) (t : Nat) : (r.hallSample t).env = r.env := by
  simp only [ChR.hallSample]; repeat' split
  all_goals simp

@[simp] theorem ChR.takeSample_env (r : ChR) : r.takeSample.env = r.env := by
  simp only [ChR.takeSample]
  split
  · split <;> simp
  · rfl

@[simp] theorem ChR.sampleFirst_env (r : ChR) : r.sampleFirst.env = r.env := by
  simp [ChR.sampleFirst, ChR.when_view ChR.env]

@[simp] theorem ChR.lanesFirst_env (r : ChR) : r.lanesFirst.env = r.env := by
  simp only [ChR.lanesFirst]
  split
  · split <;> rfl
  · rfl

@[simp] theorem State.chanIn_env (s : State) (n : ChanId) : (s.chanIn n).env = s.chEnv n := ChR.lanesFirst_env _

/-! ### The register block (R150) -/

/-- R18 a register with RWL fields keeps the view if taking the new value does. -/
@[simp] theorem ChR.setReg_env (r : ChR) (old v rw rwl : Word) (f : Word → ChOp) :
    (r.setReg old v rw rwl f).env =
      (f (merge old v (if r.c.rwlOpen then rw ||| rwl else rw)) (r.countDrop ((old ^^^ v) &&& rwl ≠ 0))).env := rfl

/-- R18 a register of RWL fields keeps the view if taking the new value does. -/
@[simp] theorem ChR.setRwl_env (r : ChR) (old v m : Word) (f : Word → ChOp) :
    (r.setRwl old v m f).env = if r.c.rwlOpen then (f (merge old v m) r).env else r.env := by
  simp only [ChR.setRwl]; split <;> simp

@[simp] theorem ChR.settleFrom_env (r : ChR) (ks : List (Fin 5)) : (r.settleFrom ks).env = r.env := rfl

@[simp] theorem ChR.writePlug_env (r : ChR) (v : Word) : (r.writePlug v).env = r.env := by
  simp only [ChR.writePlug]; repeat' split
  all_goals simp
@[simp] theorem ChR.writeProfile_env (r : ChR) (b : Bool) (v : Word) : (r.writeProfile b v).env = r.env := rfl
@[simp] theorem ChR.writeTbCtrl_env (r : ChR) (v : Word) : (r.writeTbCtrl v).env = r.env := by
  simp only [ChR.writeTbCtrl]; repeat' split
  all_goals simp
@[simp] theorem ChR.writeTbBand_env (r : ChR) (v : Word) : (r.writeTbBand v).env = r.env := by
  simp only [ChR.writeTbBand]; split <;> simp
@[simp] theorem ChR.writePwmCfg_env (r : ChR) (v : Word) : (r.writePwmCfg v).env = r.env := by
  simp [ChR.writePwmCfg]
@[simp] theorem ChR.writeCmpA_env (r : ChR) (v : Word) : (r.writeCmpA v).env = r.env := by
  simp [ChR.writeCmpA]
@[simp] theorem ChR.writeCmpB_env (r : ChR) (v : Word) : (r.writeCmpB v).env = r.env := by
  simp [ChR.writeCmpB, apply_ite ChR.env]
@[simp] theorem ChR.writeTrim_env (r : ChR) (v : Word) : (r.writeTrim v).env = r.env := by
  simp only [ChR.writeTrim]; split <;> rfl
@[simp] theorem ChR.writePosCfg_env (r : ChR) (v : Word) : (r.writePosCfg v).env = r.env := by
  simp [ChR.writePosCfg, apply_ite ChR.env]
@[simp] theorem ChR.writePosCpr_env (r : ChR) (v : Word) : (r.writePosCpr v).env = r.env := by
  simp [ChR.writePosCpr, apply_ite ChR.env]
@[simp] theorem ChR.writePosIndex_env (r : ChR) (v : Word) : (r.writePosIndex v).env = r.env := by
  simp only [ChR.writePosIndex]; split <;> simp
@[simp] theorem ChR.writeFcuPar_env (r : ChR) (v : Word) : (r.writeFcuPar v).env = r.env := by
  simp only [ChR.writeFcuPar]; split <;> simp
@[simp] theorem ChR.writeMap_env (r : ChR) (v : Word) : (r.writeMap v).env = r.env := by
  simp only [ChR.writeMap]; split <;> simp
@[simp] theorem ChR.writeOv1_env (r : ChR) (v : Word) : (r.writeOv1 v).env = r.env := by
  simp only [ChR.writeOv1]; split <;> simp
@[simp] theorem ChR.writeTherm_env (r : ChR) (v : Word) : (r.writeTherm v).env = r.env := by
  simp only [ChR.writeTherm]; split <;> simp
@[simp] theorem ChR.writePerfCfg_env (r : ChR) (v : Word) : (r.writePerfCfg v).env = r.env := by
  simp only [ChR.writePerfCfg]; split <;> rfl

/-- The owner's write of a register keeps what the channel sees, whatever the offset. -/
@[simp] theorem ChR.writeReg_env (r : ChR) (off : Nat) (v : Word) : (r.writeReg off v).env = r.env := by
  simp only [ChR.writeReg]
  split <;> simp [apply_ite ChR.env]

end Sys2Proof.Machine
end

section
/-! R12 to R21, R78, R79: which block an aligned write of BAR0 reaches, and what the rules of ownership make of it. -/
namespace Sys2Proof.Machine

/-! ### The commands -/

theorem exec_registerWrite (t : Nat) (p : PortId) (off : Nat) (x : WriteData) (s : State) :
    exec (.registerWrite t p off x) s = s.barCmd t p fun s => s.barStore p off x.value x.got := by rfl
theorem exec_narrowAccess (t : Nat) (p : PortId) (off size : Nat) (w : Option Word) (s : State) :
    exec (.narrowAccess t p off size w) s = execNarrowAccess t p off size w s := by rfl
theorem exec_lowHalfRead (t : Nat) (p : PortId) (x : BarPlace) (s : State) :
    exec (.lowHalfRead t p x) s =
      s.barCmd t p fun s => State.answer (if x.bar2 then (s, bar2Read x.off) else s.barRead p x.off) := by rfl

/-- A BAR request while the port answers is counted, and then takes effect. -/
theorem does_barCmd {i : Instr} {s : State} {t : Nat} {p : PortId} {P : State → Prop} {f : State → State}
    (he : exec i s = s.barCmd t p f) (hp : (s.at t).busUp p = true) (h : P (f ((s.at t).countMmio p))) : Does i s P :=
  ⟨_, he.trans (by simp only [State.barCmd, hp, if_true]), h⟩

/-! ### Counting a request -/

theorem State.countMmio_quiet (s : State) (p : PortId) : (s.countMmio p).quiet = s.quiet := rfl
@[simp] theorem State.countMmio_nonownerWr (s : State) (p : PortId) :
    (s.countMmio p).ports[p].nonownerWr = s.ports[p].nonownerWr := by simp [State.countMmio]

/-- A change of one port leaves the others. -/
theorem State.onPort_other (s : State) {p p' : PortId} (f : PortS → PortS) (h : p' ≠ p) :
    (s.onPort p f).ports[p'] = s.ports[p'] := by
  have h' : (p : Nat) ≠ (p' : Nat) := fun e => h (Fin.ext e.symm)
  simp only [State.onPort_ports, Fin.getElem_fin]
  exact Vector.getElem_set_ne _ _ h'

/-! ### Dropped writes (R21) -/

/-- A dropped write changes reports alone. -/
theorem State.nonowner_quiet (s : State) (p : PortId) (off : Nat) : (s.nonowner p off).quiet = s.quiet := by
  simp only [State.nonowner]
  split
  · rw [State.raisePort_quiet]; rfl
  · rfl

/-- R80 of the ports, a dropped write moves one count alone, besides what the event that may follow moves. -/
theorem State.nonowner_calm (s : State) (p : PortId) (off : Nat) :
    (s.nonowner p off).ports.map PortS.calm =
      (s.onPort p fun x => { x with nonownerWr := satInc 65535 x.nonownerWr }).ports.map PortS.calm := by
  simp only [State.nonowner]
  split
  · exact State.raiseTo_calm _ _ _
  · rfl

/-- R78 a dropped write is counted for the port that made it. -/
theorem State.nonowner_nonownerWr (s : State) (p : PortId) (off : Nat) :
    (s.nonowner p off).ports[p].nonownerWr = min (s.ports[p].nonownerWr + 1) 65535 := by
  have h := congrArg (fun v : Vector PortS 4 => v[p].nonownerWr) (State.nonowner_calm s p off)
  simpa [PortS.calm, satInc] using h

/-- R78, R79 a register write that the rules of ownership drop. -/
theorem does_dropped {s : State} {t : Nat} {p : PortId} {off off' : Nat} {v : Word} {got : Fetch}
    (hp : (s.at t).busUp p = true)
    (h : ((s.at t).countMmio p).barStore p off v got = ((s.at t).countMmio p).nonowner p off') :
    Does (.registerWrite t p off ⟨v, got⟩) s fun s1 =>
      s1.quiet = (s.at t).quiet ∧ s1.ports[p].nonownerWr = min (s.ports[p].nonownerWr + 1) 65535 := by
  refine does_barCmd (exec_registerWrite ..) hp ?_
  dsimp only
  rw [h, State.nonowner_quiet, State.nonowner_nonownerWr, State.countMmio_quiet, State.countMmio_nonownerWr]
  exact ⟨rfl, rfl⟩

/-- R78 the owner's write takes effect. -/
theorem State.ownerWrite_owner {s : State} {p : PortId} {u : Nat} (off : Nat) (f : State → State)
    (h : s.ownerOf u = some p) : s.ownerWrite p u off f = f s := if_pos h
/-- R78 another port's write is dropped. -/
theorem State.ownerWrite_other {s : State} {p : PortId} {u : Nat} (off : Nat) (f : State → State)
    (h : s.ownerOf u ≠ some p) : s.ownerWrite p u off f = s.nonowner p off := if_neg h

/-! ### Which block a write reaches (R12) -/

/-- An aligned write within BAR0 is performed. -/
theorem State.barStore_aligned (s : State) (p : PortId) {off : Nat} (v : Word) (got : Fetch) (h4 : off % 4 = 0)
    (h : off < 0x400000) : s.barStore p off v got = s.regWrite p off v got :=
  if_neg (by simp only [portOptions]; omega)

/-- A write into the block of a channel. -/
theorem State.barStore_chan (s : State) (p : PortId) (n : ChanId) {reg : Nat} (v : Word) (got : Fetch) (h4 : reg % 4 = 0)
    (hr : reg < 0x1000) :
    s.barStore p (chanOff n reg) v got =
      s.ownerWrite p (chUnit n) (chanOff n reg) fun s => s.chan n fun r => r.writeReg reg v := by
  have hn := n.isLt
  have hoff : chanOff n reg = 0x100000 + 0x1000 * n.val + reg := rfl
  have hin : 0x100000 ≤ chanOff n reg ∧ chanOff n reg < 0x180000 := by omega
  have hblock : 0x10 ≤ chanOff n reg / 0x10000 := by omega
  have hno : (⟨(chanOff n reg - 0x100000) / 0x1000, by omega⟩ : ChanId) = n := Fin.ext (by dsimp only; omega)
  have hreg : chanOff n reg % 0x1000 = reg := by omega
  rw [State.barStore_aligned _ _ _ _ (by omega) (by omega)]
  unfold State.regWrite
  split
  case h_8 => rw [dif_pos hin, hno, hreg]
  all_goals omega

/-- A write into the block of the FPE. -/
theorem State.barStore_fpe (s : State) (p : PortId) {off : Nat} (v : Word) (got : Fetch) (h4 : off % 4 = 0)
    (h : off < 0x10000) :
    s.barStore p (0x020000 + off) v got = s.ownerWrite p fpeUnit (0x020000 + off) fun s => s.writeFpe off v := by
  have hblock : (0x020000 + off) / 0x10000 = 0x02 := by omega
  have hreg : 0x020000 + off - 0x020000 = off := by omega
  rw [State.barStore_aligned _ _ _ _ (by omega) (by omega)]
  simp only [State.regWrite, hblock, hreg]

/-- A write into the block of a CAN controller. -/
theorem State.barStore_can (s : State) (p : PortId) (k : CanId) {off : Nat} (v : Word) (got : Fetch) (h4 : off % 4 = 0)
    (h : off < 0x1000) :
    s.barStore p (canOff k off) v got = s.ownerWrite p (canUnit k) (canOff k off) fun s => s.writeCan k off v := by
  have hk := k.isLt
  have hoff : canOff k off = 0x030000 + 0x1000 * k.val + off := rfl
  have hblock : canOff k off / 0x10000 = 0x03 := by omega
  have hno : (⟨canOff k off / 0x1000 % 16, Nat.mod_lt _ (by decide)⟩ : CanId) = k := Fin.ext (by dsimp only; omega)
  have hreg : canOff k off % 0x1000 = off := by omega
  rw [State.barStore_aligned _ _ _ _ (by omega) (by omega)]
  simp only [State.regWrite, hblock]
  rw [hno, hreg]

/-- R71 a write of HOST.CONTROL. -/
theorem State.barStore_hostControl (s : State) (p : PortId) (v : Word) (got : Fetch) :
    s.barStore p 0x010004 v got = s.onPort p fun x => { x with control := v &&& 1#32 } := by rfl

/-- R79 a write of TIME.CONTROL. -/
theorem State.barStore_timeControl (s : State) (p : PortId) (v : Word) (got : Fetch) :
    s.barStore p 0x054004 v got = s.adminWrite p 0x054004 fun s => s.onTime fun x => x.writeControl v := by rfl

/-- R57 the writable bits of TIME.CONTROL take the value written. -/
theorem TimeS.writeControl_control (x : TimeS) (v : Word) :
    (x.writeControl v).control = merge x.control v 0x0000FF03#32 := by
  simp only [TimeS.writeControl]; split <;> rfl

/-- R14, R15 a read of DTIME: its low half, and the high half latched for the port. -/
theorem State.barRead_dtime (s : State) (p : PortId) :
    s.barRead p 0x054010 =
      (s.onPort p fun x => { x with latches := Cells.set 0 x.latches 0x054010 (BitVec.ofNat 32 (s.dtime / 2 ^ 32)) },
        BitVec.ofNat 32 s.dtime) := by rfl

end Sys2Proof.Machine
end

section
/-! What an access of BAR0 or BAR2 by a host does while its port answers. -/
namespace Sys2Proof.Machine

/-! ### Narrow and unaligned accesses (R13) -/

theorem does_narrowRead {s : State} {t : Nat} {p : PortId} {off size : Nat} (hp : (s.at t).busUp p = true)
    (h : size < 4 ∨ off % 4 ≠ 0) :
    Does (.narrowAccess t p off size none) s fun s1 => s1 = { (s.at t).countMmio p with lastRead := 0 } := by
  have hn : ¬(size = 4 ∧ off % 4 = 0) := by omega
  refine does_barCmd (exec_narrowAccess ..) hp ?_
  simp only [if_neg hn, State.answer]

theorem does_narrowWrite {s : State} {t : Nat} {p : PortId} (off size : Nat) (v : Word) (hp : (s.at t).busUp p = true) :
    Does (.narrowAccess t p off size (some v)) s fun s1 => s1 = (s.at t).countMmio p :=
  does_barCmd (exec_narrowAccess ..) hp rfl

/-! ### Writes of the owner of a unit (R78) -/

theorem leaves_chanRegisterWrite {s : State} {t : Nat} {p : PortId} {n : ChanId} {reg : Nat} {v : Word} (got : Fetch)
    (hp : (s.at t).busUp p = true) (h4 : reg % 4 = 0) (hr : reg < 0x1000) (ho : s.ownerOf (chUnit n) = some p) :
    Leaves (.registerWrite t p (chanOff n reg) ⟨v, got⟩) s t n fun c => c = (((s.at t).chanIn n).writeReg reg v).c := by
  have he : exec (.registerWrite t p (chanOff n reg) ⟨v, got⟩) s = s.chanWrite t p n reg v := by
    simp only [exec_registerWrite, State.chanWrite, State.barWrite, State.barStore_chan _ _ _ _ _ h4 hr]
  exact leaves_write reg v he hp h4 hr ho (by simp) rfl

theorem does_fpeRegisterWrite {s : State} {t : Nat} {p : PortId} {off : Nat} {v : Word} (got : Fetch)
    (hp : (s.at t).busUp p = true) (h4 : off % 4 = 0) (h : off < 0x10000) (ho : s.ownerOf fpeUnit = some p) :
    Does (.registerWrite t p (0x020000 + off) ⟨v, got⟩) s fun s1 => s1 = ((s.at t).countMmio p).writeFpe off v :=
  does_barCmd (exec_registerWrite ..) hp ((State.barStore_fpe _ _ _ _ h4 h).trans (State.ownerWrite_owner _ _ ho))

theorem does_canRegisterWrite {s : State} {t : Nat} {p : PortId} {k : CanId} {off : Nat} {v : Word} (got : Fetch)
    (hp : (s.at t).busUp p = true) (h4 : off % 4 = 0) (h : off < 0x1000) (ho : s.ownerOf (canUnit k) = some p) :
    Does (.registerWrite t p (canOff k off) ⟨v, got⟩) s fun s1 => s1 = ((s.at t).countMmio p).writeCan k off v :=
  does_barCmd (exec_registerWrite ..) hp ((State.barStore_can _ _ _ _ _ h4 h).trans (State.ownerWrite_owner _ _ ho))

/-! ### HOST.CONTROL and TIME.CONTROL (R71, R79) -/

theorem does_hostControlWrite {s : State} {t : Nat} {p : PortId} (v : Word) (got : Fetch)
    (hp : (s.at t).busUp p = true) :
    Does (.registerWrite t p 0x010004 ⟨v, got⟩) s fun s1 =>
      s1.ports[p].control = v &&& 1#32 ∧ s1.quiet = (s.at t).quiet ∧ (∀ p', p' ≠ p → s1.ports[p'] = s.ports[p']) := by
  refine does_barCmd (exec_registerWrite ..) hp ?_
  dsimp only
  rw [State.barStore_hostControl]
  refine ⟨by simp, rfl, fun p' hne => ?_⟩
  rw [State.onPort_other _ _ hne, State.countMmio, State.onPort_other _ _ hne, State.at_ports]

theorem does_timeControlWrite {s : State} {t : Nat} {p : PortId} (v : Word) (got : Fetch)
    (hp : (s.at t).busUp p = true) (ha : s.admin = p) :
    Does (.registerWrite t p 0x054004 ⟨v, got⟩) s fun s1 =>
      s1.time.control = merge s.time.control v 0x0000FF03#32 ∧ s1.quiet = { (s.at t).quiet with time := s1.time } := by
  refine does_barCmd (exec_registerWrite ..) hp ?_
  dsimp only
  rw [State.barStore_timeControl, State.adminWrite, if_pos (by exact ha)]
  exact ⟨TimeS.writeControl_control _ v, rfl⟩

/-! ### Reads (R14, R15, R73) -/

theorem does_dtimeRead {s : State} {t : Nat} {p : PortId} (hp : (s.at t).busUp p = true) :
    Does (.lowHalfRead t p ⟨false, 0x054010⟩) s fun s1 =>
      s1.lastRead = BitVec.ofNat 32 (max s.dtime t) ∧
      s1.ports[p].latches = Cells.set 0 s.ports[p].latches 0x054010 (BitVec.ofNat 32 (max s.dtime t / 2 ^ 32)) ∧
      s1.quiet = { (s.at t).quiet with lastRead := s1.lastRead } ∧
      (∀ p', p' ≠ p → s1.ports[p'] = s.ports[p']) := by
  refine does_barCmd (exec_lowHalfRead ..) hp ?_
  simp only [Bool.false_eq_true, if_false, State.barRead_dtime, State.answer]
  refine ⟨rfl, by simp [State.countMmio], rfl, fun p' hne => ?_⟩
  rw [State.onPort_other _ _ hne, State.countMmio, State.onPort_other _ _ hne, State.at_ports]

theorem does_bar2Read {s : State} {t : Nat} {p : PortId} (off : Nat) (hp : (s.at t).busUp p = true) :
    Does (.lowHalfRead t p ⟨true, off⟩) s fun s1 => s1 = { (s.at t).countMmio p with lastRead := 0 } :=
  does_barCmd (exec_lowHalfRead ..) hp rfl

/-! ### The statement -/

/-- Settles O9, access by access: each block's write is either the owner's, which reaches the block, or another port's, which
is dropped (R78, R79). -/
theorem registerAccess : Obligations.RegisterAccess := by
  intro s t p hp
  refine ⟨fun off size => does_narrowRead hp, fun off size v _ => does_narrowWrite off size v hp, ?chan, ?fpe, ?can,
    fun v got => does_hostControlWrite v got hp, fun v got => ⟨does_timeControlWrite v got hp, fun ha => ?time⟩,
    does_dtimeRead hp, fun off => does_bar2Read off hp⟩
  case chan =>
    intro n reg v got h4 hr
    rw [show 0x100000 + n.val * 0x1000 + reg = chanOff n reg by rw [chanOff, Nat.mul_comm]]
    exact ⟨leaves_chanRegisterWrite got hp h4 hr, fun ho =>
      does_dropped hp ((State.barStore_chan _ _ _ _ _ h4 hr).trans (State.ownerWrite_other _ _ ho))⟩
  case fpe =>
    intro off v got h4 h
    exact ⟨does_fpeRegisterWrite got hp h4 h, fun ho =>
      does_dropped hp ((State.barStore_fpe _ _ _ _ h4 h).trans (State.ownerWrite_other _ _ ho))⟩
  case can =>
    intro k off v got h4 h
    rw [show 0x030000 + k.val * 0x1000 + off = canOff k off by rw [canOff, Nat.mul_comm]]
    exact ⟨does_canRegisterWrite got hp h4 h, fun ho =>
      does_dropped hp ((State.barStore_can _ _ _ _ _ h4 h).trans (State.ownerWrite_other _ _ ho))⟩
  case time =>
    exact does_dropped hp ((State.barStore_timeControl _ _ _ _).trans (if_neg ha))

end Sys2Proof.Machine
end

section
/-! R14, R15, R48, R775: the read of TIME.CAL_LO. It returns the low half of calendar time and writes the high half to the
port's latch of the pair. A latch list in the one form of a sparse memory then holds the high half; a list that names the
pair twice may not. -/
namespace Sys2Proof.Machine

/-- A command has one outcome, so that what two statements say of it holds of the same state. -/
theorem Does.and {i : Instr} {s : State} {P Q : State → Prop} (hP : Does i s P) (hQ : Does i s Q) :
    Does i s fun s1 => P s1 ∧ Q s1 := by
  obtain ⟨s1, he, h⟩ := hP
  obtain ⟨s2, he', h'⟩ := hQ
  obtain rfl : s1 = s2 := Host.Outcome.next.inj (he.symm.trans he')
  exact ⟨s1, he, h, h'⟩

/-- R48 calendar time as an integer. -/
theorem State.calendar_cast (s : State) (x : Nat) : (s.calendar x : Int) = ((x : Int) + s.time.calOffset) % 2 ^ 64 :=
  Int.toNat_of_nonneg (Int.emod_nonneg _ (by decide))

/-- R14, R15 a read of calendar time: its low half, and the high half latched for the port. -/
theorem State.barRead_calendar (s : State) (p : PortId) :
    s.barRead p 0x054018 =
      (s.onPort p fun x => { x with
          latches := Cells.set 0 x.latches 0x054018 (BitVec.ofNat 32 (s.calendar s.dtime / 2 ^ 32)) },
        BitVec.ofNat 32 (s.calendar s.dtime)) := by rfl

theorem does_calendarRead {s : State} {t : Nat} {p : PortId} (hp : (s.at t).busUp p = true) :
    Does (.lowHalfRead t p ⟨false, 0x054018⟩) s fun s1 =>
      s1.lastRead = BitVec.ofNat 32 (s.calendar (max s.dtime t)) ∧
      s1.ports[p].latches =
        Cells.set 0 s.ports[p].latches 0x054018 (BitVec.ofNat 32 (s.calendar (max s.dtime t) / 2 ^ 32)) := by
  refine does_barCmd (exec_lowHalfRead ..) hp ?_
  simp only [Bool.false_eq_true, if_false, State.barRead_calendar, State.answer]
  exact ⟨rfl, by simp [State.countMmio, State.calendar]⟩

/-- R14, R48 what the clause of O54 on calendar time says, where the latch list is in its one form. -/
theorem does_calendarRead_of_wf {s : State} {t : Nat} {p : PortId} (hp : (s.at t).busUp p = true)
    (hw : Cells.wf 0 s.ports[p].latches = true) :
    let cal := (((max s.dtime t : Nat) : Int) + s.time.calOffset) % 2 ^ 64
    Does (.lowHalfRead t p ⟨false, 0x054018⟩) s fun s1 =>
      s1.lastRead = BitVec.ofInt 32 cal ∧ Cells.get 0 s1.ports[p].latches 0x054018 = BitVec.ofInt 32 (cal / 2 ^ 32) := by
  obtain ⟨s1, he, hlow, hlatch⟩ := does_calendarRead hp
  refine ⟨s1, he, ?_, ?_⟩
  · rw [hlow, ← State.calendar_cast, BitVec.ofInt_natCast]
  · rw [hlatch, Cells.get_set_self 0 _ 0 _ _ hw, ← State.calendar_cast, ← BitVec.ofInt_natCast]
    norm_cast

/-- READY at DTIME 0 with port 0 up, whose latch list names the pair of TIME.CAL_LO twice. -/
def latchedTwice : State :=
  { State.reset with
    dev := { State.reset.dev with phase := .ready }
    ports := State.reset.ports.set 0
      { State.reset.ports[(0 : PortId)] with link := .l0, latches := [(0x054018, 1), (0x054018, 1)] } }

/-- Refutes O54 in its clause on the read of TIME.CAL_LO, which asks nothing of the latch list. In `latchedTwice` calendar time
is 0: writing the high half 0 takes the first of the two entries out, and the pair then reads the 1 of the second. By
`does_calendarRead_of_wf` the clause holds wherever the list is canonical. -/
theorem not_startAndShutdown : ¬ Obligations.StartAndShutdown := by
  unfold Obligations.StartAndShutdown
  rintro ⟨-, -, hread, -⟩
  have hup : (latchedTwice.at 0).busUp 0 = true := by decide
  obtain ⟨s1, -, ⟨-, hhigh⟩, -, hlatch⟩ := (hread latchedTwice 0 0 hup).and (does_calendarRead hup)
  rw [hlatch] at hhigh
  exact absurd hhigh (by decide)

end Sys2Proof.Machine
end

section
/-! R99 to R101, R107: what the completion of a descriptor leaves in the outbox and on its ring. -/
namespace Sys2Proof.Machine

theorem State.sendMsix_outbox {o : Out} {s : State} (p : PortId) (v : Nat) (h : o ∈ s.outbox) :
    o ∈ (s.sendMsix p v).outbox := by
  simp only [State.sendMsix]
  repeat' split
  · exact h
  · exact h
  · exact List.mem_append_left _ h

theorem State.irqCq_outbox {o : Out} {s : State} (p : PortId) (c : Fin 32) (h : o ∈ s.outbox) :
    o ∈ (s.irqCq p c).outbox := by
  simp only [State.irqCq]
  split
  · exact State.sendMsix_outbox _ _ h
  · exact h

/-- R107, R109 a completion that is written stands in the outbox. -/
theorem State.writeCompletion_outbox (s : State) (p : PortId) (c : Fin 32) (x : Completion) :
    ∃ i a ph, Out.completion p c i a ph x ∈ (s.writeCompletion p c x).outbox :=
  ⟨_, _, _, State.irqCq_outbox _ _ (List.mem_append_right _ (List.mem_singleton.mpr rfl))⟩

theorem State.sendMsix_port_sqs (s : State) (p p' : PortId) (v : Nat) :
    (s.sendMsix p v).ports[p'].sqs = s.ports[p'].sqs := by
  have h := congrArg (fun x : Vector PortS 4 => x[p'].sqs) (State.sendMsix_calm s p v)
  simpa [PortS.calm] using h

theorem State.irqCq_port_sqs (s : State) (p : PortId) (c : Fin 32) : (s.irqCq p c).ports[p].sqs = s.ports[p].sqs := by
  simp only [State.irqCq]
  split
  · rw [State.sendMsix_port_sqs]; simp
  · rfl

theorem State.writeCompletion_sqs (s : State) (p : PortId) (c : Fin 32) (x : Completion) :
    (s.writeCompletion p c x).ports[p].sqs = s.ports[p].sqs := by
  simp only [State.writeCompletion]
  rw [State.irqCq_port_sqs]
  simp [State.emit]

/-- R101 the three ways of a completion: lost where its completion ring is not usable, written where the ring has space and
none is held, held else. -/
theorem State.complete_cases (s : State) (q : SqRef) (x : Completion) :
    (s.ports[q.port].cqs[(s.sqAt q).cqId].usable = false ∧ s.complete q x = s) ∨
    s.complete q x = s.writeCompletion q.port (s.sqAt q).cqId x ∨
    (¬ Roomy s q ∧ s.complete q x = (s.onSq q fun y => { y with stalled := y.stalled ++ [x] }).onPort q.port
      fun y => { y with holdFrom := some (y.holdFrom.getD s.dtime) }) := by
  simp only [State.complete, Roomy]
  split
  · exact .inl ⟨‹_›, rfl⟩
  split
  · exact .inr (.inl rfl)
  · rename_i hspace
    refine .inr (.inr ⟨fun ⟨_, hroom, hnone⟩ => hspace ?_, rfl⟩)
    rw [hroom, hnone]; rfl

theorem State.complete_of_roomy {s : State} {q : SqRef} (x : Completion) (h : Roomy s q) :
    s.complete q x = s.writeCompletion q.port (s.sqAt q).cqId x := by
  obtain ⟨hu, -⟩ | hw | ⟨hn, -⟩ := s.complete_cases q x
  · exact absurd h.1 (by rw [hu]; decide)
  · exact hw
  · exact absurd h hn

/-- A completion takes no descriptor off its ring. -/
theorem State.complete_fetched (s : State) (q : SqRef) (x : Completion) :
    ((s.complete q x).sqAt q).fetched = (s.sqAt q).fetched := by
  obtain ⟨-, h⟩ | h | ⟨-, h⟩ := s.complete_cases q x <;> rw [h]
  · simp only [State.sqAt, State.writeCompletion_sqs]
  · simp [State.sqAt, State.onSq]

/-- R101 a completion of a ring whose completion ring is usable is written or held. -/
theorem State.complete_reports {s : State} {q : SqRef} (x : Completion)
    (h : s.ports[q.port].cqs[(s.sqAt q).cqId].usable = true) :
    (∃ c i a ph, Out.completion q.port c i a ph x ∈ (s.complete q x).outbox) ∨ x ∈ ((s.complete q x).sqAt q).stalled := by
  obtain ⟨hu, -⟩ | hw | ⟨-, hs⟩ := s.complete_cases q x
  · exact absurd h (by rw [hu]; decide)
  · rw [hw]; exact .inl ⟨_, s.writeCompletion_outbox _ _ x⟩
  · rw [hs]; exact .inr (by simp [State.sqAt, State.onSq])

end Sys2Proof.Machine
end

section
/-! R92, R101, R122: which completion rings a port can write, and where each of its submission rings completes. No event,
no completion and no chameleon change of a unit moves either. -/
namespace Sys2Proof.Machine

/-- The completion rings of a port that are usable, and the CQ_ID of each of its submission rings. -/
def PortS.routes (x : PortS) : Vector Bool 32 × Vector (Fin 32) 32 := (x.cqs.map OutRing.usable, x.sqs.map Sq.cqId)

/-- The routes of every port. -/
def State.routes (s : State) : Vector (Vector Bool 32 × Vector (Fin 32) 32) 4 := s.ports.map PortS.routes

/-- What the routes say of the completion ring of a submission ring. -/
theorem State.usable_of_routes {s s1 : State} (h : s1.routes = s.routes) (q : SqRef) :
    s1.ports[q.port].cqs[(s1.sqAt q).cqId].usable = s.ports[q.port].cqs[(s.sqAt q).cqId].usable := by
  have hp := congrArg (fun v => v[q.port]) h
  simp only [State.routes, Fin.getElem_fin, Vector.getElem_map, PortS.routes, Prod.mk.injEq] at hp
  obtain ⟨hcqs, hsqs⟩ := hp
  have hid : (s1.sqAt q).cqId = (s.sqAt q).cqId := by
    have := congrArg (fun v => v[q.sq]) hsqs
    simpa [State.sqAt] using this
  have := congrArg (fun v => v[(s.sqAt q).cqId]) hcqs
  simpa [hid] using this

/-- One entry replaced by one that a view shows alike. -/
theorem map_set_same {α β : Type} {n : Nat} (g : α → β) (v : Vector α n) (i : Fin n) (a : α) (h : g a = g v[i]) :
    (v.set i a).map g = v.map g := by
  rw [Vector.map_set, h, Fin.getElem_fin, ← Vector.getElem_map g i.isLt, Vector.set_getElem_self]

theorem State.onPort_routes (s : State) (p : PortId) (f : PortS → PortS) (h : (f s.ports[p]).routes = s.ports[p].routes) :
    (s.onPort p f).routes = s.routes :=
  map_set_same PortS.routes s.ports p _ h

theorem State.onSq_routes (s : State) (q : SqRef) (f : Sq → Sq) (h : ∀ y, (f y).cqId = y.cqId) :
    (s.onSq q f).routes = s.routes :=
  State.onPort_routes _ _ _ (Prod.ext rfl (map_set_same Sq.cqId _ q.sq _ (h _)))

/-- A completion ring replaced by one that is as usable. -/
theorem State.setCq_routes (s : State) (p : PortId) (c : Fin 32) (r : OutRing)
    (h : r.usable = s.ports[p].cqs[c].usable) :
    (s.onPort p fun x => { x with cqs := x.cqs.set c r }).routes = s.routes :=
  State.onPort_routes _ _ _ (Prod.ext (map_set_same OutRing.usable _ c _ h) rfl)

/-- What leaves a port calm leaves its routes. -/
theorem State.routes_of_calm {s s1 : State} (h : s1.ports.map PortS.calm = s.ports.map PortS.calm) :
    s1.routes = s.routes := by
  have hcalm : ∀ x : State, (x.ports.map PortS.calm).map PortS.routes = x.routes := fun _ => Vector.map_map
  rw [← hcalm, h, hcalm]

theorem State.raiseTo_routes (s : State) (ps : List PortId) (e : Ev) : (s.raiseTo ps e).routes = s.routes :=
  State.routes_of_calm (State.raiseTo_calm s ps e)

theorem State.raiseUnit_routes (s : State) (code unit stamp : Nat) (data : List EvField) :
    (s.raiseUnit code unit stamp data).routes = s.routes := State.raiseTo_routes _ _ _

theorem State.irqCq_routes (s : State) (p : PortId) (c : Fin 32) : (s.irqCq p c).routes = s.routes := by
  simp only [State.irqCq]
  split
  · rw [State.routes_of_calm (State.sendMsix_calm _ _ _)]
    exact State.setCq_routes _ _ _ _ rfl
  · rfl

theorem State.writeCompletion_routes (s : State) (p : PortId) (c : Fin 32) (x : Completion) :
    (s.writeCompletion p c x).routes = s.routes := by
  simp only [State.writeCompletion]
  rw [State.irqCq_routes, State.routes_of_calm (State.emit_calm _ _ _ _)]
  exact State.setCq_routes _ _ _ _ rfl

theorem State.complete_routes (s : State) (q : SqRef) (x : Completion) : (s.complete q x).routes = s.routes := by
  obtain ⟨-, h⟩ | h | ⟨-, h⟩ := s.complete_cases q x <;> rw [h]
  · exact State.writeCompletion_routes _ _ _ _
  · exact (State.onPort_routes _ _ _ rfl).trans (State.onSq_routes _ _ _ fun _ => rfl)

theorem State.finishHeld_routes (s : State) (q : SqRef) (h : Held) (t status detail result : Nat) :
    (s.finishHeld q h t status detail result).routes = s.routes := by
  simp only [State.finishHeld]
  rw [foldl_keeps State.routes _ (fun s x => State.complete_routes s q x)]
  exact State.onSq_routes _ _ _ fun _ => rfl

theorem State.finishAt_routes (s : State) (unit : Nat) (ops : List Nat) (status detail result : Nat) (q : SqRef) :
    (s.finishAt unit ops status detail result q).routes = s.routes := by
  simp only [State.finishAt]
  repeat' split
  · exact State.finishHeld_routes _ _ _ _ _ _ _
  · exact State.onSq_routes _ _ _ fun _ => rfl
  · rfl
  · rfl

theorem State.finish_routes (s : State) (unit : Nat) (ops : List Nat) (status detail result : Nat) :
    (s.finish unit ops status detail result).routes = s.routes :=
  foldl_keeps State.routes _ (fun s q => State.finishAt_routes s unit ops status detail result q) _ _

/-! ### Operations of a channel and of a CAN controller -/

theorem State.noteSlack_routes (s : State) (slack : Int) (interval : Nat) (measured : Bool) :
    (s.noteSlack slack interval measured).routes = s.routes := by
  simp only [State.noteSlack]
  repeat' split
  all_goals rfl

theorem State.chOut_routes (s : State) (n : ChanId) (o : ChOut) : (s.chOut n o).routes = s.routes := by
  cases o with
  | event code stamp data => exact State.raiseUnit_routes _ _ _ _ _
  | limited code key stamp off data =>
    simp only [State.chOut]
    split
    · rw [State.raiseUnit_routes]; rfl
    · rfl
  | finish ops status detail result => exact State.finish_routes _ _ _ _ _ _
  | slack slack interval measured => exact State.noteSlack_routes _ _ _ _

theorem State.chan_routes (s : State) (n : ChanId) (f : ChOp) : (s.chan n f).routes = s.routes := by
  simp only [State.chan, State.onChan]
  rw [foldl_keeps State.routes _ (fun s o => State.chOut_routes s n o)]; rfl

theorem State.wakeSender_routes (s : State) (k : CanId) (x : CanTx) (status result : Nat) :
    (s.wakeSender k x status result).routes = s.routes := by
  simp only [State.wakeSender]
  split
  · exact State.finishAt_routes _ _ _ _ _ _ _
  · rfl

theorem State.abortObj_routes (s : State) (k : CanId) (i : Fin 128) : (s.abortObj k i).routes = s.routes := by
  simp only [State.abortObj]
  split
  · rfl
  · rw [State.wakeSender_routes]
    split
    · rw [State.canEvent, State.raiseUnit_routes]; rfl
    · rfl

theorem State.abortCheck_routes (s : State) (k : CanId) : (s.abortCheck k).routes = s.routes := by
  simp only [State.abortCheck]
  repeat' split
  · rfl
  · rw [State.finish_routes]; rfl
  · rfl

theorem State.canRebind_routes (s : State) (k : CanId) : (s.canRebind k).routes = s.routes := by
  simp only [State.canRebind]
  refine Eq.trans rfl ((State.abortCheck_routes _ k).trans ?_)
  exact foldl_keeps State.routes _ (fun s i => State.abortObj_routes s k i) _ _

end Sys2Proof.Machine
end

section
/-! R113: the outcome of a descriptor that a ring executes. -/
namespace Sys2Proof.Machine

/-- R101, R122 a ring that executes a descriptor has a usable completion ring. -/
theorem Next.usable {s : State} {t : Nat} {q : SqRef} {op : Nat} {f : Fetched} (hn : Next s t q op f) :
    s.ports[q.port].cqs[(s.sqAt q).cqId].usable = true := by
  obtain ⟨hd, -⟩ := hn
  have hrun : (s.at t).runnable q = true := by
    simp only [State.nextDesc] at hd
    split at hd
    · split at hd
      · rename_i hmay
        rw [Bool.and_eq_true] at hmay
        obtain ⟨hrun, -⟩ := hmay
        exact hrun
      · cases hd
    · cases hd
  simp only [State.runnable, Bool.and_eq_true] at hrun
  exact hrun.2

/-- R113 a descriptor that passes every check and ends at once: its effect, then its completion. -/
theorem State.runDesc_now {s s' : State} {t : Nat} {q : SqRef} {op bytes : Nat} {x : Exec} {f : Fetched}
    {status detail result : Nat} (hn : Next s t q op f) (hp : Passes s t q f x)
    (hr : x.run (s.running t q bytes f.desc) q.port f.desc = (s', .now status detail result)) :
    s.runDesc t q op bytes x =
      s'.complete q (f.completion q (s.sqAt q).cfg s'.dtime status detail result) := by
  obtain ⟨hd, hop⟩ := hn
  obtain ⟨hc, hx⟩ := hp
  simp only [State.running] at hr
  simp only [State.runDesc, hd, hop, ne_eq, not_true_eq_false, false_and, if_false, hc, hx, firstFail, hr]
  rfl

/-- R113 a descriptor that one of the checks 1 to 4 refuses: its completion alone. -/
theorem State.runDesc_refused {s : State} {t : Nat} {q : SqRef} {op bytes : Nat} {x : Exec} {f : Fetched}
    {status detail : Nat} (hn : Next s t q op f)
    (hc : ((s.at t).take q).checks1to4 q.port f.desc = some (status, detail)) :
    s.runDesc t q op bytes x = ((s.at t).take q).complete q
      (f.completion q (s.sqAt q).cfg (max s.dtime t) status detail 0) := by
  obtain ⟨hd, hop⟩ := hn
  simp only [State.runDesc, hd, hop, ne_eq, not_true_eq_false, false_and, if_false, hc, firstFail]
  rfl

theorem State.readBuf_ports (s : State) (p : PortId) (d : Desc) : (s.readBuf p d).ports = s.ports := by
  simp only [State.readBuf]; split <;> rfl

theorem State.running_routes (s : State) (t : Nat) (q : SqRef) (bytes : Nat) (d : Desc) :
    (s.running t q bytes d).routes = s.routes := by
  simp only [State.running, State.routes, State.readBuf_ports]
  exact (State.onPort_routes _ _ _ rfl).trans (State.onSq_routes (s.at t) q _ fun _ => rfl)

/-- The ring of the descriptor as its execution finds it. -/
theorem State.running_sqAt (s : State) (t : Nat) (q : SqRef) (bytes : Nat) (d : Desc) :
    (s.running t q bytes d).sqAt q = { s.sqAt q with fetched := (s.sqAt q).fetched.drop 1 } := by
  simp [State.running, State.sqAt, State.readBuf_ports, State.countDesc, State.take, State.onSq]

theorem State.running_cqs (s : State) (t : Nat) (q : SqRef) (bytes : Nat) (d : Desc) :
    (s.running t q bytes d).ports[q.port].cqs = s.ports[q.port].cqs := by
  simp [State.running, State.readBuf_ports, State.countDesc, State.take, State.onSq]

theorem Roomy.running {s : State} {q : SqRef} (h : Roomy s q) (t bytes : Nat) (d : Desc) :
    Roomy (s.running t q bytes d) q := by
  simpa only [Roomy, State.running_sqAt, State.running_cqs, Sq.cqId] using h

end Sys2Proof.Machine
end

section
/-! R82 to R87, R110: NOP, BIND and UNBIND. -/
namespace Sys2Proof.Machine

theorem exec_nop (t : Nat) (q : SqRef) (s : State) :
    exec (.nop t q) s = .next (s.runDesc t q 0x01 0 nopExec) := by rfl
theorem exec_bind (t : Nat) (q : SqRef) (s : State) :
    exec (.bind t q) s = .next (s.runDesc t q 0x02 0 bindExec) := by rfl
theorem exec_unbind (t : Nat) (q : SqRef) (s : State) :
    exec (.unbind t q) s = .next (s.runDesc t q 0x03 0 unbindExec) := by rfl

/-! ### NOP (R110) -/

theorem Passes.nop {s : State} {t : Nat} {q : SqRef} {f : Fetched} (hn : Next s t q 0x01 f) (hl : f.desc.length = 0) :
    Passes s t q f nopExec := by
  obtain ⟨-, hop⟩ := hn
  refine ⟨?_, rfl⟩
  simp [State.checks1to4, hop, opRow, hl, failIf]

theorem does_nop {s : State} {t : Nat} {q : SqRef} {f : Fetched} (hn : Next s t q 0x01 f) (hl : f.desc.length = 0)
    (hr : Roomy s q) :
    Does (.nop t q) s fun s1 =>
      s1.quiet = (s.at t).quiet ∧ (s1.sqAt q).fetched = (s.sqAt q).fetched.drop 1 ∧ Answered s1 q f 0 0 0 := by
  refine ⟨_, (exec_nop t q s).trans (congrArg _ (State.runDesc_now hn (.nop hn hl) rfl)), ?_, ?_, ?_⟩
  · rw [State.complete_quiet, State.running_quiet]
  · rw [State.complete_fetched, State.running_sqAt]
  · rw [State.complete_of_roomy _ (hr.running t 0 f.desc)]
    obtain ⟨i, a, ph, h⟩ := State.writeCompletion_outbox (s.running t q 0 f.desc) q.port
      ((s.running t q 0 f.desc).sqAt q).cqId (f.completion q (s.sqAt q).cfg (s.running t q 0 f.desc).dtime stOk 0 0)
    exact ⟨_, i, a, ph, _, h, rfl, rfl, rfl, rfl, rfl⟩

/-! ### What a chameleon change does to the unit leaves the unit table and the routes -/

theorem State.abortObj_units (s : State) (k : CanId) (i : Fin 128) : (s.abortObj k i).units = s.units := by
  simp only [State.abortObj, State.wakeSender, State.canEvent]
  repeat' split
  all_goals simp [State.quiet_units (State.finishAt_quiet _ _ _ _ _ _ _)]

theorem State.abortCheck_units (s : State) (k : CanId) : (s.abortCheck k).units = s.units := by
  simp only [State.abortCheck]
  repeat' split
  all_goals simp

theorem State.canRebind_units (s : State) (k : CanId) : (s.canRebind k).units = s.units := by
  simp only [State.canRebind, State.onCan_units, State.abortCheck_units]
  exact foldl_keeps State.units _ (fun s i => State.abortObj_units s k i) _ _

theorem State.rebindUnit_units (s : State) (u : Nat) : (s.rebindUnit u).units = s.units := by
  simp only [State.rebindUnit]
  split
  · exact State.chan_units _ _ _
  · exact State.canRebind_units _ _
  · rfl
  · rfl

theorem State.rebindUnit_routes (s : State) (u : Nat) : (s.rebindUnit u).routes = s.routes := by
  simp only [State.rebindUnit]
  split
  · exact State.chan_routes _ _ _
  · exact State.canRebind_routes _ _
  · rfl
  · rfl

theorem State.setUnit_units {s : State} {u : Nat} {i : Fin 145} (x : UnitS) (h : unitIndex u = some i) :
    (s.setUnit u x).units = s.units.set i x := by
  simp only [State.setUnit, h]

theorem State.setUnit_routes (s : State) (u : Nat) (x : UnitS) : (s.setUnit u x).routes = s.routes := by
  simp only [State.setUnit]; split <;> rfl

theorem State.changeEvents_units (s : State) (u : Nat) (old new : UnitS) : (s.changeEvents u old new).units = s.units := by
  simp only [State.changeEvents]
  repeat' split
  all_goals simp

theorem State.changeEvents_routes (s : State) (u : Nat) (old new : UnitS) :
    (s.changeEvents u old new).routes = s.routes := by
  simp only [State.changeEvents]
  repeat' split
  all_goals simp only [State.raiseTo_routes]

theorem State.unitOf_of_unitIndex {s : State} {u : Nat} {i : Fin 145} (h : unitIndex u = some i) :
    s.unitOf u = s.units[i] := by
  simp only [State.unitOf, h]

/-- R82 the epoch moves on by 1, from 65,535 to 1: it is 16 bits wide. -/
theorem nextEpoch_le (e : Nat) : nextEpoch e ≤ 65535 := by
  simp only [nextEpoch]; split <;> omega

/-- R82 to R84 a chameleon change replaces one entry of the unit table, moves no route, and ends OK with the new epoch. -/
theorem State.chameleon_spec (s : State) {u : Nat} {i : Fin 145} (owner : Option PortId) (role : Nat)
    (h : unitIndex u = some i) :
    ∃ s', s.chameleon u owner role = (s', .now stOk 0 (nextEpoch s.units[i].epoch)) ∧ s'.routes = s.routes ∧
      s'.units = s.units.set i { owner := owner, epoch := nextEpoch s.units[i].epoch, role := role } := by
  refine ⟨(s.chameleon u owner role).1, Prod.ext rfl ?_, ?_, ?_⟩ <;> simp only [State.chameleon]
  · rw [State.unitOf_of_unitIndex h]
  · rw [State.changeEvents_routes, State.setUnit_routes, State.rebindUnit_routes]
  · rw [State.changeEvents_units, State.setUnit_units _ h, State.rebindUnit_units, State.unitOf_of_unitIndex h]

/-! ### BIND and UNBIND -/

/-- R82 to R84 a command that is a chameleon change of the unit it names, its checks passed. -/
theorem does_chameleon {c : Instr} {s : State} {t : Nat} {q : SqRef} {op : Nat} {x : Exec} {f : Fetched} {i : Fin 145}
    {owner : Option PortId} {role : Nat} (he : exec c s = .next (s.runDesc t q op 0 x)) (hn : Next s t q op f)
    (hp : Passes s t q f x) (hx : ∀ s p, x.run s p f.desc = s.chameleon f.desc.unit owner role)
    (hu : unitIndex f.desc.unit = some i) :
    Does c s fun s1 =>
      s1.units[i].owner = owner ∧ s1.units[i].role = role ∧
      s1.units[i].epoch = (if s.units[i].epoch < 65535 then s.units[i].epoch + 1 else 1) ∧
      (∀ j, j ≠ i → s1.units[j] = s.units[j]) ∧ Reports s1 q f stOk 0 s1.units[i].epoch := by
  obtain ⟨s', hs', hroutes, hunits⟩ := (s.running t q 0 f.desc).chameleon_spec owner role hu
  have hsame : (s.running t q 0 f.desc).units = s.units :=
    (State.quiet_units (s.running_quiet t q 0 f.desc)).trans (s.at_units t)
  rw [hsame] at hs' hunits
  have hself : s'.units[i] = { owner := owner, epoch := nextEpoch s.units[i].epoch, role := role } := by
    rw [hunits]; simp
  have hother : ∀ j, j ≠ i → s'.units[j] = s.units[j] := by
    intro j hj
    rw [hunits]
    exact Vector.getElem_set_ne _ _ fun e => hj (Fin.ext e.symm)
  have huse : s'.ports[q.port].cqs[(s'.sqAt q).cqId].usable = true :=
    (State.usable_of_routes (hroutes.trans (s.running_routes t q 0 f.desc)) q).trans hn.usable
  refine ⟨_, he.trans (congrArg _ (State.runDesc_now hn hp ((hx _ _).trans hs'))), ?_⟩
  dsimp only
  rw [State.complete_units, hself]
  refine ⟨rfl, rfl, rfl, hother, _, State.complete_reports _ huse, rfl, rfl, rfl, rfl, ?_⟩
  exact Nat.mod_eq_of_lt (Nat.lt_of_le_of_lt (nextEpoch_le _) (by decide))

/-! ### From a port other than the administrator's (R83, R84, R113) -/

/-- R113 check 3 refuses an opcode of the administrator to every other port, unless check 1 or 2 has refused it already. -/
theorem State.checks1to4_not_admin {s : State} {p : PortId} {d : Desc} {r : OpRow} (hr : opRow d.opcode = some r)
    (hk : r.kind ≠ .any) (hi : r.issuer = .admin) (ha : s.admin ≠ p) : ∃ fail, s.checks1to4 p d = some fail := by
  simp only [State.checks1to4, hr, hk, if_false, hi, failIf, ha, ne_eq, not_false_eq_true, decide_true, if_true, firstFail]
  split
  · exact ⟨_, rfl⟩
  · split <;> exact ⟨_, rfl⟩

theorem does_not_admin {c : Instr} {s : State} {t : Nat} {q : SqRef} {op : Nat} {x : Exec} {f : Fetched} {r : OpRow}
    (he : exec c s = .next (s.runDesc t q op 0 x)) (hn : Next s t q op f) (hr : opRow op = some r)
    (hk : r.kind ≠ .any) (hi : r.issuer = .admin) (ha : s.admin ≠ q.port) : Does c s fun s1 => s1.units = s.units := by
  have hrow : opRow f.desc.opcode = some r := by
    obtain ⟨-, hop⟩ := hn
    rw [hop, hr]
  obtain ⟨⟨status, detail⟩, hc⟩ := State.checks1to4_not_admin (s := (s.at t).take q) hrow hk hi ha
  refine ⟨_, he.trans (congrArg _ (State.runDesc_refused hn hc)), ?_⟩
  dsimp only
  rw [State.complete_units, State.take_units, State.at_units]

/-- Settles O3: NOP is a completion alone; BIND and UNBIND are chameleon changes of the unit they name; from a port that is
not the administrator's, check 3 refuses both. -/
theorem nopBindUnbind : Obligations.NopBindUnbind := by
  intro s t q f
  refine ⟨does_nop, fun i hn hp hu => does_chameleon (exec_bind t q s) hn hp (fun _ _ => rfl) hu,
    fun i hn hp hu => does_chameleon (exec_unbind t q s) hn hp (fun _ _ => rfl) hu, fun ha => ⟨fun hn => ?_, fun hn => ?_⟩⟩
  · exact does_not_admin (exec_bind t q s) hn rfl (by decide) rfl ha
  · exact does_not_admin (exec_unbind t q s) hn rfl (by decide) rfl ha

end Sys2Proof.Machine
end

section
/-! R76, R707, R720: the unit table that a power-up leaves. -/
namespace Sys2Proof.Machine

/-! ### Loading the safety executive and starting the recorder leave the unit table -/

theorem State.stoChan_units (s : State) (fault : Bool) (n : ChanId) : (s.stoChan fault n).units = s.units := by
  simp only [State.stoChan]
  repeat' split
  · exact State.onChan_units _ _ _
  · exact State.onChan_units _ _ _
  · rfl

theorem State.applySto_units (s : State) (fault : Bool) : (s.applySto fault).units = s.units :=
  foldl_keeps State.units _ (fun s n => State.stoChan_units s fault n) _ _

theorem State.dropRequests_units (s : State) : s.dropRequests.units = s.units := by
  simp only [State.dropRequests]
  refine (foldl_keeps State.units _ (fun s r => ?_) _ _).trans rfl
  exact State.raiseAll_units _ _ _ _ _

theorem State.seEnter_units (s : State) (c : SeCode) : (s.seEnter c).units = s.units := by
  simp only [State.seEnter]
  repeat' split
  · rfl
  · rw [State.dropRequests_units, State.seEvent, State.raiseAll_units, State.onSe_units]
  · rw [State.seEvent, State.raiseAll_units, State.onSe_units]

theorem State.seLoad_units (s : State) (sec : Option (List Byte)) : (s.seLoad sec).units = s.units := by
  simp only [State.seLoad]
  split
  · rw [State.applySto_units, State.seEnter_units, State.onSe_units]
  · rfl

theorem State.storStart_units (s : State) (x : StartInputs) : (s.storStart x).units = s.units := by
  simp only [State.storStart]; split <;> rfl

theorem State.seStart_units (s : State) : s.seStart.units = s.units := by
  simp only [State.seStart]
  repeat' split
  · rfl
  all_goals simp only [State.seLoad_units, State.onStor_units]

theorem State.recStart_units (s : State) (s0 : Medium) : (s.recStart s0).units = s.units := by
  simp only [State.recStart, State.mediaEvent, apply_ite State.units, State.raisePort_units, State.queueOwn_units,
    State.onRec_units, ite_self]

/-- R76, R720 step 1 of a start clears the unit table, and no later step touches it. -/
theorem State.begin'_units (s : State) (x : StartInputs) (cause : Nat) : (s.begin' x cause).units = State.reset.units := by
  have hrest : ∀ s' : State, ((s'.storStart x).seStart.recStart x.s0).units = s'.units := fun s' => by
    rw [State.recStart_units, State.seStart_units, State.storStart_units]
  simp only [State.begin']
  split
  · rw [State.hkEvent, State.raiseAll_units, hrest]; rfl
  · rw [hrest]; rfl

theorem exec_start (t : Nat) (x : StartInputs) (s : State) : exec (.start t x) s = execStart t x s := by rfl

/-- R707 a start that is due, with the supply's window entered, runs its steps. -/
theorem does_start {s : State} {t cause : Nat} {P : State → Prop} (x : StartInputs) (hd : s.dev.due = some cause)
    (hoff : s.dev.phase = .off) (hrun : s.sup.ctl = .running) (h : P ((s.at t).begin' x cause)) :
    Does (.start t x) s P :=
  ⟨_, (exec_start t x s).trans (by simp only [execStart, State.at_dev, State.at_sup, hd, hoff, hrun, and_self, if_true]), h⟩

/-! ### State.reset -/

theorem State.reset_units (i : Fin 145) : State.reset.units[i] = {} := by
  simp [State.reset]

theorem State.reset_inv : State.reset.Inv where
  epochs i := by rw [State.reset_units]; decide
  unbound i _ := by rw [State.reset_units]
  trim := by decide
  optime := by decide
  pcycle := by decide
  shutCnt := by decide
  tReady := by decide
  s1 := rfl
  psm := rfl
  image _ := by decide

/-- Settles O57: a power-up leaves the unit table of `State.reset`, every entry of which is the reset value. -/
theorem resetAndPowerUp : Obligations.ResetAndPowerUp := by
  have hunit : ∀ i : Fin 145, State.reset.units[i].owner = none ∧ State.reset.units[i].epoch = 1 ∧
      State.reset.units[i].role = 0 := fun i => by rw [State.reset_units]; exact ⟨rfl, rfl, rfl⟩
  refine ⟨fun s t x cause hd hoff hrun => ?_, hunit, rfl, rfl, rfl, State.reset_inv⟩
  refine does_start x hd hoff hrun fun i => ?_
  rw [State.begin'_units]
  exact hunit i

end Sys2Proof.Machine
end

section
/-! R132, R441: what a transition, a qualification and the end of a start leave of the position unit, with no loop-back test
running: all of it but POS_FLT. -/
namespace Sys2Proof.Machine

/-- The position unit, and the loop-back test that can take the place of its pins. -/
def Chan.counting (c : Chan) : PosS × Option LbRun := (c.pos, c.core.lb)

theorem Chan.counting_eq_iff {c : Chan} {p : PosS} {l : Option LbRun} :
    c.counting = (p, l) ↔ c.pos = p ∧ c.core.lb = l := by simp [Chan.counting]

theorem Chan.posLb_of_lb_none {c : Chan} (h : c.core.lb = none) : c.posLb = false := by simp [Chan.posLb, h]

/-! ### Transitions -/

theorem ChR.endLb_of_lb_none {r : ChR} (h : r.c.core.lb = none) (fails reason : Nat) : r.endLb fails reason = r := by
  simp only [ChR.endLb, h]

theorem ChR.leaveWaits_pos {r : ChR} (h : r.c.core.lb = none) (new : ChCode) (k : Nat) :
    (r.leaveWaits new k).c.pos = r.c.pos := by
  simp only [ChR.leaveWaits]
  generalize hw : ChR.when (ChR.when r _ _) _ _ = w
  have hc : w.c = r.c := by
    rw [← hw, ChR.when_keeps ChR.c _ _ _ (ChR.finish_c ..), ChR.when_keeps ChR.c _ _ _ (ChR.finish_c ..)]
  rw [ChR.endLb_of_lb_none (by rw [hc]; exact h)]
  split
  · rw [ChR.fcu_c_pos, ChR.when_keeps ChR.c _ _ _ (ChR.reportDischarge_c ..), hc]
  · rw [hc]

/-- A transition that does not leave TRIPPED and LOCKED keeps the position unit. -/
theorem ChR.goto_counting {r : ChR} (h : r.c.core.lb = none) {new : ChCode} (k : Nat)
    (ht : (r.c.core.code.inTrip && !new.inTrip) = false) : (r.goto new k).c.counting = r.c.counting := by
  have he : ∀ x : ChR, (x.endCmpTest x.failsSoFar true).c.pos = x.c.pos := fun x => by
    obtain ⟨_, _, h, _⟩ := x.endCmpTest_c x.failsSoFar true; rw [h]
  have hs : ∀ x : ChR, x.stopPll.c.pos = x.c.pos := fun x => by
    obtain ⟨_, _, _, h, _⟩ := x.stopPll_c; rw [h]
  have hd : ∀ x : ChR, x.disableNle.c.pos = x.c.pos := fun x => by
    simp only [ChR.disableNle]; split <;> rfl
  refine Prod.ext ?_ ?_
  · simp only [Chan.counting, ChR.goto, ChR.event_c, ChR.when_pos, he, ChR.setCode, ChR.leaveLanes, ChR.intoEngine,
      ChR.leaveTrip, ChR.core_c_pos, ChR.fcu_c_pos, ChR.pwm_c_pos, ChR.adc_c_pos, ChR.prot_c_pos, hs, hd, ChR.intoArmed,
      ChR.freshArmed, ChR.nle_c_pos, ite_self, ht, Bool.false_eq_true, if_false, ChR.leaveWaits_pos h]
  · simp only [Chan.counting, ChR.goto_core, h]

theorem ChR.abortIdent_counting (r : ChR) (reason : Nat) (rs : Option Nat) :
    (r.abortIdent reason rs).c.counting = r.c.counting := by
  simp only [ChR.abortIdent]; split <;> rfl

theorem ChR.abortIdent_code (r : ChR) (reason : Nat) (rs : Option Nat) :
    (r.abortIdent reason rs).c.core.code = r.c.core.code := by
  simp only [ChR.abortIdent]; split <;> rfl

/-- R148 an identification that is aborted ends in OFF. -/
theorem ChR.abortIdent_goto_counting {r : ChR} (h : r.c.core.lb = none) (hc : r.c.core.code = .ident) (reason : Nat)
    (rs : Option Nat) (k : Nat) : ((r.abortIdent reason rs).goto .off k).c.counting = r.c.counting := by
  have hk := r.abortIdent_counting reason rs
  rw [ChR.goto_counting _ _ (by rw [ChR.abortIdent_code, hc]; rfl), hk]
  exact (congrArg Prod.snd hk).trans h

/-! ### Qualifications -/

theorem ChR.trip_counting {r : ChR} (h : r.c.core.lb = none) (q : Qual) (qs : List Qual) :
    (r.trip q qs).c.counting = r.c.counting := by
  simp only [ChR.trip]
  split
  · split
    · split <;> rfl
    · rw [ChR.goto_counting (by exact h) _ (Bool.and_false _)]; rfl
  · rw [ChR.goto_counting (by exact h) _ (Bool.and_false _)]; rfl

theorem ChR.joinTrip_counting {r : ChR} (h : r.c.core.lb = none) (q : Qual) (qs : List Qual) :
    (r.joinTrip q qs).c.counting = r.c.counting := by
  simp only [ChR.joinTrip]
  generalize hw : ChR.when _ _ _ = w
  have hk : w.c.counting = r.c.counting := by
    rw [← hw, ChR.when_kept Chan.counting _ _ _ (by intro _; rfl)]; rfl
  split
  · rw [ChR.goto_counting _ _ (Bool.and_false _)]
    · exact hk
    · exact (congrArg Prod.snd hk).trans h
  · exact hk

theorem ChR.qualify_counting {r : ChR} (h : r.c.core.lb = none) (q : Qual) (qs : List Qual) :
    (r.qualify q qs).c.counting = r.c.counting := by
  simp only [ChR.qualify]
  split
  · rw [ChR.joinTrip_counting (by exact h)]; rfl
  split
  · rw [ChR.trip_counting (by exact h)]; rfl
  split
  · rename_i hc
    rw [ChR.abortIdent_goto_counting (by exact h) (by simpa using hc)]; rfl
  · rw [ChR.emits_c _ _ _ (by intro _ _; rfl)]; split <;> rfl

/-- R318 a qualification of source POS sets POS_FLT. -/
theorem ChR.qualifyPos_counting {r : ChR} (h : r.c.core.lb = none) (cause info stamp : Nat) :
    (r.qualifyPos cause info stamp).c.counting = ({ r.c.pos with flt := true }, none) := by
  simp only [ChR.qualifyPos]
  rw [ChR.qualify_counting (by exact h)]
  exact Chan.counting_eq_iff.mpr ⟨rfl, h⟩

theorem ChR.qualifyPos_kept (r : ChR) (cause info stamp : Nat) : (r.qualifyPos cause info stamp).c.kept = r.c.kept := by
  simp only [ChR.qualifyPos]; rw [ChR.qualify_kept]; rfl

/-- R348 the end of a start. -/
theorem ChR.startEnds_counting (r : ChR) (caught : Bool) : (r.startEnds caught).c.counting = r.c.counting := by
  simp only [ChR.startEnds]
  split
  · rfl
  split
  · rfl
  · rw [ChR.when_kept Chan.counting _ _ _ (by intro _; rfl)]; rfl

end Sys2Proof.Machine
end

section
/-! R148, R296, R303, R359: the sample instant that a change of the position unit takes first, and what a qualified edge ends. -/
namespace Sys2Proof.Machine

/-! ### The sample instant (R303, R316) -/

theorem ChR.pattern_of_lb_none {r : ChR} (h : r.c.core.lb = none) (t : Nat) : r.pattern t = r := by
  simp only [ChR.pattern, h]

/-- R303 the Hall check changes INV_RUN and, by its qualification, POS_FLT. -/
theorem ChR.hallSample_counting {r : ChR} (h : r.c.core.lb = none) (stamp : Nat) :
    ∃ k x, (r.hallSample stamp).c.counting = ({ r.c.pos with invRun := k, flt := x }, none) := by
  simp only [ChR.hallSample]
  split
  · split
    · exact ⟨0, r.c.pos.flt, Chan.counting_eq_iff.mpr ⟨rfl, h⟩⟩
    split
    · exact ⟨_, true, by rw [ChR.qualifyPos_counting (by exact h)]; rfl⟩
    · exact ⟨_, r.c.pos.flt, Chan.counting_eq_iff.mpr ⟨rfl, h⟩⟩
  · exact ⟨r.c.pos.invRun, r.c.pos.flt, Chan.counting_eq_iff.mpr ⟨rfl, h⟩⟩

theorem ChR.hallSample_kept (r : ChR) (stamp : Nat) : (r.hallSample stamp).c.kept = r.c.kept := by
  simp only [ChR.hallSample]
  repeat' split
  · rfl
  · rw [ChR.qualifyPos_kept]; rfl
  · rfl
  · rfl

/-- R316 the sample instant keeps what the Hall check keeps. -/
theorem ChR.sampleFirst_counting {r : ChR} (h : r.c.core.lb = none) :
    (∃ k x, r.sampleFirst.c.counting = ({ r.c.pos with invRun := k, flt := x }, none)) ∧
    r.sampleFirst.c.kept = r.c.kept := by
  have htake : (∃ k x, r.takeSample.c.counting = ({ r.c.pos with invRun := k, flt := x }, none)) ∧
      r.takeSample.c.kept = r.c.kept := by
    have hself : ∃ k x, r.c.counting = ({ r.c.pos with invRun := k, flt := x }, none) :=
      ⟨_, _, Chan.counting_eq_iff.mpr ⟨rfl, h⟩⟩
    simp only [ChR.takeSample]
    split
    · split
      · rw [ChR.pattern_of_lb_none h, ChR.hallSample_kept]
        exact ⟨ChR.hallSample_counting (by exact h) _, rfl⟩
      · exact ⟨hself, rfl⟩
    · exact ⟨hself, rfl⟩
  simp only [ChR.sampleFirst]
  cases r.c.adc.slot.any fun x => decide (x.start + 60 < r.env.t)
  · rw [ChR.when_false, ChR.pattern_of_lb_none h]
    exact ⟨⟨_, _, Chan.counting_eq_iff.mpr ⟨rfl, h⟩⟩, rfl⟩
  · obtain ⟨⟨k, x, hc⟩, hk⟩ := htake
    obtain ⟨-, hl⟩ := Chan.counting_eq_iff.mp hc
    rw [ChR.when_true, ChR.pattern_of_lb_none hl]
    exact ⟨⟨k, x, hc⟩, hk⟩

/-- A channel whose slot in progress has had its sample instant taken, with INV_RUN as the Hall check leaves it. -/
def Chan.sampled (c : Chan) (slot : Option SlotRun) (k : Nat) : Chan :=
  { c with adc := { c.adc with slot := slot }, pos := { c.pos with invRun := k } }

/-- R303 a sample instant finds no fault: the mode does not read a Hall state, the Hall state is valid, or no slot is in
progress. -/
def Chan.hallCalm (c : Chan) : Prop :=
  c.posMode ≠ 3 ∨ (hallOf c.pos.pins.toNat).isSome = true ∨ c.adc.slot = none

/-- The operation has taken the sample instant of channel `c`, without a fault. -/
def ChR.SampledFrom (r : ChR) (c : Chan) : Prop := ∃ slot k, r.c = c.sampled slot k

theorem ChR.sampleFirst_calm {r : ChR} (h : r.c.core.lb = none) (hc : r.c.hallCalm) : r.sampleFirst.SampledFrom r.c := by
  have hself : ∃ slot k, r.c = r.c.sampled slot k := ⟨r.c.adc.slot, r.c.pos.invRun, rfl⟩
  have htake : r.c.adc.slot ≠ none → ∃ slot k, r.takeSample.c = r.c.sampled slot k := by
    intro hs
    simp only [ChR.takeSample]
    split
    · split
      · rw [ChR.pattern_of_lb_none h]
        simp only [ChR.hallSample]
        split
        · rename_i hmode
          obtain hm | hv | hn := hc
          · exact absurd hmode hm
          · rw [if_pos (by exact hv)]
            exact ⟨_, 0, rfl⟩
          · exact absurd hn hs
        · exact ⟨_, r.c.pos.invRun, rfl⟩
      · exact hself
    · exact hself
  simp only [ChR.sampleFirst]
  cases hs : r.c.adc.slot.any fun x => decide (x.start + 60 < r.env.t)
  · rw [ChR.when_false, ChR.pattern_of_lb_none h]
    exact hself
  · obtain ⟨slot, k, hk⟩ := htake fun hn => by rw [hn] at hs; cases hs
    rw [ChR.when_true, ChR.pattern_of_lb_none (by rw [hk]; exact h)]
    exact ⟨slot, k, hk⟩

/-! ### What an edge ends (R148, R359) -/

/-- R148 CH.IDENT_RS reports the abort's reason above the phase resistance. -/
theorem fld_pack_abortReason {reason : Nat} (h : reason < 256) (m : Nat) :
    fld (pack [(24, 8, reason), (0, 20, m)]) 31 24 = reason := by
  have hhigh : reason % 256 * 16777216 % 4294967296 / 2 ^ 24 = reason := by omega
  have hlow : m % 1048576 % 4294967296 / 2 ^ 24 = 0 := by omega
  calc fld (pack [(24, 8, reason), (0, 20, m)]) 31 24
      = (reason % 256 * 16777216 % 4294967296 ||| m % 1048576 % 4294967296) / 2 ^ 24 % 256 := by
        simp [fld, pack, Nat.shiftLeft_eq, Nat.shiftRight_eq_div_pow]
    _ = reason := by rw [Nat.or_div_two_pow, hhigh, hlow, Nat.or_zero, Nat.mod_eq_of_lt h]

@[simp] theorem ChR.edgeEnds_env (r : ChR) : r.edgeEnds.env = r.env := by
  simp only [ChR.edgeEnds]; repeat' split
  all_goals simp

/-- An edge's consequences leave the position unit. -/
theorem ChR.edgeEnds_pos {r : ChR} (h : r.c.core.lb = none) : r.edgeEnds.c.pos = r.c.pos := by
  suffices hk : r.edgeEnds.c.counting = r.c.counting from congrArg Prod.fst hk
  simp only [ChR.edgeEnds]
  split
  · rfl
  split
  · rename_i hc
    exact ChR.abortIdent_goto_counting h (by simpa using hc) _ _ _
  split
  · rename_i hc
    rw [Bool.and_eq_true, beq_iff_eq] at hc
    obtain ⟨hcode, -⟩ := hc
    rw [ChR.goto_counting (by rw [ChR.reportDischarge_c]; exact h) _ (by rw [ChR.reportDischarge_c, hcode]; rfl),
      ChR.reportDischarge_c]
  · rfl

/-- R148 an edge aborts an identification, with reason 3. -/
theorem ChR.edgeEnds_ident {r : ChR} (hm : r.c.posMode ≠ 0) (hc : r.c.core.code = .ident)
    (hi : r.c.core.ident.isSome = true) :
    r.edgeEnds.c.core.code = .off ∧ r.edgeEnds.c.core.cause = 0x54 ∧ r.edgeEnds.c.core.ident = none ∧
    fld r.edgeEnds.c.core.identRs 31 24 = 3 := by
  obtain ⟨i, hi⟩ := Option.isSome_iff_exists.mp hi
  have he : r.edgeEnds = (r.abortIdent 3 r.rsAtAbort).goto .off 0x54 := by simp [ChR.edgeEnds, hm, hc]
  simp only [he, ChR.goto_core, ChR.abortIdent, hi, ChR.finish_c, ChR.event_c, ChR.core_c_core, true_and]
  exact fld_pack_abortReason (by decide) _

/-- R359 an edge ends a discharge through the windings. -/
theorem ChR.edgeEnds_discharge {r : ChR} {d : DisRun} (hm : r.c.posMode ≠ 0) (hc : r.c.core.code = .discharge)
    (hd : r.c.fcu.dis = some d) (hw : d.mode ≠ 0) :
    r.edgeEnds.c.core.code = (if r.c.core.verified then .ready else .off) ∧ r.edgeEnds.c.core.cause = 0x22 ∧
    r.edgeEnds.c.fcu.dis = none := by
  have he : r.edgeEnds = (r.reportDischarge 3 r.env.t).goto r.c.idleCode 0x22 := by
    simp [ChR.edgeEnds, hm, hc, hd, hw]
  obtain ⟨hdis, -, -⟩ := (r.reportDischarge 3 r.env.t).goto_fcu r.c.idleCode 0x22
  rw [he, ChR.goto_core]
  exact ⟨rfl, rfl, hdis⟩

/-- Outside IDENT and DISCHARGE an edge ends nothing. -/
theorem ChR.edgeEnds_other {r : ChR} (hi : r.c.core.code ≠ .ident) (hd : r.c.core.code ≠ .discharge) : r.edgeEnds = r := by
  simp [ChR.edgeEnds, hi, hd]

end Sys2Proof.Machine
end

section
/-! R296 to R309: what qualified changes of the pins do to the position unit. -/
namespace Sys2Proof.Machine

/-! ### Counting and speed (R304, R311, R312) -/

/-- R304, R311, R312 `q` is the position unit `p` after one edge with the direction and stamp given: the count moved by one
within a revolution of `cpr`, the speed estimate renewed. -/
def PosS.Edge (p : PosS) (cpr : Nat) (up : Bool) (stamp16 : Nat) (q : PosS) : Prop :=
  let fresh : Bool := p.still || decide (p.stillDue < stamp16) || (p.dirKnown && p.down == up) || p.n == 0
  q.count = (if up then (if p.count + 1 = cpr then 0 else p.count + 1) else if p.count = 0 then cpr - 1 else p.count - 1) ∧
  q.rev = (if up then (if p.count + 1 = cpr then p.rev + 1 else p.rev) else if p.count = 0 then p.rev - 1 else p.rev) ∧
  q.down = !up ∧ q.edge = stamp16 ∧ q.still = false ∧ q.uncertain = fresh ∧ q.n = (if fresh then 1 else p.n + 1) ∧
  q.speed = (if fresh then 0 else
    if up then (speedMag (stamp16 - p.edge) : Int) else -(speedMag (stamp16 - p.edge) : Int))

/-- R304 a step moves the count and the revolution counter alone. -/
theorem PosS.step_eq (p : PosS) (cpr : Nat) (up : Bool) :
    p.step cpr (!up) = { p with
      count := if up then (if p.count + 1 = cpr then 0 else p.count + 1)
        else if p.count = 0 then cpr - 1 else p.count - 1
      rev := if up then (if p.count + 1 = cpr then p.rev + 1 else p.rev) else if p.count = 0 then p.rev - 1 else p.rev } := by
  cases up
  · simp only [PosS.step, Bool.not_false, if_true, Bool.false_eq_true, if_false]; split <;> rfl
  · simp only [PosS.step, Bool.not_true, if_true, Bool.false_eq_true, if_false]; split <;> rfl

theorem PosS.edge_step (p : PosS) (cpr : Nat) (up : Bool) (stamp16 : Nat) :
    p.Edge cpr up stamp16 ((p.step cpr (!up)).edgeSpeed stamp16 (!up)) := by
  rw [PosS.step_eq]
  have hdown : (p.down != !up) = (p.down == up) := by cases p.down <;> cases up <;> rfl
  have hsign : ∀ m : Int, (if (!up) = true then -m else m) = if up = true then m else -m := by cases up <;> simp
  refine ⟨rfl, rfl, rfl, rfl, rfl, ?_, ?_, ?_⟩ <;> simp only [PosS.edgeSpeed, hdown, hsign] <;> rfl

/-- What an edge finds of the Hall state, the pins and the run of invalid samples does not matter to it. -/
theorem PosS.edge_sampled {p q : PosS} {cpr stamp16 : Nat} {up : Bool} (k : Nat) (pins : BitVec 3) (sector : Option Nat) :
    ({ p with invRun := k, pins := pins, sector := sector } : PosS).Edge cpr up stamp16 q ↔ p.Edge cpr up stamp16 q := Iff.rfl

/-- R301 the count after two steps depends on the count alone. -/
theorem PosS.steps_two_count {p q : PosS} (h : p.count = q.count) (cpr : Nat) (down : Bool) :
    (p.steps cpr down 2).count = (q.steps cpr down 2).count := by
  have hstep : ∀ {p q : PosS}, p.count = q.count → (p.step cpr down).count = (q.step cpr down).count := by
    intro p q h
    cases down <;> simp only [PosS.step, h, if_true, Bool.false_eq_true, if_false] <;> split <;> rfl
  exact hstep (hstep h)

/-! ### The pins -/

theorem pinsOf_bits (a b z : Bool) :
    (pinsOf a b z).getLsbD 0 = a ∧ (pinsOf a b z).getLsbD 1 = b ∧ (pinsOf a b z).getLsbD 2 = z := by
  cases a <;> cases b <;> cases z <;> decide

theorem pinPair_pinsOf (a b z : Bool) : pinPair (pinsOf a b z) = 2 * b2n a + b2n b := by
  obtain ⟨ha, hb, -⟩ := pinsOf_bits a b z
  rw [pinPair, ha, hb]

/-- R298 the direction of a single change of A or B. -/
theorem quadDown_eq (before after : Nat) :
    quadDown before after = !((before, after) == (0, 2) || (before, after) == (2, 3) || (before, after) == (3, 1) ||
      (before, after) == (1, 0)) := by
  unfold quadDown
  split <;> simp_all

/-- The channel with the new levels of its pins. -/
def ChR.withPins (r : ChR) (new : BitVec 3) : ChR := r.pos fun p => { p with pins := new }

/-- R297 in QUAD and QUAD_INDEX a change of Z follows what A and B do. -/
theorem ChR.pinsTo_quad {r : ChR} (hm : r.c.posMode = 1 ∨ r.c.posMode = 2) (stamp16 : Nat) (new : BitVec 3) :
    r.pinsTo stamp16 new =
      let q := (r.withPins new).quadChange stamp16 (pinPair r.c.pos.pins) (pinPair new)
      if r.c.pos.pins.getLsbD 2 = new.getLsbD 2 then q else q.zChange stamp16 (new.getLsbD 2) := by
  have hmode : (r.pos fun p => { p with pins := new }).c.posMode = r.c.posMode := rfl
  simp only [ChR.pinsTo, hmode]
  obtain h | h := hm <;> rw [h] <;> rfl

theorem ChR.pinsTo_hall {r : ChR} {new : BitVec 3} (hm : r.c.posMode = 3) (hn : r.c.pos.pins ≠ new) (stamp16 : Nat) :
    r.pinsTo stamp16 new = (r.withPins new).hallChange stamp16 r.c.pos.pins.toNat new.toNat := by
  have hmode : (r.pos fun p => { p with pins := new }).c.posMode = 3 := hm
  simp only [ChR.pinsTo, hmode, if_neg hn]
  rfl

/-! ### QUAD and QUAD_INDEX (R298, R299) -/

theorem ChR.quadChange_same (r : ChR) (stamp16 before : Nat) : r.quadChange stamp16 before before = r := by
  simp [ChR.quadChange]

/-- R298 a change of A or B is one edge. -/
theorem ChR.quadChange_edge {r : ChR} {before after : Nat} (hsum : before + after ≠ 3) (hne : before ≠ after) {up : Bool}
    (hup : up = (((before, after) == (0, 2) || (before, after) == (2, 3) || (before, after) == (3, 1) ||
      (before, after) == (1, 0)) != bitOf r.c.pos.cfg 29)) (stamp16 : Nat) :
    r.quadChange stamp16 before after = r.pos fun p => (p.step r.c.cpr (!up)).edgeSpeed stamp16 (!up) := by
  have hnot : ∀ x y : Bool, ((!x) != y) = !(x != y) := by decide
  simp only [ChR.quadChange, if_neg hne, if_neg hsum, quadDown_eq, Chan.dirInv, hnot, hup]

/-- R299 a change of A and B at once. -/
theorem ChR.quadChange_both {r : ChR} {before after : Nat} (hsum : before + after = 3) (stamp16 : Nat) :
    (r.quadChange stamp16 before after).c =
      { r.c with pos := { r.c.pos.lostSpeed with flags := r.c.pos.flags ||| 0x80#32 } } := by
  have hne : before ≠ after := by omega
  simp only [ChR.quadChange, if_neg hne, if_pos hsum]
  rfl

/-- A change of A or B reaches the position unit alone, and its configuration not. -/
theorem ChR.quadChange_c (r : ChR) (stamp16 before after : Nat) :
    ∃ p : PosS, (r.quadChange stamp16 before after).c = { r.c with pos := p } ∧ p.cfg = r.c.pos.cfg := by
  simp only [ChR.quadChange]
  split
  · exact ⟨r.c.pos, rfl, rfl⟩
  split
  · exact ⟨_, rfl, rfl⟩
  · refine ⟨_, rfl, ?_⟩
    simp only [PosS.edgeSpeed, PosS.step]
    repeat' split
    all_goals rfl

/-- R306 in QUAD a change of Z is no index event. -/
theorem ChR.zChange_of_quad {r : ChR} (h : r.c.posMode = 1) (stamp16 : Nat) (rising : Bool) :
    r.zChange stamp16 rising = r := by
  simp [ChR.zChange, h]

/-- A change of the pins in QUAD, or in QUAD_INDEX with Z as it was, is a change of A and B. -/
theorem ChR.pinsTo_pair {r : ChR} {new : BitVec 3}
    (hm : r.c.posMode = 1 ∨ r.c.posMode = 2 ∧ new.getLsbD 2 = r.c.pos.pins.getLsbD 2) (stamp16 : Nat) :
    r.pinsTo stamp16 new = (r.withPins new).quadChange stamp16 (pinPair r.c.pos.pins) (pinPair new) := by
  obtain h1 | ⟨h2, hz⟩ := hm
  · obtain ⟨p, hp, hcfg⟩ := (r.withPins new).quadChange_c stamp16 (pinPair r.c.pos.pins) (pinPair new)
    have hmode : ((r.withPins new).quadChange stamp16 (pinPair r.c.pos.pins) (pinPair new)).c.posMode = 1 := by
      rw [hp, ← h1]; simp only [Chan.posMode, hcfg]; rfl
    simp only [ChR.pinsTo_quad (.inl h1), ChR.zChange_of_quad hmode, ite_self]
  · simp only [ChR.pinsTo_quad (.inr h2), if_pos hz.symm]

/-! ### HALL (R300 to R302) -/

/-- R302 entry into an invalid state holds the count. -/
theorem ChR.hallChange_invalid {r : ChR} {before after : Nat} (ha : hallOf after = none)
    (hb : (hallOf before).isSome = true) (stamp16 : Nat) :
    (r.hallChange stamp16 before after).c = { r.c with pos := { r.c.pos with flags := r.c.pos.flags ||| 0x20#32 } } := by
  have hne : ¬ (before = after ∨ (hallOf before).isNone = true) := by
    rintro (rfl | hn)
    · rw [ha] at hb; cases hb
    · rw [Option.isNone_iff_eq_none.mp hn] at hb; cases hb
  simp only [ChR.hallChange, ha, if_neg hne]
  rfl

/-- R300 to R302 a change to an adjacent sector is one edge; out of an invalid state it is stamped now. -/
theorem ChR.hallChange_edge {r : ChR} {before after l k : Nat} (ha : hallOf after = some k)
    (hl : r.c.pos.sector = some l) {up : Bool}
    (hd : (k + 6 - l) % 6 = 1 ∧ up = !r.c.dirInv ∨ (k + 6 - l) % 6 = 5 ∧ up = r.c.dirInv) (stamp16 : Nat) :
    r.hallChange stamp16 before after = r.pos fun p => (({ p with sector := some k } : PosS).step r.c.cpr (!up)).edgeSpeed
      (if (hallOf before).isSome then stamp16 else 16 * r.env.t) (!up) := by
  have hstill : (k + 6 - l) % 6 ≠ 0 := by omega
  have hnext : (k + 6 - l) % 6 = 1 ∨ (k + 6 - l) % 6 = 5 := by omega
  have hdown : (((k + 6 - l) % 6 == 5) != r.c.dirInv) = !up := by
    obtain ⟨hd, rfl⟩ | ⟨hd, rfl⟩ := hd <;> rw [hd] <;> cases r.c.dirInv <;> rfl
  rw [← hdown]
  simp only [ChR.hallChange, ha, hl, if_neg hstill, if_pos hnext]
  rfl

/-- R301 a change by two sectors up is a skip, which moves the count by two. -/
theorem ChR.hallChange_skip {r : ChR} {before after l k : Nat} (ha : hallOf after = some k)
    (hl : r.c.pos.sector = some l) (hd : (k + 6 - l) % 6 = 2) (stamp16 : Nat) :
    ∃ known, (r.hallChange stamp16 before after).c = { r.c with
      pos := { (({ r.c.pos with sector := some k } : PosS).steps r.c.cpr r.c.dirInv 2).lostSpeed with
        down := r.c.dirInv, dirKnown := known, still := false, edge := stamp16, flags := r.c.pos.flags ||| 0x40#32 } } := by
  have hdown : (((2 : Nat) == 4) != r.c.dirInv) = r.c.dirInv := by cases r.c.dirInv <;> rfl
  rw [← hdown]
  simp only [ChR.hallChange, ha, hl, hd]
  exact ⟨_, rfl⟩

/-! ### Index (R306 to R309) -/

/-- R306 a change of Z in the direction of the count is an index event. -/
theorem ChR.pinsTo_index {r : ChR} {new : BitVec 3} (hm : r.c.posMode = 2) (hp : pinPair new = pinPair r.c.pos.pins)
    (hz : r.c.pos.pins.getLsbD 2 = !new.getLsbD 2) (hk : r.c.pos.dirKnown = true) (hd : new.getLsbD 2 = !r.c.pos.down)
    (stamp16 : Nat) : r.pinsTo stamp16 new = (r.withPins new).indexEvent stamp16 := by
  have hne : r.c.pos.pins.getLsbD 2 ≠ new.getLsbD 2 := by rw [hz]; cases new.getLsbD 2 <;> decide
  simp only [ChR.pinsTo_quad (.inr hm), hp, ChR.quadChange_same, if_neg hne]
  exact if_pos ⟨hm, hk, hd⟩

/-- R307 an index event that references the count. -/
theorem ChR.indexEvent_acquire {r : ChR} (h : r.c.pos.acquire = true) (stamp16 : Nat) :
    (r.indexEvent stamp16).c.counting =
      ({ r.c.pos with count := r.c.pos.indexPos % r.c.cpr, referenced := true, acquire := false }, r.c.core.lb) := by
  simp only [ChR.indexEvent, if_pos h]
  split
  · rw [ChR.startEnds_counting]; rfl
  · rfl

/-- R308 an index event that finds the count right. -/
theorem ChR.indexEvent_right {r : ChR} (h : r.c.pos.acquire = false)
    (hd : foldCount r.c.cpr ((r.c.pos.count : Int) - (r.c.pos.indexPos % r.c.cpr : Nat)) = 0) (stamp16 : Nat) :
    r.indexEvent stamp16 = r.pos fun p => { p with errRun := 0 } := by
  simp only [ChR.indexEvent, if_neg (Bool.eq_false_iff.mp h), if_pos hd]

/-- R308, R309 an index event within INDEX_TOL corrects the count. -/
theorem ChR.indexEvent_corrects {r : ChR} {d : Int} (h : r.c.pos.acquire = false)
    (hd : foldCount r.c.cpr ((r.c.pos.count : Int) - (r.c.pos.indexPos % r.c.cpr : Nat)) = d) (hne : d ≠ 0)
    (htol : d.natAbs ≤ fld r.c.pos.cfg 28 24) (stamp16 : Nat) :
    ∃ rev, r.indexEvent stamp16 = r.pos fun p => { p with
      count := r.c.pos.indexPos % r.c.cpr, rev := rev, slip := sat16 (p.slip + d), errRun := 0 } := by
  simp only [ChR.indexEvent, if_neg (Bool.eq_false_iff.mp h), hd, if_neg hne, if_pos htol]
  exact ⟨_, rfl⟩

/-- R308 an index event beyond INDEX_TOL is an index error, and may set POS_FLT. -/
theorem ChR.indexEvent_error {r : ChR} {d : Int} (hlb : r.c.core.lb = none) (h : r.c.pos.acquire = false)
    (hd : foldCount r.c.cpr ((r.c.pos.count : Int) - (r.c.pos.indexPos % r.c.cpr : Nat)) = d)
    (htol : fld r.c.pos.cfg 28 24 < d.natAbs) (stamp16 : Nat) :
    ∃ x, (r.indexEvent stamp16).c.counting = ({ r.c.pos with
      errRun := min 15 (r.c.pos.errRun + 1), flags := r.c.pos.flags ||| 0x10#32, flt := x }, none) := by
  have hne : d ≠ 0 := by rintro rfl; exact absurd htol (Nat.not_lt_zero _)
  simp only [ChR.indexEvent, if_neg (Bool.eq_false_iff.mp h), hd, if_neg hne, if_neg (Nat.not_le.mpr htol)]
  split
  · exact ⟨true, by rw [ChR.qualifyPos_counting (by exact hlb)]; rfl⟩
  · exact ⟨r.c.pos.flt, Chan.counting_eq_iff.mpr ⟨rfl, hlb⟩⟩

end Sys2Proof.Machine
end

section
/-! R148, R296 to R314, R359: POSITION_EDGE, INDEX_EDGE and STANDSTILL. -/
namespace Sys2Proof.Machine

theorem exec_positionEdge (t stamp16 : Nat) (n : ChanId) (a b z : Bool) (s : State) :
    exec (.positionEdge t stamp16 n a b z) s = s.chCmd t n fun r => r.pinChange stamp16 (pinsOf a b z) := by rfl
theorem exec_indexEdge (t stamp16 : Nat) (n : ChanId) (z : Bool) (s : State) :
    exec (.indexEdge t stamp16 n z) s = s.chCmd t n fun r =>
      r.pinChange stamp16 (pinsOf (r.c.balls.getLsbD 0) (r.c.balls.getLsbD 1) z) := by rfl
theorem exec_standstill (t : Nat) (n : ChanId) (s : State) : exec (.standstill t n) s = s.chCmd t n ChR.standstill := by rfl

@[simp] theorem ChR.pinChange_env (r : ChR) (stamp16 : Nat) (new : BitVec 3) : (r.pinChange stamp16 new).env = r.env := by
  simp only [ChR.pinChange]; repeat' split
  all_goals simp [ChR.when_view ChR.env]
@[simp] theorem ChR.standstill_env (r : ChR) : r.standstill.env = r.env := by
  simp only [ChR.standstill]; split <;> simp

/-! ### What a command finds of the channel -/

theorem State.chanAt_of_slot_none {s : State} {t : Nat} {n : ChanId} (h : s.chans[n].adc.slot = none) :
    s.chanAt t n = s.chans[n] := by
  simp only [State.chanAt, State.chanIn, ChR.lanesFirst, State.at_chans, h]

theorem State.chanAt_hallCalm {s : State} {n : ChanId} (t : Nat) (h : s.chans[n].hallCalm) : (s.chanAt t n).hallCalm := by
  obtain hm | hv | hs := h
  · exact .inl (by rw [Chan.posMode, State.chanAt_pos]; exact hm)
  · exact .inr (.inl (by rw [State.chanAt_pos]; exact hv))
  · exact .inr (.inr (by rw [State.chanAt_of_slot_none hs]; exact hs))

/-! ### Qualified changes (R296, R297) -/

/-- R296 a level held for FILT ticks, with no loop-back test and no Hall fault at a sample instant: the sample instant, the
change, and what an edge ends. -/
theorem ChR.pinChange_of_held {r : ChR} {stamp16 : Nat} {new : BitVec 3} (hh : r.pinHeld stamp16 = true)
    (hlb : r.c.core.lb = none) (hc : r.c.hallCalm) :
    ∃ q : ChR, q.SampledFrom r.c ∧ q.env = r.env ∧
      r.pinChange stamp16 new = (q.pinsTo stamp16 new).when (r.c.edgeSeen new) ChR.edgeEnds := by
  obtain ⟨slot, k, hq⟩ := ChR.sampleFirst_calm hlb hc
  have htest : r.sampleFirst.c.posLb = false := Chan.posLb_of_lb_none (by rw [hq]; exact hlb)
  have hseen : r.sampleFirst.c.edgeSeen new = r.c.edgeSeen new := by rw [hq]; rfl
  refine ⟨r.sampleFirst, ⟨slot, k, hq⟩, r.sampleFirst_env, ?_⟩
  simp only [ChR.pinChange, hh, if_true, htest, Bool.false_eq_true, if_false, hseen]

/-- R296 a level first sampled at `stamp16` has been present for FILT ticks in a device that runs, and no loop-back test takes
the place of the pins. -/
structure PinsHeld (s : State) (t stamp16 : Nat) (n : ChanId) : Prop where
  powered : (s.at t).powered = true
  noTest : s.chans[n].core.lb = none
  sampled : stamp16 ≤ 16 * max s.dtime t
  present : fld s.chans[n].pos.cfg 7 0 * tickU ≤ s.chans[n].ticksWithin s.time (stamp16 / 16) (max s.dtime t)

/-- R296 the command of a change of the pins that has been present for FILT ticks. -/
theorem leaves_pinChange {i : Instr} {s : State} {t stamp16 : Nat} {n : ChanId} {f : ChOp} {new : BitVec 3} {P : Chan → Prop}
    (hh : PinsHeld s t stamp16 n) (he : exec i s = s.chCmd t n f)
    (hf : f ((s.at t).chanIn n) = ((s.at t).chanIn n).pinChange stamp16 new) (hc : s.chans[n].hallCalm)
    (h : ∀ r : ChR, r.SampledFrom s.chans[n] → r.env.t = max s.dtime t →
      P ((r.pinsTo stamp16 new).when (s.chans[n].edgeSeen new) ChR.edgeEnds).c) : Leaves i s t n P := by
  obtain ⟨sl, hat⟩ := s.chanAt_eq t n
  have hin : ((s.at t).chanIn n).c = { s.chans[n] with adc := { s.chans[n].adc with slot := sl } } := hat
  have henv : ((s.at t).chanIn n).env = (s.at t).chEnv n := State.chanIn_env _ _
  have hheld : ((s.at t).chanIn n).pinHeld stamp16 = true := by
    simp only [ChR.pinHeld, hin, henv, Bool.and_eq_true, decide_eq_true_eq]
    exact ⟨hh.sampled, hh.present⟩
  obtain ⟨q, ⟨slot, k, hq⟩, hqenv, heq⟩ := ChR.pinChange_of_held (new := new) hheld (by rw [hin]; exact hh.noTest)
    (s.chanAt_hallCalm t hc)
  refine leaves_chCmd f he hh.powered (Nat.le_refl _) ?_ ?_
  · rw [hf, ChR.pinChange_env, henv]; rfl
  · rw [hf, heq, hin]
    exact h q ⟨slot, k, by rw [hq, hin]; rfl⟩ (by rw [hqenv, henv]; rfl)

/-- What such a command leaves of the position unit. -/
theorem leaves_pinChange_pos {i : Instr} {s : State} {t stamp16 : Nat} {n : ChanId} {f : ChOp} {new : BitVec 3}
    (Q : PosS → Prop) (hh : PinsHeld s t stamp16 n) (he : exec i s = s.chCmd t n f)
    (hf : f ((s.at t).chanIn n) = ((s.at t).chanIn n).pinChange stamp16 new) (hc : s.chans[n].hallCalm)
    (h : ∀ r : ChR, r.SampledFrom s.chans[n] → r.env.t = max s.dtime t →
      ∃ p, (r.pinsTo stamp16 new).c.counting = (p, none) ∧ Q p) : Leaves i s t n fun c => Q c.pos := by
  refine leaves_pinChange hh he hf hc fun r hr ht => ?_
  obtain ⟨p, hcount, hQ⟩ := h r hr ht
  obtain ⟨hpos, hnone⟩ := Chan.counting_eq_iff.mp hcount
  rw [ChR.when_keeps (fun x => x.c.pos) _ _ _ (ChR.edgeEnds_pos hnone), hpos]
  exact hQ

/-! ### QUAD and QUAD_INDEX (R298, R299) -/

/-- A change of the pair (A, B), as 2 × A + B, in QUAD, or in QUAD_INDEX with Z as it was. -/
structure PairChange (c : Chan) (new : BitVec 3) (before after : Nat) : Prop where
  mode : c.posMode = 1 ∨ c.posMode = 2 ∧ new.getLsbD 2 = c.pos.pins.getLsbD 2
  before : pinPair c.pos.pins = before
  after : pinPair new = after

namespace PairChange
variable {c : Chan} {new : BitVec 3} {before after : Nat}

theorem posMode_mem (h : PairChange c new before after) : c.posMode = 1 ∨ c.posMode = 2 :=
  h.mode.imp id And.left

theorem hallCalm (h : PairChange c new before after) : c.hallCalm :=
  .inl (by have := h.posMode_mem; omega)

theorem pinsTo {r : ChR} (h : PairChange c new before after) (hr : r.SampledFrom c) (stamp16 : Nat) :
    r.pinsTo stamp16 new = (r.withPins new).quadChange stamp16 before after := by
  obtain ⟨slot, k, hr⟩ := hr
  have hpins : r.c.pos.pins = c.pos.pins := by rw [hr]; rfl
  rw [ChR.pinsTo_pair (by rw [hr]; exact h.mode), hpins, h.before, h.after]

/-- R148, R359 A and B are pins that the mode reads. -/
theorem edgeSeen (h : PairChange c new before after) (hne : before ≠ after) : c.edgeSeen new = true := by
  have hread : ∀ x y : BitVec 3, pinPair x ≠ pinPair y → (x &&& 3 != y &&& 3) = true ∧ (x &&& 7 != y &&& 7) = true := by
    decide
  obtain ⟨h3, h7⟩ := hread c.pos.pins new (by rw [h.before, h.after]; exact hne)
  obtain h1 | h2 := h.posMode_mem
  · simp only [Chan.edgeSeen, h1]; exact h3
  · simp only [Chan.edgeSeen, h2]; exact h7

/-- R298 a change of A or B is one edge. -/
theorem edge {r : ChR} (h : PairChange c new before after) (hr : r.SampledFrom c) (hlb : c.core.lb = none)
    (hsum : before + after ≠ 3) (hne : before ≠ after) {up : Bool}
    (hup : up = (((before, after) == (0, 2) || (before, after) == (2, 3) || (before, after) == (3, 1) ||
      (before, after) == (1, 0)) != bitOf c.pos.cfg 29)) (stamp16 : Nat) :
    ∃ p, (r.pinsTo stamp16 new).c.counting = (p, none) ∧ c.pos.Edge c.cpr up stamp16 p := by
  rw [h.pinsTo hr]
  obtain ⟨e, _, o⟩ := r
  obtain ⟨slot, k, rfl⟩ := hr
  rw [ChR.quadChange_edge hsum hne (by exact hup)]
  exact ⟨_, Chan.counting_eq_iff.mpr ⟨rfl, hlb⟩, (PosS.edge_sampled k new c.pos.sector).mp (PosS.edge_step _ _ _ _)⟩

/-- R299 a change of A and B at once holds the count. -/
theorem both {r : ChR} (h : PairChange c new before after) (hr : r.SampledFrom c) (hlb : c.core.lb = none)
    (hsum : before + after = 3) (stamp16 : Nat) :
    ∃ p, (r.pinsTo stamp16 new).c.counting = (p, none) ∧ p.count = c.pos.count ∧ p.rev = c.pos.rev ∧ p.uncertain = true ∧
      p.n = 0 ∧ p.speed = 0 ∧ p.flags.getLsbD 7 = true := by
  rw [h.pinsTo hr]
  obtain ⟨e, _, o⟩ := r
  obtain ⟨slot, k, rfl⟩ := hr
  rw [ChR.quadChange_both hsum]
  exact ⟨_, Chan.counting_eq_iff.mpr ⟨rfl, hlb⟩, rfl, rfl, rfl, rfl, rfl, by simp⟩

/-- A change of A or B reaches no other unit of the channel. -/
theorem pinsTo_core {r : ChR} (h : PairChange c new before after) (hr : r.SampledFrom c) (stamp16 : Nat) :
    (r.pinsTo stamp16 new).c.core = c.core ∧ (r.pinsTo stamp16 new).c.fcu = c.fcu ∧
    (r.pinsTo stamp16 new).c.posMode = c.posMode := by
  rw [h.pinsTo hr]
  obtain ⟨p, hc, hcfg⟩ := (r.withPins new).quadChange_c stamp16 before after
  obtain ⟨e, _, o⟩ := r
  obtain ⟨slot, k, rfl⟩ := hr
  rw [hc]
  exact ⟨rfl, rfl, congrArg (fld · 31 30) hcfg⟩

end PairChange

end Sys2Proof.Machine
end

section
/-! R300 to R314 on a channel as a command finds it, and the statement on position counting. -/
namespace Sys2Proof.Machine

/-! ### HALL (R300 to R302) -/

section
variable {r : ChR} {c : Chan} {new : BitVec 3}

theorem ChR.SampledFrom.pinsTo_hall (hr : r.SampledFrom c) (hm : c.posMode = 3) (hn : c.pos.pins ≠ new) (stamp16 : Nat) :
    r.pinsTo stamp16 new = (r.withPins new).hallChange stamp16 c.pos.pins.toNat new.toNat := by
  obtain ⟨slot, k, hr⟩ := hr
  have hpins : r.c.pos.pins = c.pos.pins := by rw [hr]; rfl
  rw [ChR.pinsTo_hall (by rw [hr]; exact hm) (by rw [hpins]; exact hn), hpins]

/-- R300, R302 a change to an adjacent sector is one edge. -/
theorem ChR.SampledFrom.hallEdge (hr : r.SampledFrom c) (hlb : c.core.lb = none) (hm : c.posMode = 3)
    (hn : c.pos.pins ≠ new) {l k : Nat} (hl : c.pos.sector = some l) (hk : hallOf new.toNat = some k) {up : Bool}
    (hd : (k + 6 - l) % 6 = 1 ∧ up = !c.dirInv ∨ (k + 6 - l) % 6 = 5 ∧ up = c.dirInv) (stamp16 : Nat) :
    ∃ p, (r.pinsTo stamp16 new).c.counting = (p, none) ∧
      c.pos.Edge c.cpr up (if (hallOf c.pos.pins.toNat).isSome then stamp16 else 16 * r.env.t) p := by
  rw [hr.pinsTo_hall hm hn]
  obtain ⟨e, _, o⟩ := r
  obtain ⟨slot, j, rfl⟩ := hr
  rw [ChR.hallChange_edge hk (by exact hl) (by exact hd)]
  exact ⟨_, Chan.counting_eq_iff.mpr ⟨rfl, hlb⟩, (PosS.edge_sampled j new (some k)).mp (PosS.edge_step _ _ _ _)⟩

/-- R301 a change by two sectors is a skip. -/
theorem ChR.SampledFrom.hallSkip (hr : r.SampledFrom c) (hlb : c.core.lb = none) (hm : c.posMode = 3)
    (hn : c.pos.pins ≠ new) {l k : Nat} (hl : c.pos.sector = some l) (hk : hallOf new.toNat = some k)
    (hd : (k + 6 - l) % 6 = 2) (stamp16 : Nat) :
    ∃ p, (r.pinsTo stamp16 new).c.counting = (p, none) ∧ p.count = (c.pos.steps c.cpr c.dirInv 2).count ∧
      p.down = c.dirInv ∧ p.n = 0 ∧ p.uncertain = true ∧ p.edge = stamp16 ∧ p.flags.getLsbD 6 = true := by
  rw [hr.pinsTo_hall hm hn]
  obtain ⟨e, _, o⟩ := r
  obtain ⟨slot, j, rfl⟩ := hr
  obtain ⟨known, hc⟩ := ChR.hallChange_skip (r := ChR.withPins ⟨e, c.sampled slot j, o⟩ new) (before := c.pos.pins.toNat)
    hk (by exact hl) hd stamp16
  rw [hc]
  exact ⟨_, Chan.counting_eq_iff.mpr ⟨rfl, hlb⟩,
    PosS.steps_two_count (p := { c.pos with invRun := j, pins := new, sector := some k }) (q := c.pos) rfl _ _, rfl, rfl, rfl, rfl, by simp⟩

/-- R302 entry into an invalid state holds the count. -/
theorem ChR.SampledFrom.hallInvalid (hr : r.SampledFrom c) (hlb : c.core.lb = none) (hm : c.posMode = 3)
    (hn : c.pos.pins ≠ new) (hk : hallOf new.toNat = none) (hv : (hallOf c.pos.pins.toNat).isSome = true) (stamp16 : Nat) :
    ∃ p, (r.pinsTo stamp16 new).c.counting = (p, none) ∧ p.count = c.pos.count ∧ p.rev = c.pos.rev ∧
      p.flags.getLsbD 5 = true := by
  rw [hr.pinsTo_hall hm hn]
  obtain ⟨e, _, o⟩ := r
  obtain ⟨slot, j, rfl⟩ := hr
  rw [ChR.hallChange_invalid hk hv]
  exact ⟨_, Chan.counting_eq_iff.mpr ⟨rfl, hlb⟩, rfl, rfl, by simp⟩

end

/-! ### Index (R306 to R309) -/

theorem Chan.balls_of_lb_none {c : Chan} (h : c.core.lb = none) : c.balls = c.pos.pins := by
  simp [Chan.balls, Chan.posLb_of_lb_none h]

theorem sat16_eq (x : Int) : sat16 x = max (-32768) (min 32767 x) := by
  simp only [sat16, clampInt]; omega

/-- R306 a change of Z alone, in the direction of the count. -/
structure IndexChange (c : Chan) (new : BitVec 3) : Prop where
  mode : c.posMode = 2
  known : c.pos.dirKnown = true
  pair : pinPair new = pinPair c.pos.pins
  changed : c.pos.pins.getLsbD 2 = !new.getLsbD 2
  along : new.getLsbD 2 = !c.pos.down

namespace IndexChange
variable {r : ChR} {c : Chan} {new : BitVec 3}

theorem hallCalm (h : IndexChange c new) : c.hallCalm := .inl (by rw [h.mode]; decide)

theorem pinsTo (h : IndexChange c new) (hr : r.SampledFrom c) (stamp16 : Nat) :
    r.pinsTo stamp16 new = (r.withPins new).indexEvent stamp16 := by
  obtain ⟨slot, k, hr⟩ := hr
  have hpins : r.c.pos.pins = c.pos.pins := by rw [hr]; rfl
  exact ChR.pinsTo_index (by rw [hr]; exact h.mode) (by rw [hpins]; exact h.pair) (by rw [hpins]; exact h.changed)
    (by rw [hr]; exact h.known) (by rw [hr]; exact h.along) stamp16

/-- R307 the first index event references the count. -/
theorem references (h : IndexChange c new) (hr : r.SampledFrom c) (hlb : c.core.lb = none) (ha : c.pos.acquire = true)
    (stamp16 : Nat) :
    ∃ p, (r.pinsTo stamp16 new).c.counting = (p, none) ∧ p.count = c.pos.indexPos % c.cpr ∧ p.referenced = true ∧
      p.acquire = false ∧ p.rev = c.pos.rev := by
  rw [h.pinsTo hr]
  obtain ⟨e, _, o⟩ := r
  obtain ⟨slot, k, rfl⟩ := hr
  rw [ChR.indexEvent_acquire (by exact ha)]
  exact ⟨_, Prod.ext rfl hlb, rfl, rfl, rfl, rfl⟩

/-- R308 an index event that finds the count right. -/
theorem finds (h : IndexChange c new) (hr : r.SampledFrom c) (hlb : c.core.lb = none) (ha : c.pos.acquire = false)
    (hd : foldCount c.cpr ((c.pos.count : Int) - (c.pos.indexPos % c.cpr : Nat)) = 0) (stamp16 : Nat) :
    ∃ p, (r.pinsTo stamp16 new).c.counting = (p, none) ∧ p.count = c.pos.count ∧ p.errRun = 0 ∧ p.slip = c.pos.slip := by
  rw [h.pinsTo hr]
  obtain ⟨e, _, o⟩ := r
  obtain ⟨slot, k, rfl⟩ := hr
  rw [ChR.indexEvent_right (by exact ha) (by exact hd)]
  exact ⟨_, Prod.ext rfl hlb, rfl, rfl, rfl⟩

/-- R308, R309 an index event that corrects the count. -/
theorem corrects (h : IndexChange c new) (hr : r.SampledFrom c) (hlb : c.core.lb = none) (ha : c.pos.acquire = false)
    {d : Int} (hd : foldCount c.cpr ((c.pos.count : Int) - (c.pos.indexPos % c.cpr : Nat)) = d) (hne : d ≠ 0)
    (htol : d.natAbs ≤ fld c.pos.cfg 28 24) (stamp16 : Nat) :
    ∃ p, (r.pinsTo stamp16 new).c.counting = (p, none) ∧ p.count = c.pos.indexPos % c.cpr ∧
      p.slip = max (-32768) (min 32767 (c.pos.slip + d)) ∧ p.errRun = 0 := by
  rw [h.pinsTo hr]
  obtain ⟨e, _, o⟩ := r
  obtain ⟨slot, k, rfl⟩ := hr
  obtain ⟨rev, he⟩ := ChR.indexEvent_corrects (r := ChR.withPins ⟨e, c.sampled slot k, o⟩ new) ha hd hne htol stamp16
  rw [he]
  exact ⟨_, Prod.ext rfl hlb, rfl, sat16_eq _, rfl⟩

/-- R308 an index event beyond INDEX_TOL is an index error. -/
theorem errs (h : IndexChange c new) (hr : r.SampledFrom c) (hlb : c.core.lb = none) (ha : c.pos.acquire = false)
    {d : Int} (hd : foldCount c.cpr ((c.pos.count : Int) - (c.pos.indexPos % c.cpr : Nat)) = d)
    (htol : fld c.pos.cfg 28 24 < d.natAbs) (stamp16 : Nat) :
    ∃ p, (r.pinsTo stamp16 new).c.counting = (p, none) ∧ p.count = c.pos.count ∧
      p.errRun = min 15 (c.pos.errRun + 1) ∧ p.flags.getLsbD 4 = true := by
  rw [h.pinsTo hr]
  obtain ⟨e, _, o⟩ := r
  obtain ⟨slot, k, rfl⟩ := hr
  obtain ⟨x, he⟩ := ChR.indexEvent_error (r := ChR.withPins ⟨e, c.sampled slot k, o⟩ new) hlb ha hd htol stamp16
  exact ⟨_, he, rfl, rfl, by simp⟩

end IndexChange

/-! ### Standstill (R314) -/

theorem ChR.standstill_due {r : ChR} (hlb : r.c.core.lb = none) (hm : r.c.posMode ≠ 0) (hs : r.c.pos.still = false)
    (hdue : r.c.pos.stillDue + 16 * max 250 (r.c.ticksNs r.env.time r.env.t (fld r.c.pos.cfg 7 0 + 8)) ≤ 16 * r.env.t) :
    (∃ k x, r.standstill.c.pos =
      { r.c.pos with invRun := k, flt := x, still := true, speed := 0, uncertain := false, n := 0 }) ∧
    r.standstill.c.kept = r.c.kept := by
  obtain ⟨⟨k, x, hc⟩, hk⟩ := ChR.sampleFirst_counting hlb
  obtain ⟨hpos, -⟩ := Chan.counting_eq_iff.mp hc
  simp only [ChR.standstill, if_pos (⟨hm, hs, Chan.posLb_of_lb_none hlb, hdue⟩ : _ ∧ _ ∧ _ ∧ _)]
  exact ⟨⟨k, x, by rw [ChR.pos_c_pos, hpos]⟩, hk⟩

end Sys2Proof.Machine
end

section
/-! O30: the commands of the position unit. -/
namespace Sys2Proof.Machine

/-! ### POSITION_EDGE, INDEX_EDGE -/

section
variable {s : State} {t stamp16 : Nat} {n : ChanId}

theorem leaves_positionEdge_pos {a b z : Bool} (Q : PosS → Prop) (hh : PinsHeld s t stamp16 n) (hc : s.chans[n].hallCalm)
    (h : ∀ r : ChR, r.SampledFrom s.chans[n] → r.env.t = max s.dtime t →
      ∃ p, (r.pinsTo stamp16 (pinsOf a b z)).c.counting = (p, none) ∧ Q p) :
    Leaves (.positionEdge t stamp16 n a b z) s t n fun c => Q c.pos :=
  leaves_pinChange_pos Q hh (exec_positionEdge ..) rfl hc h

/-- R148 a change of A or B aborts an identification. -/
theorem leaves_positionEdge_ident {a b z : Bool} {before after : Nat} (hh : PinsHeld s t stamp16 n)
    (hq : PairChange s.chans[n] (pinsOf a b z) before after) (hne : before ≠ after)
    (hcode : s.chans[n].core.code = .ident) (hi : s.chans[n].core.ident.isSome = true) :
    Leaves (.positionEdge t stamp16 n a b z) s t n fun c =>
      c.core.code = .off ∧ c.core.cause = 0x54 ∧ c.core.ident = none ∧ fld c.core.identRs 31 24 = 3 := by
  refine leaves_pinChange hh (exec_positionEdge ..) rfl hq.hallCalm fun r hr _ => ?_
  obtain ⟨hcore, -, hmode⟩ := hq.pinsTo_core hr stamp16
  rw [hq.edgeSeen hne, ChR.when_true]
  refine ChR.edgeEnds_ident ?_ (by rw [hcore]; exact hcode) (by rw [hcore]; exact hi)
  have := hq.posMode_mem
  omega

/-- R359 a change of A or B ends a discharge through the windings. -/
theorem leaves_positionEdge_discharge {a b z : Bool} {before after : Nat} {d : DisRun} (hh : PinsHeld s t stamp16 n)
    (hq : PairChange s.chans[n] (pinsOf a b z) before after) (hne : before ≠ after)
    (hcode : s.chans[n].core.code = .discharge) (hd : s.chans[n].fcu.dis = some d) (hw : d.mode ≠ 0) :
    Leaves (.positionEdge t stamp16 n a b z) s t n fun c =>
      c.core.code = (if s.chans[n].core.verified then .ready else .off) ∧ c.core.cause = 0x22 ∧ c.fcu.dis = none := by
  refine leaves_pinChange hh (exec_positionEdge ..) rfl hq.hallCalm fun r hr _ => ?_
  obtain ⟨hcore, hfcu, hmode⟩ := hq.pinsTo_core hr stamp16
  rw [hq.edgeSeen hne, ChR.when_true, ← hcore]
  refine ChR.edgeEnds_discharge ?_ (by rw [hcore]; exact hcode) (by rw [hfcu]; exact hd) hw
  have := hq.posMode_mem
  omega

/-- Outside IDENT and DISCHARGE a change of A or B keeps the channel's state. -/
theorem leaves_positionEdge_core {a b z : Bool} {before after : Nat} (hh : PinsHeld s t stamp16 n)
    (hq : PairChange s.chans[n] (pinsOf a b z) before after) (hi : s.chans[n].core.code ≠ .ident)
    (hd : s.chans[n].core.code ≠ .discharge) :
    Leaves (.positionEdge t stamp16 n a b z) s t n fun c => c.core = s.chans[n].core := by
  refine leaves_pinChange hh (exec_positionEdge ..) rfl hq.hallCalm fun r hr _ => ?_
  obtain ⟨hcore, -, -⟩ := hq.pinsTo_core hr stamp16
  have hkeep := ChR.edgeEnds_other (by rw [hcore]; exact hi) (by rw [hcore]; exact hd)
  rw [ChR.when_keeps (fun x => x.c.core) _ _ _ (congrArg (fun x => x.c.core) hkeep), hcore]

/-- The pins that INDEX_EDGE leaves: A and B as they were. -/
theorem leaves_indexEdge_pos {z : Bool} (Q : PosS → Prop) (hh : PinsHeld s t stamp16 n)
    (hi : IndexChange s.chans[n] (pinsOf (s.chans[n].pos.pins.getLsbD 0) (s.chans[n].pos.pins.getLsbD 1) z))
    (h : ∀ r : ChR, r.SampledFrom s.chans[n] → ∃ p,
      (r.pinsTo stamp16 (pinsOf (s.chans[n].pos.pins.getLsbD 0) (s.chans[n].pos.pins.getLsbD 1) z)).c.counting =
        (p, none) ∧ Q p) : Leaves (.indexEdge t stamp16 n z) s t n fun c => Q c.pos := by
  have hballs : ((s.at t).chanIn n).c.balls = s.chans[n].pos.pins :=
    (Chan.balls_of_lb_none ((congrArg CoreS.lb (s.chanAt_core t n)).trans hh.noTest)).trans
      (congrArg PosS.pins (s.chanAt_pos t n))
  exact leaves_pinChange_pos Q hh (exec_indexEdge ..) (by rw [hballs]) hi.hallCalm fun r hr _ => h r hr

theorem IndexChange.of_z {c : Chan} {z : Bool} (hm : c.posMode = 2) (hk : c.pos.dirKnown = true) (hz : z = !c.pos.down)
    (hp : c.pos.pins.getLsbD 2 = !z) :
    IndexChange c (pinsOf (c.pos.pins.getLsbD 0) (c.pos.pins.getLsbD 1) z) := by
  obtain ⟨-, -, h2⟩ := pinsOf_bits (c.pos.pins.getLsbD 0) (c.pos.pins.getLsbD 1) z
  exact ⟨hm, hk, pinPair_pinsOf _ _ _, by rw [h2]; exact hp, by rw [h2]; exact hz⟩

end

/-! ### STANDSTILL -/

theorem leaves_standstill {s : State} {t : Nat} {n : ChanId} (hp : (s.at t).powered = true)
    (hlb : s.chans[n].core.lb = none) (hm : s.chans[n].posMode ≠ 0) (hs : s.chans[n].pos.still = false)
    (hdue : s.chans[n].pos.stillDue +
      16 * max 250 (s.chans[n].ticksNs s.time (max s.dtime t) (fld s.chans[n].pos.cfg 7 0 + 8)) ≤ 16 * max s.dtime t) :
    Leaves (.standstill t n) s t n fun c =>
      c.pos.still = true ∧ c.pos.speed = 0 ∧ c.pos.uncertain = false ∧ c.pos.n = 0 ∧
      c.pos.count = s.chans[n].pos.count ∧ c.kept = s.chans[n].kept := by
  obtain ⟨sl, hat⟩ := s.chanAt_eq t n
  have hin : ((s.at t).chanIn n).c = { s.chans[n] with adc := { s.chans[n].adc with slot := sl } } := hat
  have henv : ((s.at t).chanIn n).env = (s.at t).chEnv n := State.chanIn_env _ _
  obtain ⟨⟨k, x, hpos⟩, hkept⟩ := ChR.standstill_due (r := (s.at t).chanIn n) (by rw [hin]; exact hlb)
    (by rw [hin]; exact hm) (by rw [hin]; exact hs) (by rw [hin, henv]; exact hdue)
  refine leaves_chCmd _ (exec_standstill ..) hp (Nat.le_refl _) (by rw [ChR.standstill_env, henv]; rfl) ?_
  rw [hpos, hkept, hin]
  exact ⟨rfl, rfl, rfl, rfl, rfl, rfl⟩

/-! ### The statement -/

/-- Settles O30: a change of the pins takes the sample instant, which with no loop-back test leaves what is counted; then A, B
and Z act as the mode reads them, and what an edge ends leaves the position unit. -/
theorem positionCounting : Obligations.PositionCounting := by
  intro s t stamp16 n hp c0 p0 now renewed moved hlb
  refine ⟨fun h16 hfilt => ?held, leaves_standstill hp hlb⟩
  have hh : PinsHeld s t stamp16 n := ⟨hp, hlb, h16, hfilt⟩
  refine ⟨fun a b z hm => ?quad, fun a b z l k hm hn hl hlt hk hv => ?hall, fun a b z l k hm hl hlt hk hv hslot hd => ?leave,
    fun a b z hm hk hv => ?enter, fun z hm hk hz hpin => ?index⟩
  case quad =>
    have hq : PairChange c0 (pinsOf a b z) (pinPair p0.pins) (2 * b2n a + b2n b) := by
      obtain ⟨-, -, h2⟩ := pinsOf_bits a b z
      exact ⟨by rw [h2]; exact hm, rfl, pinPair_pinsOf a b z⟩
    refine ⟨fun hsum hne => ?_, fun hsum => ?_, fun hne hcode hi => leaves_positionEdge_ident hh hq hne hcode hi,
      fun d hne hcode hd hw => leaves_positionEdge_discharge hh hq hne hcode hd hw,
      fun _ hi hd => leaves_positionEdge_core hh hq hi hd⟩
    · exact leaves_positionEdge_pos (p0.Edge c0.cpr _ stamp16) hh hq.hallCalm fun r hr _ => hq.edge hr hlb hsum hne rfl _
    · exact leaves_positionEdge_pos (fun p => p.count = p0.count ∧ p.rev = p0.rev ∧ p.uncertain = true ∧ p.n = 0 ∧
        p.speed = 0 ∧ p.flags.getLsbD 7 = true) hh hq.hallCalm fun r hr _ => hq.both hr hlb hsum _
  case hall =>
    have hedge : ∀ up, (k + 6 - l) % 6 = 1 ∧ up = !c0.dirInv ∨ (k + 6 - l) % 6 = 5 ∧ up = c0.dirInv →
        Leaves (.positionEdge t stamp16 n a b z) s t n (moved up stamp16) := fun up hd => by
      refine leaves_positionEdge_pos (p0.Edge c0.cpr up stamp16) hh (.inr (.inl hv)) fun r hr _ => ?_
      have := hr.hallEdge hlb hm (Ne.symm hn) hl hk hd stamp16
      rwa [if_pos hv] at this
    refine ⟨fun hd => hedge _ (.inl ⟨by omega, rfl⟩), fun hd => hedge _ (.inr ⟨by omega, rfl⟩), fun hd => ?_⟩
    exact leaves_positionEdge_pos (fun p => p.count = (p0.steps c0.cpr (bitOf p0.cfg 29) 2).count ∧
      p.down = bitOf p0.cfg 29 ∧ p.n = 0 ∧ p.uncertain = true ∧ p.edge = stamp16 ∧ p.flags.getLsbD 6 = true) hh
      (.inr (.inl hv)) fun r hr _ => hr.hallSkip hlb hm (Ne.symm hn) hl hk (by omega) _
  case leave =>
    have hn : p0.pins ≠ pinsOf a b z := fun h => by rw [← h, hv] at hk; cases hk
    refine leaves_positionEdge_pos (p0.Edge c0.cpr _ _) hh (.inr (.inr hslot)) fun r hr ht => ?_
    have := hr.hallEdge hlb hm hn hl hk (.inl ⟨by omega, rfl⟩) stamp16
    rwa [hv, ht] at this
  case enter =>
    have hn : p0.pins ≠ pinsOf a b z := fun h => by rw [h, hk] at hv; cases hv
    exact leaves_positionEdge_pos (fun p => p.count = p0.count ∧ p.rev = p0.rev ∧ p.flags.getLsbD 5 = true) hh
      (.inr (.inl hv)) fun r hr _ => hr.hallInvalid hlb hm hn hk hv _
  case index =>
    have hi := IndexChange.of_z hm hk hz hpin
    refine ⟨fun ha => ?_, fun ha hd => ?_, fun ha hne htol => ?_, fun ha htol => ?_⟩
    · exact leaves_indexEdge_pos (fun p => p.count = p0.indexPos % c0.cpr ∧ p.referenced = true ∧ p.acquire = false ∧
        p.rev = p0.rev) hh hi fun r hr => hi.references hr hlb ha _
    · exact leaves_indexEdge_pos (fun p => p.count = p0.count ∧ p.errRun = 0 ∧ p.slip = p0.slip) hh hi
        fun r hr => hi.finds hr hlb ha hd _
    · exact leaves_indexEdge_pos (fun p => p.count = p0.indexPos % c0.cpr ∧
        p.slip = max (-32768) (min 32767 (p0.slip + foldCount c0.cpr ((p0.count : Int) - (p0.indexPos % c0.cpr : Nat)))) ∧
        p.errRun = 0) hh hi fun r hr => hi.corrects hr hlb ha rfl hne htol _
    · exact leaves_indexEdge_pos (fun p => p.count = p0.count ∧ p.errRun = min 15 (p0.errRun + 1) ∧
        p.flags.getLsbD 4 = true) hh hi fun r hr => hi.errs hr hlb ha rfl htol _

end Sys2Proof.Machine
end

section
/-! R416: the fields of an instruction word that is built from them. -/
namespace Sys2Proof.Machine

/-! ### Words of an opcode, two register fields and a low half -/

section
variable {op low : Nat} (a b : Fin 32) (hop : op < 64) (hl : low < 65536)
include hop hl

theorem engWord_toNat : (engWord op a b low).toNat = op * 2 ^ 26 + a.val * 2 ^ 21 + b.val * 2 ^ 16 + low := by
  rw [engWord, BitVec.toNat_ofNat, Nat.mod_eq_of_lt (by omega)]

@[simp] theorem opOf_engWord : opOf (engWord op a b low) = op := by
  simp only [opOf, fld, engWord_toNat a b hop hl, Nat.shiftRight_eq_div_pow]; omega
@[simp] theorem fA_engWord : fA (engWord op a b low) = a.val := by
  simp only [fA, fld, engWord_toNat a b hop hl, Nat.shiftRight_eq_div_pow]; omega
@[simp] theorem fB_engWord : fB (engWord op a b low) = b.val := by
  simp only [fB, fld, engWord_toNat a b hop hl, Nat.shiftRight_eq_div_pow]; omega
@[simp] theorem fT_engWord : fT (engWord op a b low) = low := by
  simp only [fT, fld, engWord_toNat a b hop hl, Nat.shiftRight_eq_div_pow]; omega
@[simp] theorem fFn_engWord : fFn (engWord op a b low) = low % 16 := by
  simp only [fFn, fld, engWord_toNat a b hop hl, Nat.shiftRight_eq_div_pow]; omega
@[simp] theorem fld_all_engWord : fld (engWord op a b low) 25 0 = a.val * 2 ^ 21 + b.val * 2 ^ 16 + low := by
  simp only [fld, engWord_toNat a b hop hl, Nat.shiftRight_eq_div_pow]; omega
@[simp] theorem fld_registers_engWord : fld (engWord op a b low) 25 16 = a.val * 32 + b.val := by
  simp only [fld, engWord_toNat a b hop hl, Nat.shiftRight_eq_div_pow]; omega
@[simp] theorem fld_half_engWord : fld (engWord op a b low) 15 0 = low := fT_engWord a b hop hl
@[simp] theorem fld_aboveFn_engWord : fld (engWord op a b low) 15 4 = low / 16 := by
  simp only [fld, engWord_toNat a b hop hl, Nat.shiftRight_eq_div_pow]; omega

end

@[simp] theorem fImm_engWord {op : Nat} (a b : Fin 32) (hop : op < 64) (imm : Half) :
    fImm (engWord op a b imm.toNat) = imm := by
  rw [fImm, fld_half_engWord a b hop imm.isLt, BitVec.ofNat_toNat, BitVec.setWidth_eq]

/-! ### Words of format R -/

/-- The numbers of the functions above 2, as FN holds them. -/
@[simp] theorem fn_val : ((3 : Fin 16) : Nat) = 3 ∧ ((4 : Fin 16) : Nat) = 4 ∧ ((5 : Fin 16) : Nat) = 5 ∧
    ((6 : Fin 16) : Nat) = 6 ∧ ((7 : Fin 16) : Nat) = 7 ∧ ((8 : Fin 16) : Nat) = 8 ∧ ((9 : Fin 16) : Nat) = 9 :=
  ⟨rfl, rfl, rfl, rfl, rfl, rfl, rfl⟩

section
variable {op : Nat} (d s t : Fin 32) (ac : Fin 4) (rnd : Bool) (sh fn : Fin 16)

theorem b2n_lt_two : b2n rnd < 2 := by cases rnd <;> decide

/-- The low half of a word of format R. -/
theorem wordR_low_lt :
    t.val * 2 ^ 11 + ac.val * 2 ^ 9 + b2n rnd * 2 ^ 8 + sh.val * 2 ^ 4 + fn.val < 65536 := by
  have := b2n_lt_two rnd
  omega

variable (hop : op < 64)
include hop

theorem wordR_toNat : (wordR op d s t ac rnd sh fn).toNat = op * 2 ^ 26 + d.val * 2 ^ 21 + s.val * 2 ^ 16 +
    (t.val * 2 ^ 11 + ac.val * 2 ^ 9 + b2n rnd * 2 ^ 8 + sh.val * 2 ^ 4 + fn.val) :=
  engWord_toNat d s hop (wordR_low_lt ..)

@[simp] theorem opOf_wordR : opOf (wordR op d s t ac rnd sh fn) = op := opOf_engWord d s hop (wordR_low_lt ..)
@[simp] theorem fA_wordR : fA (wordR op d s t ac rnd sh fn) = d.val := fA_engWord d s hop (wordR_low_lt ..)
@[simp] theorem fB_wordR : fB (wordR op d s t ac rnd sh fn) = s.val := fB_engWord d s hop (wordR_low_lt ..)
@[simp] theorem fC_wordR : fC (wordR op d s t ac rnd sh fn) = t.val := by
  have := b2n_lt_two rnd
  simp only [fC, fld, wordR_toNat d s t ac rnd sh fn hop, Nat.shiftRight_eq_div_pow]; omega
@[simp] theorem fAc_wordR : fAc (wordR op d s t ac rnd sh fn) = ac.val := by
  have := b2n_lt_two rnd
  simp only [fAc, fld, wordR_toNat d s t ac rnd sh fn hop, Nat.shiftRight_eq_div_pow]; omega
@[simp] theorem fRnd_wordR : fRnd (wordR op d s t ac rnd sh fn) = rnd := by
  have h : (wordR op d s t ac rnd sh fn).toNat / 2 ^ 8 % 2 = b2n rnd := by
    have := b2n_lt_two rnd
    rw [wordR_toNat d s t ac rnd sh fn hop]; omega
  rw [fRnd, bitOf, BitVec.getLsbD, Nat.testBit_eq_decide_div_mod_eq, h]
  cases rnd <;> rfl
@[simp] theorem fSh_wordR : fSh (wordR op d s t ac rnd sh fn) = sh.val := by
  have := b2n_lt_two rnd
  simp only [fSh, fld, wordR_toNat d s t ac rnd sh fn hop, Nat.shiftRight_eq_div_pow]; omega
@[simp] theorem fFn_wordR : fFn (wordR op d s t ac rnd sh fn) = fn.val := by
  simp only [fFn, fld, wordR_toNat d s t ac rnd sh fn hop, Nat.shiftRight_eq_div_pow]; omega
/-- AC, RND and SH together. -/
@[simp] theorem fld_options_wordR :
    fld (wordR op d s t ac rnd sh fn) 10 4 = ac.val * 32 + b2n rnd * 16 + sh.val := by
  have := b2n_lt_two rnd
  simp only [fld, wordR_toNat d s t ac rnd sh fn hop, Nat.shiftRight_eq_div_pow]; omega

end

end Sys2Proof.Machine
end

section
/-! R375, R413 to R418: how the engine of a channel reads and writes its registers, and its arithmetic, in the terms of the
statements. -/
namespace Sys2Proof.Machine

/-! ### Saturation and shifts (R413) -/

theorem clampInt_eq {lo hi : Int} (h : lo ≤ hi) (x : Int) : clampInt lo hi x = max lo (min x hi) := by
  simp only [clampInt]; omega
@[simp] theorem sat16_eq_limited (x : Int) : sat16 x = limited 16 x := clampInt_eq (by decide) x
@[simp] theorem satAcc32_eq_limited (x : Int) : satAcc32 x = limited 32 x := clampInt_eq (by decide) x
@[simp] theorem sat40_eq_limited (x : Int) : sat40 x = limited 40 x := clampInt_eq (by decide) x

theorem shifted_false (x : Int) (k : Nat) : shifted false x k = x / 2 ^ k := by simp [shifted]

/-- Half of an even divisor added before the division rounds to the nearest. -/
theorem rndDiv_two_mul {m : Nat} (hm : 0 < m) (x : Int) :
    rndDiv x (2 * m) = x.sign * ((x.natAbs + m) / (2 * m) : Nat) := by
  have half (a : Nat) : (2 * (a : Int) + (2 * m : Nat)) / (2 * (2 * m : Nat)) = ((a + m) / (2 * m) : Nat) := by
    rw [show (2 * (a : Int) + (2 * m : Nat)) = 2 * ((a + m : Nat) : Int) by omega,
      Int.mul_ediv_mul_of_pos _ _ (by decide)]
    rfl
  obtain hx | rfl | hx := Int.lt_trichotomy x 0
  · have ha : -x = (x.natAbs : Int) := (Int.ofNat_natAbs_of_nonpos (Int.le_of_lt hx)).symm
    rw [rndDiv, if_neg (Int.not_le.mpr hx), ha, half, Int.sign_eq_neg_one_of_neg hx, Int.neg_one_mul]
  · have h0 := half 0
    rw [Nat.zero_add, Nat.div_eq_of_lt (by omega)] at h0
    rw [rndDiv, if_pos (Int.le_refl 0), Int.sign_zero, Int.zero_mul]; exact h0
  · obtain ⟨a, rfl⟩ := Int.eq_ofNat_of_zero_le (Int.le_of_lt hx)
    rw [rndDiv, if_pos (Int.le_of_lt hx), half, Int.sign_eq_one_of_pos hx, Int.one_mul, Int.natAbs_natCast]

@[simp] theorem shrR_eq_shifted (x : Int) (k : Nat) : shrR x k = shifted true x k := by
  cases k with
  | zero => simp only [shrR, rndDiv, shifted, Nat.pow_zero, Int.pow_zero]; split <;> omega
  | succ k =>
    rw [shrR, shifted, if_pos ⟨rfl, Nat.le_add_left ..⟩, Nat.pow_succ', rndDiv_two_mul (Nat.two_pow_pos k)]
    rfl

/-! ### Registers -/

section
variable (n : NleS) (u : RunS) (r : RegsS)

@[simp] theorem eng_shr (rnd : Bool) (x : Int) (k : Nat) : (n.eng u).shr rnd x k = shifted rnd x k := by
  cases rnd
  · exact (shifted_false x k).symm
  · exact shrR_eq_shifted x k

@[simp] theorem eng_mir : (n.eng u).mir = false := rfl
@[simp] theorem eng_dNo (i : Nat) : ((n.eng u).dNo i : Nat) = i % 32 := Nat.mod_mod i 32
@[simp] theorem eng_d (i : Nat) : (n.eng u).d r i = r.dAt i := by
  simp only [EngCfg.d, RegsS.dAt, Fin.getElem_fin, eng_dNo]
@[simp] theorem eng_bits (i : Nat) : (n.eng u).bits r i = r.bits i := by
  simp only [EngCfg.bits, RegsS.bits, Fin.getElem_fin, eng_dNo, eng_mir, Bool.false_eq_true, if_false]
@[simp] theorem eng_setBits (i : Nat) (v : Half) : (n.eng u).setBits r i v = r.putD i v := by
  simp only [EngCfg.setBits, RegsS.putD, eng_dNo, eng_mir, Bool.false_eq_true, if_false]
@[simp] theorem eng_setD (i : Nat) (v : Int) : (n.eng u).setD r i v = r.putNum i v := by
  simp only [EngCfg.setD, RegsS.putNum, RegsS.putD, eng_dNo]
@[simp] theorem eng_aNo (a : Fin 4) : (n.eng u).aNo a = a := by
  ext; simp [EngCfg.aNo, Nat.mod_eq_of_lt a.isLt]
@[simp] theorem eng_acc (a : Fin 4) : (n.eng u).acc r a = r.accAt a := by simp only [EngCfg.acc, RegsS.accAt, eng_aNo]
@[simp] theorem eng_setAcc (a : Fin 4) (v : Int) : (n.eng u).setAcc r a v = r.putAcc a v := by
  simp only [EngCfg.setAcc, RegsS.putAcc, eng_aNo]
@[simp] theorem eng_xNo (x : Fin 4) : (n.eng u).xNo x = x := by
  ext; simp [EngCfg.xNo, Nat.mod_eq_of_lt x.isLt]
@[simp] theorem eng_ix (x : Fin 4) : (n.eng u).ix r x = r.ix[x] := by simp only [EngCfg.ix, eng_xNo]
@[simp] theorem eng_setIx (x : Fin 4) (v : Int) : (n.eng u).setIx r x v = r.putIx x v := by
  simp only [EngCfg.setIx, RegsS.putIx, eng_xNo]; rfl

end

/-! ### Where an instruction goes -/

/-- The effect of an instruction that leaves the registers `r` and does nothing else. -/
def Plan.leaving (r : RegsS) : Plan := { regs := r, writes := [], act := .none }


theorem eng_regOp (n : NleS) (u : RunS) {r : RegsS} (h : r.pc + 1 < 1024) :
    (n.eng u).regOp r = some (.leaving (r.goTo (r.pc + 1))) := by
  have hp : r.pc + 1 < 2 ^ (n.eng u).pcw := h
  simp only [EngCfg.regOp, EngCfg.goOn, EngCfg.next, hp, if_true, Option.map_some]; rfl

/-- R420, R433 a branch whose target lies in the control store. -/
theorem eng_branch (n : NleS) (u : RunS) {r : RegsS} {x : Word} {c : Bool} (hT : fT x < 1024)
    (hc : c = true ∨ r.pc + 1 < 1024) :
    (n.eng u).branch r x c = some (.leaving (r.goTo (if c then fT x else r.pc + 1))) := by
  have hok : (n.eng u).targetOk x = true := decide_eq_true hT
  cases c with
  | true => simp only [EngCfg.branch, hok]; rfl
  | false =>
    simp only [EngCfg.branch, hok, eng_regOp n u (hc.resolve_left Bool.false_ne_true)]; rfl

end Sys2Proof.Machine
end

section
/-! R378, R390 to R394, R430: what a transition, a qualification and the end of a run leave of the loop engine's program. -/
namespace Sys2Proof.Machine

/-- The loop engine but for its enabling and its pending triggers, and the sources that have qualified. -/
def Chan.program (c : Chan) : NleS × BitVec 11 :=
  ({ c.nle with enabled := false, disabledAt := none, pend := Vector.replicate 4 none }, c.prot.latched)

/-! ### Transitions -/

theorem ChR.leaveWaits_program (r : ChR) (new : ChCode) (k : Nat) : (r.leaveWaits new k).c.program = r.c.program := by
  obtain ⟨_, h, -⟩ := r.leaveWaits_c new k
  rw [h]; rfl
theorem ChR.stopPll_program (r : ChR) : r.stopPll.c.program = r.c.program := by
  obtain ⟨_, _, _, h, -⟩ := r.stopPll_c
  rw [h]; rfl
theorem ChR.leaveTrip_program (r : ChR) (old new : ChCode) : (r.leaveTrip old new).c.program = r.c.program := by
  simp only [ChR.leaveTrip]
  iterate 3 rw [ChR.when_kept Chan.program _ _ _ fun _ => by rfl]
theorem ChR.disableNle_program (r : ChR) : r.disableNle.c.program = r.c.program := by
  simp only [ChR.disableNle]; split <;> rfl
/-- R376, R387 only an entry into ARMED clears registers or writes an output word. -/
theorem ChR.intoEngine_program (r : ChR) (old : ChCode) {new : ChCode} (h : (new == .armed) = false) :
    (r.intoEngine old new).c.program = r.c.program := by
  simp only [ChR.intoEngine, h, Bool.false_and, ChR.when_false]
  exact ChR.when_kept Chan.program _ _ _ ChR.disableNle_program
theorem ChR.leaveLanes_program (r : ChR) (old new : ChCode) : (r.leaveLanes old new).c.program = r.c.program := by
  simp only [ChR.leaveLanes]
  iterate 4 rw [ChR.when_kept Chan.program _ _ _ fun _ => by rfl]
theorem ChR.endCmpTest_program (r : ChR) (fails : BitVec 5) (aborted : Bool) :
    (r.endCmpTest fails aborted).c.program = r.c.program := by
  obtain ⟨_, _, h, -⟩ := r.endCmpTest_c fails aborted
  rw [h]; rfl

theorem ChR.goto_program (r : ChR) {new : ChCode} (k : Nat) (h : (new == .armed) = false) :
    (r.goto new k).c.program = r.c.program := by
  simp only [ChR.goto, ChR.event_c]
  rw [ChR.when_kept Chan.program _ _ _ fun x => x.endCmpTest_program _ _]
  calc _ = _ := ChR.leaveLanes_program _ _ _
    _ = _ := ChR.intoEngine_program _ _ h
    _ = _ := ChR.leaveTrip_program _ _ _
    _ = _ := ChR.when_kept Chan.program _ _ _ ChR.stopPll_program
    _ = _ := ChR.leaveWaits_program _ _ _

theorem ChR.abortIdent_program (r : ChR) (reason : Nat) (rs : Option Nat) :
    (r.abortIdent reason rs).c.program = r.c.program := by
  simp only [ChR.abortIdent]; split <;> rfl

/-! ### Qualifications -/

theorem ChR.trip_program (r : ChR) (q : Qual) (qs : List Qual) : (r.trip q qs).c.program = r.c.program := by
  simp only [ChR.trip]
  split
  · split
    · split <;> rfl
    · exact ChR.goto_program _ _ rfl
  · exact ChR.goto_program _ _ rfl

theorem ChR.joinTrip_program (r : ChR) (q : Qual) (qs : List Qual) : (r.joinTrip q qs).c.program = r.c.program := by
  simp only [ChR.joinTrip]
  generalize hw : ChR.when _ _ _ = w
  have hk : w.c.program = r.c.program := by
    rw [← hw, ChR.when_kept Chan.program _ _ _ fun _ => by rfl]; rfl
  split
  · exact (ChR.goto_program _ _ rfl).trans hk
  · exact hk

/-- R441 a qualification is latched; nothing else of the program changes. -/
theorem ChR.qualify_program (r : ChR) (q : Qual) (qs : List Qual) :
    (r.qualify q qs).c.program =
      (r.c.program.1, (q :: qs).foldl (fun m x => m ||| srcBit x.src) r.c.prot.latched) := by
  simp only [ChR.qualify]
  split
  · exact ChR.joinTrip_program _ _ _
  split
  · exact ChR.trip_program _ _ _
  split
  · exact (ChR.goto_program _ _ rfl).trans (ChR.abortIdent_program _ _ _)
  · rw [Chan.program, ChR.emits_c _ _ _ (by intro _ _; rfl)]; split <;> rfl

/-- R394 source LATE: the run is over, ABORT is set. -/
theorem ChR.qualifyLate_program (r : ChR) (cause stamp : Nat) :
    (r.qualifyLate cause stamp).c.program =
      ({ r.c.program.1 with run := none, orphans := 0, flags := r.c.nle.flags ||| 4#32 },
        r.c.prot.latched ||| srcBit 8) :=
  ChR.qualify_program _ _ _

@[simp] theorem ChR.qualifyLate_env (r : ChR) (cause stamp : Nat) : (r.qualifyLate cause stamp).env = r.env := by
  simp [ChR.qualifyLate]

/-! ### The end of a run (R391 to R393, R401, R430) -/

/-- The run, the registers, the data words of the PSM and the program, which the reports of a run's end leave. -/
def NleS.halted (n : NleS) : Option RunS × RegsS × Cells 16 × Cells 32 := (n.run, n.regs, n.psm, n.store)

theorem Chan.halted_of_program {c : Chan} {p : NleS × BitVec 11} (h : c.program = p) : c.nle.halted = p.1.halted :=
  congrArg (fun p => p.1.halted) h

theorem ChR.feCheck_halted (r : ChR) (u : RunS) : (r.feCheck u).c.nle.halted = r.c.nle.halted := by
  simp only [ChR.feCheck]; repeat' split
  all_goals rfl
@[simp] theorem ChR.feCheck_env (r : ChR) (u : RunS) : (r.feCheck u).env = r.env := by
  simp only [ChR.feCheck]; repeat' split
  all_goals rfl

theorem ChR.countLate_halted {r : ChR} (h : r.c.nle.run = none) (stamp : Nat) {note : ChOp}
    (hn : ∀ x, (note x).c = x.c) : (r.countLate stamp note).c.nle.halted = r.c.nle.halted := by
  simp only [ChR.countLate]
  split
  · refine (Chan.halted_of_program (ChR.qualifyLate_program _ _ _)).trans ?_
    simp only [hn, NleS.halted, Chan.program, ChR.nle_c_nle, h]
  · rw [hn]; rfl
theorem ChR.countLate_env (r : ChR) (stamp : Nat) {note : ChOp} (hn : ∀ x, (note x).env = x.env) :
    (r.countLate stamp note).env = r.env := by
  simp only [ChR.countLate]; split <;> simp [hn]

theorem ChR.updateDone_halted {r : ChR} (h : r.c.nle.run = none) (u : RunS) :
    (r.updateDone u).c.nle.halted = r.c.nle.halted := by
  simp only [ChR.updateDone]
  generalize hw : ChR.feCheck _ u = w
  have hf : w.c.nle.halted = r.c.nle.halted := by rw [← hw, ChR.feCheck_halted]; rfl
  have hrun : w.c.nle.run = none := (congrArg Prod.fst hf).trans h
  split
  · exact (ChR.countLate_halted (by exact hrun) _ (by intro _; rfl)).trans hf
  · exact hf
@[simp] theorem ChR.updateDone_env (r : ChR) (u : RunS) : (r.updateDone u).env = r.env := by
  simp only [ChR.updateDone]; split
  · rw [ChR.countLate_env _ _ (by intro _; rfl)]; simp
  · simp

@[simp] theorem ChR.hostDone_env (r : ChR) : r.hostDone.env = r.env := by
  simp only [ChR.hostDone]; split <;> rfl
theorem ChR.hostDone_halted (r : ChR) : r.hostDone.c.nle.halted = r.c.nle.halted := by
  simp only [ChR.hostDone]; split <;> rfl

/-- R430 END: the run is over; registers, data words and program stand. -/
theorem ChR.runEnd_halted (r : ChR) :
    r.runEnd.c.nle.halted = (none, r.c.nle.regs, r.c.nle.psm, r.c.nle.store) := by
  simp only [ChR.runEnd]
  split
  · rename_i h; simp only [NleS.halted, h]
  · split
    · exact ChR.updateDone_halted rfl _
    · exact ChR.hostDone_halted _
    · rfl
@[simp] theorem ChR.runEnd_env (r : ChR) : r.runEnd.env = r.env := by
  simp only [ChR.runEnd]; repeat' split
  all_goals simp

end Sys2Proof.Machine
end

section
/-! R372, R378, R420, R433, R434: the word at the PC of a channel's run, executed by the command of its row. -/
namespace Sys2Proof.Machine

/-- R420 each row of the engines' instructions executes the word at the PC under its opcode. -/
theorem exec_engineRow {op : Nat} {mk : Nat → Eng → EngFault → Instr} (h : (op, mk) ∈ engineRows) (t : Nat) (e : Eng)
    (f : EngFault) (s : State) : exec (mk t e f) s = s.engine t e op f := by
  have all : ∀ row ∈ engineRows, exec (row.2 t e f) s = s.engine t e row.1 f := by
    simp only [engineRows, List.forall_mem_cons]
    repeat' constructor
    simp
  exact all _ h

/-- R382, R383 only loads, stores and DSET wait. -/
theorem RunS.stalls_of_op (u : RunS) (g : EngCfg) (r : RegsS) {x : Word} (h : opOf x ∉ [0x10, 0x11, 0x14, 0x15, 0x19]) :
    u.stalls g r x = false := by
  simp only [List.mem_cons, List.not_mem_nil, or_false, not_or] at h
  obtain ⟨h10, h11, h14, h15, h19⟩ := h
  have hvbus : (opOf x == 0x10 || opOf x == 0x14) = false := by simp [h10, h14]
  simp only [RunS.stalls, hvbus, Bool.and_false, Bool.false_and, Bool.or_false]
  exact Bool.and_false _

/-! ### One instruction of a run -/

@[simp] theorem ChR.tagStep_env (r : ChR) (u : RunS) (pc : Nat) : (r.tagStep u pc).env = r.env := by
  simp only [ChR.tagStep]; repeat' split
  all_goals rfl
/-- R405 an instruction counted for the tagging unit changes nothing else. -/
theorem ChR.tagStep_c (r : ChR) (u : RunS) (pc : Nat) :
    (r.tagStep u pc).c = { r.c with tag := (r.tagStep u pc).c.tag } := by
  simp only [ChR.tagStep]; repeat' split
  all_goals rfl

@[simp] theorem ChR.engStop_env (r : ChR) (parity : Bool) : (r.engStop parity).env = r.env := by
  simp only [ChR.engStop]; split <;> simp
/-- R378 an exception: the run is over, the registers stand, EXC is set, source LATE qualifies. -/
theorem ChR.engStop_exception (r : ChR) :
    (r.engStop false).c.nle.run = none ∧ (r.engStop false).c.nle.regs = r.c.nle.regs ∧
    (r.engStop false).c.nle.flags.getLsbD 3 = true ∧ (r.engStop false).c.prot.latched.getLsbD 8 = true := by
  have h := (r.nle fun n => { n with flags := n.flags ||| 8#32 }).qualifyLate_program 2 r.env.t
  refine ⟨congrArg (fun p => p.1.run) h, congrArg (fun p => p.1.regs) h, ?_, ?_⟩
  · refine (congrArg (fun p => p.1.flags.getLsbD 3) h).trans ?_
    simp
  · refine (congrArg (fun p => p.2.getLsbD 8) h).trans ?_
    simp [srcBit]

/-- R372, R433 the run `u` of a channel may execute the word `x` at its PC under the row of opcode `op`, and need not wait. -/
structure ChR.Executes (r : ChR) (u : RunS) (op : Nat) (x : Word) : Prop where
  run : r.c.nle.run = some u
  word : Cells.get 0 r.c.nle.store r.c.nle.regs.pc = x
  row : opOf x = op
  inTime : r.c.nle.overdue r.env.t = false
  counted : u.count < 65536
  ready : u.stalls (r.c.nle.eng u) r.c.nle.regs x = false

/-- R420, R434 the effect `p` of an instruction of the run `u`. -/
def ChR.effect (r : ChR) (u : RunS) (p : Plan) : ChR :=
  let r1 := ((r.nle fun n => { n with regs := p.regs, run := some { u with count := u.count + 1 } }).ioWrites
    r.c.nle.regs.pc p.writes).tagStep u r.c.nle.regs.pc
  match p.act with
  | .finish => r1.runEnd
  | .dset => r1.dset u
  | _ => r1

/-- R420, R433 the word at the PC is executed, or stops the run. -/
theorem ChR.Executes.instr_eq {r : ChR} {u : RunS} {op : Nat} {x : Word} {f : EngFault} (h : r.Executes u op x)
    (hf : f.parity = false) :
    r.instr op f = ((r.c.nle.eng u).plan r.c.nle.regs x).elim (r.engStop false) (r.effect u) := by
  have hrow : (listedOp (opOf x) && opOf x != op) = false := by simp [h.row]
  simp only [ChR.instr, h.run, h.word, hrow, h.inTime, h.ready, hf, decide_eq_false (Nat.not_le_of_lt h.counted), Bool.or_self,
    Bool.false_eq_true, if_false]
  cases (r.c.nle.eng u).plan r.c.nle.regs x <;> rfl

@[simp] theorem ChR.effect_leaving_env (r : ChR) (u : RunS) (r' : RegsS) : (r.effect u (.leaving r')).env = r.env :=
  ChR.tagStep_env ..
/-- An effect on registers alone: they are written, and the instruction is counted. -/
theorem ChR.effect_leaving_c (r : ChR) (u : RunS) (r' : RegsS) :
    (r.effect u (.leaving r')).c =
      { r.c with nle := { r.c.nle with regs := r', run := some { u with count := u.count + 1 } },
                 tag := (r.effect u (.leaving r')).c.tag } :=
  ChR.tagStep_c ..

/-! ### The command of a row -/

section
variable {s : State} {t : Nat} {n : ChanId} {u : RunS} {op : Nat} {mk : Nat → Eng → EngFault → Instr} {x : Word}

/-- What a command finds of a run that stands at `x`. -/
theorem Runs.executes (hr : Runs s t n u) (hx : Stands s n x) (hop : opOf x = op)
    (hw : op ∉ [0x10, 0x11, 0x14, 0x15, 0x19]) : ((s.at t).chanIn n).Executes u op x := by
  obtain ⟨-, hrun, hcount, htime⟩ := hr
  have hnle : ((s.at t).chanIn n).c.nle = s.chans[n].nle := s.chanAt_nle t n
  refine ⟨by rw [hnle, hrun], by rw [hnle]; exact hx, hop, ?_, hcount, RunS.stalls_of_op _ _ _ (by rw [hop]; exact hw)⟩
  rw [hnle, State.chanIn_env]; exact htime

/-- A word that stands at the PC is executed, or stops the run. -/
theorem leaves_engineRow {P : Chan → Prop} (hrow : (op, mk) ∈ engineRows) (hw : op ∉ [0x10, 0x11, 0x14, 0x15, 0x19])
    (hop : opOf x = op) (hr : Runs s t n u) (hx : Stands s n x) {f : EngFault} (hf : f.parity = false) {p : Option Plan}
    (hp : (s.chans[n].nle.eng u).plan s.chans[n].nle.regs x = p)
    (henv : ∀ r : ChR, (p.elim (r.engStop false) (r.effect u)).env = r.env)
    (h : ∀ r : ChR, r.c = s.chanAt t n → P (p.elim (r.engStop false) (r.effect u)).c) : Leaves (mk t (.ch n) f) s t n P := by
  have hnle : ((s.at t).chanIn n).c.nle = s.chans[n].nle := s.chanAt_nle t n
  have hi := (hr.executes hx hop hw).instr_eq hf
  rw [hnle, hp] at hi
  refine leaves_chCmd (ChR.instr op f) (exec_engineRow hrow ..) hr.1 (Nat.le_refl _) ?_ ?_
  · rw [hi, henv, State.chanIn_env]; rfl
  · rw [hi]; exact h _ rfl

/-- A word whose effect is on registers alone. -/
theorem stepsTo_of_plan (op : Nat) {r' : RegsS} (hr : Runs s t n u)
    (hplan : (s.chans[n].nle.eng u).plan s.chans[n].nle.regs x = some (.leaving r')) (hop : opOf x = op := by simp)
    (hrow : (op, mk) ∈ engineRows := by simp [engineRows])
    (hw : op ∉ [0x10, 0x11, 0x14, 0x15, 0x19] := by decide) (hx : Stands s n x) : StepsTo mk s t n u r' :=
  fun _ hf => leaves_engineRow hrow hw hop hr hx hf hplan (fun r => r.effect_leaving_env u r') fun r hc => by
    rw [← s.chanAt_nle t n, ← hc]; exact r.effect_leaving_c u r'

/-- A word without an effect. -/
theorem refuses_of_plan (op : Nat) (hr : Runs s t n u)
    (hplan : (s.chans[n].nle.eng u).plan s.chans[n].nle.regs x = none) (hop : opOf x = op := by simp)
    (hrow : (op, mk) ∈ engineRows := by simp [engineRows])
    (hw : op ∉ [0x10, 0x11, 0x14, 0x15, 0x19] := by decide) (hx : Stands s n x) : Refuses mk s t n :=
  fun _ hf => leaves_engineRow hrow hw hop hr hx hf hplan (fun r => r.engStop_env false) fun r hc => by
    rw [← s.chanAt_nle t n, ← hc]; exact r.engStop_exception

/-- A word that goes on to the next instruction. -/
theorem stepsTo_of_regOp (op : Nat) {r' : RegsS} (hr : Runs s t n u) (hpc : s.chans[n].nle.regs.pc + 1 < 1024)
    (hplan : (s.chans[n].nle.eng u).plan s.chans[n].nle.regs x = (s.chans[n].nle.eng u).regOp r')
    (hpc' : r'.pc = s.chans[n].nle.regs.pc := by rfl) (hop : opOf x = op := by simp)
    (hrow : (op, mk) ∈ engineRows := by simp [engineRows])
    (hw : op ∉ [0x10, 0x11, 0x14, 0x15, 0x19] := by decide) (hx : Stands s n x) :
    StepsTo mk s t n u (r'.goTo (s.chans[n].nle.regs.pc + 1)) :=
  stepsTo_of_plan op hr (by rw [hplan, eng_regOp _ _ (hpc' ▸ hpc), hpc']) hop hrow hw hx

/-- A word of format B, which goes to its target `T` where `p` holds, and on where it does not. -/
theorem stepsTo_of_branch {op T : Nat} {a b : Fin 32} {r' : RegsS} {p : Prop} [Decidable p] (hr : Runs s t n u)
    (hT : T < 1024) (hplan : (s.chans[n].nle.eng u).plan s.chans[n].nle.regs (engWord op a b T) =
      (s.chans[n].nle.eng u).branch r' (engWord op a b T) (decide p)) (hop : op < 64 := by decide)
    (hrow : (op, mk) ∈ engineRows := by simp [engineRows])
    (hw : op ∉ [0x10, 0x11, 0x14, 0x15, 0x19] := by decide)
    (hx : Stands s n (engWord op a b T)) (hok : p ∨ r'.pc + 1 < 1024) :
    StepsTo mk s t n u (r'.goTo (if p then T else r'.pc + 1)) := by
  have htarget : fT (engWord op a b T) = T := fT_engWord a b hop (by omega)
  refine stepsTo_of_plan op hr ?_ (opOf_engWord a b hop (by omega)) hrow hw hx
  rw [hplan, eng_branch _ _ (by rw [htarget]; exact hT) (hok.imp_left fun h => decide_eq_true h), htarget]
  simp only [decide_eq_true_eq]

end

end Sys2Proof.Machine
end

section
/-! R420, R425, R430, R433: control flow in a channel. -/
namespace Sys2Proof.Machine

/-! ### The effect of each word -/

/-- R425 no condition is assigned to 6 and above. -/
theorem eng_cond_none (n : NleS) (u : RunS) {c : Nat} {v : Int} (h : 6 ≤ c) : (n.eng u).cond c v = none := by
  obtain ⟨k, rfl⟩ := Nat.exists_eq_add_of_le' h; rfl

theorem EngCfg.opBcz_eq (g : EngCfg) (r : RegsS) (x : Word) :
    g.opBcz r x = (g.cond (fB x) (g.d r (fA x))).bind (g.branch r x) := by
  rw [EngCfg.opBcz]; cases g.cond (fB x) (g.d r (fA x)) <;> rfl

section
variable (n : NleS) (u : RunS) (r : RegsS) (a b : Fin 32) {T : Nat} (hT : T < 65536)

theorem plan_nop : (n.eng u).plan r (engWord 0x01 0 0 0) = (n.eng u).regOp r := by
  simp [EngCfg.plan, EngCfg.opNop, bareN]

theorem plan_end :
    (n.eng u).plan r (engWord 0x02 0 0 0) = some { regs := r, writes := [], act := .finish } := by
  simp [EngCfg.plan, EngCfg.opEnd, bareN]

theorem plan_jr (h : (r.bits b).toNat < 1024) :
    (n.eng u).plan r (engWord 0x05 0 b 0) = some (.leaving (r.goTo (r.bits b).toNat)) := by
  have hpcw : (n.eng u).pcw = 10 := rfl
  simp [EngCfg.plan, EngCfg.opJr, hpcw, h, Plan.leaving, RegsS.goTo]

include hT

theorem plan_jmp : (n.eng u).plan r (engWord 0x03 0 0 T) = (n.eng u).branch r (engWord 0x03 0 0 T) true := by
  simp [EngCfg.plan, EngCfg.opJmp, hT]

theorem plan_jal : (n.eng u).plan r (engWord 0x04 a 0 T) =
    (n.eng u).branch (r.putNum a (r.pc + 1)) (engWord 0x04 a 0 T) true := by
  have hv : BitVec.ofNat 16 (r.pc + 1) = BitVec.ofInt 16 (r.pc + 1) := (BitVec.ofInt_natCast 16 (r.pc + 1)).symm
  simp [EngCfg.plan, EngCfg.opJal, hT, hv, RegsS.putNum]

theorem plan_beq : (n.eng u).plan r (engWord 0x06 a b T) =
    (n.eng u).branch r (engWord 0x06 a b T) (decide (r.dAt a = r.dAt b)) := by
  simp [EngCfg.plan, EngCfg.opBeq, hT]
theorem plan_bne : (n.eng u).plan r (engWord 0x07 a b T) =
    (n.eng u).branch r (engWord 0x07 a b T) (decide (r.dAt a ≠ r.dAt b)) := by
  simp [EngCfg.plan, EngCfg.opBne, hT]
theorem plan_blt : (n.eng u).plan r (engWord 0x08 a b T) =
    (n.eng u).branch r (engWord 0x08 a b T) (decide (r.dAt a < r.dAt b)) := by
  simp [EngCfg.plan, EngCfg.opBlt, hT]
theorem plan_bge : (n.eng u).plan r (engWord 0x09 a b T) =
    (n.eng u).branch r (engWord 0x09 a b T) (decide (r.dAt b ≤ r.dAt a)) := by
  simp [EngCfg.plan, EngCfg.opBge, hT]

/-- R425 BCZ asks condition `b` of the register. -/
theorem plan_bcz : (n.eng u).plan r (engWord 0x0A a b T) =
    ((n.eng u).cond b (r.dAt a)).bind ((n.eng u).branch r (engWord 0x0A a b T)) := by
  simp [EngCfg.plan, EngCfg.opBcz_eq, hT]

/-- LOOP counts down, and asks the count that is left. -/
theorem plan_loop {x : Fin 4} {left : Nat} (hl : left = (r.ix[x] + 1023) % 1024) (hix : r.ix[x] < 1024) :
    (n.eng u).plan r (engWord 0x0B ⟨x.val, by omega⟩ 0 T) =
      (n.eng u).branch (r.putIx x left) (engWord 0x0B ⟨x.val, by omega⟩ 0 T) (decide (left ≠ 0)) := by
  have hput : (n.eng u).setIx r x ((r.ix[x] : Int) - 1) = r.putIx x left := by
    have : (((r.ix[x] : Int) - 1) % 1024).toNat = ((left : Int) % 1024).toNat := by omega
    rw [eng_setIx, RegsS.putIx, this, RegsS.putIx]
  have hget : (n.eng u).ix (r.putIx x left) x = left := by
    have : ((left : Int) % 1024).toNat = left := by omega
    simp [RegsS.putIx, this]
  have hop : opOf (engWord 0x0B ⟨x.val, by omega⟩ 0 T) = 0x0B := by simp [hT]
  have ha : fA (engWord 0x0B ⟨x.val, by omega⟩ 0 T) = x.val := by simp [hT]
  have hb : fB (engWord 0x0B ⟨x.val, by omega⟩ 0 T) = 0 := by simp [hT]
  simp only [EngCfg.plan, hop, EngCfg.opLoop, ha, hb, x.isLt, eng_ix, hput, hget, and_self, if_true]

/-- BBS and BBC ask bit `b` of the register. -/
theorem plan_bbs (hb : b.val < 16) : (n.eng u).plan r (engWord 0x0C a b T) =
    (n.eng u).branch r (engWord 0x0C a b T) (decide ((r.bits a).getLsbD b = true)) := by
  simp [EngCfg.plan, EngCfg.opBit, hT, hb]
theorem plan_bbc (hb : b.val < 16) : (n.eng u).plan r (engWord 0x0D a b T) =
    (n.eng u).branch r (engWord 0x0D a b T) (decide ((r.bits a).getLsbD b = false)) := by
  simp [EngCfg.plan, EngCfg.opBit, hT, hb]

end

end Sys2Proof.Machine
end

section
/-! O34: the control-flow instructions of a channel. -/
namespace Sys2Proof.Machine

section
variable {s : State} {t : Nat} {n : ChanId} {u : RunS}

/-- R430 END ends the run; registers, data words and program stand. -/
theorem leaves_endRun (hr : Runs s t n u) (hx : Stands s n (engWord 0x02 0 0 0)) {f : EngFault} (hf : f.parity = false) :
    Leaves (.endRun t (.ch n) f) s t n fun c =>
      c.nle.run = none ∧ c.nle.regs = s.chans[n].nle.regs ∧ c.nle.psm = s.chans[n].nle.psm ∧
      c.nle.store = s.chans[n].nle.store := by
  refine leaves_engineRow (op := 0x02) (by simp [engineRows]) (by decide) (by simp) hr hx hf (plan_end _ _ _)
    (fun r => ?_) fun r hc => ?_
  · exact (ChR.runEnd_env _).trans (ChR.tagStep_env ..)
  · have h := ChR.runEnd_halted
      ((r.nle fun m => { m with regs := s.chans[n].nle.regs, run := some { u with count := u.count + 1 } }).tagStep u
        r.c.nle.regs.pc)
    rw [ChR.tagStep_c, ← s.chanAt_nle t n, ← hc] at h
    simp only [NleS.halted, Prod.mk.injEq] at h
    rw [← s.chanAt_nle t n, ← hc]
    exact h

end

/-- Settles O34: the effect of each word, at the target that its condition chooses. -/
theorem engineControlFlow : Obligations.EngineControlFlow := by
  intro s t n u a b T hr hT r brn ok
  have hT' : T < 65536 := by omega
  have asks {k : Nat} {p : Prop} [Decidable p] (hb : b.val = k)
      (hc : (s.chans[n].nle.eng u).cond k (r.dAt a) = some (decide p)) :
      (s.chans[n].nle.eng u).plan r (engWord 0x0A a b T) =
        (s.chans[n].nle.eng u).branch r (engWord 0x0A a b T) (decide p) := by
    rw [plan_bcz _ _ _ _ _ hT', hb, hc, Option.bind_some]
  refine ⟨fun hx hpc => stepsTo_of_regOp 0x01 hr hpc (plan_nop _ _ _) (hx := hx), fun hx _ hf => leaves_endRun hr hx hf,
    fun hx => ?jmp, fun hx => ?jal, fun hx h => ?jr, ?beq, ?bne, ?blt, ?bge, fun hx => ?bcz, ?loop, ?bbs, ?bbc⟩
  case jmp => exact stepsTo_of_branch (p := True) hr hT (plan_jmp _ _ _ hT') (hx := hx) (hok := .inl trivial)
  case jal => exact stepsTo_of_branch (p := True) hr hT (plan_jal _ _ _ _ hT') (hx := hx) (hok := .inl trivial)
  case jr => exact stepsTo_of_plan 0x05 hr (plan_jr _ _ _ _ h) (hx := hx)
  case beq => exact stepsTo_of_branch hr hT (plan_beq _ _ _ _ _ hT')
  case bne => exact stepsTo_of_branch hr hT (plan_bne _ _ _ _ _ hT')
  case blt => exact stepsTo_of_branch hr hT (plan_blt _ _ _ _ _ hT')
  case bge => exact stepsTo_of_branch hr hT (plan_bge _ _ _ _ _ hT')
  case bcz =>
    refine ⟨fun hb => ?_, fun hb => ?_, fun hb => ?_, fun hb => ?_, fun hb => ?_, fun hb => ?_, fun hb => ?_⟩
    iterate 6 exact stepsTo_of_branch hr hT (asks hb rfl) (hx := hx)
    exact refuses_of_plan 0x0A hr (by rw [plan_bcz _ _ _ _ _ hT', eng_cond_none _ _ hb]; rfl)
      (opOf_engWord a b (by decide) hT') (hx := hx)
  case loop => exact fun x hx hix => stepsTo_of_branch hr hT (plan_loop _ _ _ hT' rfl hix) (hx := hx)
  case bbs => exact fun hx hb => stepsTo_of_branch hr hT (plan_bbs _ _ _ _ _ hT' hb) (hx := hx)
  case bbc => exact fun hx hb => stepsTo_of_branch hr hT (plan_bbc _ _ _ _ _ hT' hb) (hx := hx)

end Sys2Proof.Machine
end

section
/-! R331, R414, R420 to R422: moves, immediates, index registers, SINCOS, arithmetic and logic on D registers. -/
namespace Sys2Proof.Machine

/-! ### Moves, immediates, index registers, SINCOS -/

section
variable (n : NleS) (u : RunS) (r : RegsS) (d a b : Fin 32) (x : Fin 4) (imm : Half)

theorem RegsS.putNum_dAt (i j : Nat) : r.putNum i (r.dAt j) = r.putD i (r.bits j) := by
  rw [RegsS.putNum, RegsS.dAt, BitVec.ofInt_toInt]; rfl

theorem plan_ldi : (n.eng u).plan r (engWord 0x12 d 0 imm.toNat) = (n.eng u).regOp (r.putD d imm) := by
  simp [EngCfg.plan, EngCfg.opLdi, imm.isLt]
theorem plan_mov : (n.eng u).plan r (engWord 0x13 d a 0) = (n.eng u).regOp (r.putD d (r.bits a)) := by
  simp [EngCfg.plan, EngCfg.opMov, RegsS.putNum_dAt]
theorem plan_lix :
    (n.eng u).plan r (engWord 0x16 ⟨x.val, by omega⟩ 0 imm.toNat) = (n.eng u).regOp (r.putIx x imm.toNat) := by
  simp [EngCfg.plan, EngCfg.opLix, imm.isLt]
theorem plan_aix : (n.eng u).plan r (engWord 0x17 ⟨x.val, by omega⟩ 0 imm.toNat) =
    (n.eng u).regOp (r.putIx x (r.ix[x] + imm.toInt)) := by
  simp [EngCfg.plan, EngCfg.opAix, imm.isLt]
theorem plan_mix_toIx : (n.eng u).plan r (engWord 0x18 ⟨x.val, by omega⟩ a 0) =
    (n.eng u).regOp (r.putIx x (r.bits a).toNat) := by
  simp [EngCfg.plan, EngCfg.opMix]
theorem plan_mix_toD : (n.eng u).plan r (engWord 0x18 d ⟨x.val, by omega⟩ 1) =
    (n.eng u).regOp (r.putD d (BitVec.ofNat 16 r.ix[x])) := by
  simp [EngCfg.plan, EngCfg.opMix]
theorem plan_sincos : (n.eng u).plan r (engWord 0x1A d a 0) =
    (n.eng u).regOp ((r.putNum d (sin16 (r.bits a).toNat)).putNum (d.val + 1) (cos16 (r.bits a).toNat)) := by
  simp [EngCfg.plan, EngCfg.opSincos, RegsS.putNum]

end

/-! ### Arithmetic and logic -/

/-- R421 functions 10 and above are not assigned; NEG and ABS have no second operand. -/
theorem EngCfg.aluFn_none (g : EngCfg) (r : RegsS) {x : Word}
    (h : 10 ≤ fFn x ∨ ((fFn x = 7 ∨ fFn x = 8) ∧ fC x ≠ 0)) : g.aluFn r x = none := by
  obtain hfn | ⟨hfn | hfn, hC⟩ := h
  · obtain ⟨k, hk⟩ := Nat.exists_eq_add_of_le' hfn
    simp only [EngCfg.aluFn, hk]
  · simp only [EngCfg.aluFn, hfn, hC, if_false]
  · simp only [EngCfg.aluFn, hfn, hC, if_false]

section
variable (n : NleS) (u : RunS) (r : RegsS) (d a b : Fin 32) (ac : Fin 4) (rnd : Bool) (sh fn : Fin 16) (imm : Half)

/-- R421 an ALU word whose fields AC, RND and SH are 0. -/
theorem plan_alu : (n.eng u).plan r (wordR 0x20 d a b 0 false 0 fn) =
    ((n.eng u).aluFn r (wordR 0x20 d a b 0 false 0 fn)).bind (n.eng u).regOp := by
  simp [EngCfg.plan, EngCfg.opAlu, b2n]

theorem plan_alu_add : (n.eng u).plan r (wordR 0x20 d a b 0 false 0 0) =
    (n.eng u).regOp (r.putNum d (limited 16 (r.dAt a + r.dAt b))) := by
  simp [plan_alu, EngCfg.aluFn]
theorem plan_alu_sub : (n.eng u).plan r (wordR 0x20 d a b 0 false 0 1) =
    (n.eng u).regOp (r.putNum d (limited 16 (r.dAt a - r.dAt b))) := by
  simp [plan_alu, EngCfg.aluFn]
theorem plan_alu_min : (n.eng u).plan r (wordR 0x20 d a b 0 false 0 2) =
    (n.eng u).regOp (r.putNum d (min (r.dAt a) (r.dAt b))) := by
  simp [plan_alu, EngCfg.aluFn]
theorem plan_alu_max : (n.eng u).plan r (wordR 0x20 d a b 0 false 0 3) =
    (n.eng u).regOp (r.putNum d (max (r.dAt a) (r.dAt b))) := by
  simp [plan_alu, EngCfg.aluFn]
theorem plan_alu_and : (n.eng u).plan r (wordR 0x20 d a b 0 false 0 4) =
    (n.eng u).regOp (r.putD d (r.bits a &&& r.bits b)) := by
  simp [plan_alu, EngCfg.aluFn]
theorem plan_alu_or : (n.eng u).plan r (wordR 0x20 d a b 0 false 0 5) =
    (n.eng u).regOp (r.putD d (r.bits a ||| r.bits b)) := by
  simp [plan_alu, EngCfg.aluFn]
theorem plan_alu_xor : (n.eng u).plan r (wordR 0x20 d a b 0 false 0 6) =
    (n.eng u).regOp (r.putD d (r.bits a ^^^ r.bits b)) := by
  simp [plan_alu, EngCfg.aluFn]
theorem plan_alu_neg : (n.eng u).plan r (wordR 0x20 d a 0 0 false 0 7) =
    (n.eng u).regOp (r.putNum d (limited 16 (-r.dAt a))) := by
  simp [plan_alu, EngCfg.aluFn]
theorem plan_alu_abs : (n.eng u).plan r (wordR 0x20 d a 0 0 false 0 8) =
    (n.eng u).regOp (r.putNum d (limited 16 (r.dAt a).natAbs)) := by
  simp [plan_alu, EngCfg.aluFn]
theorem plan_alu_clamp : (n.eng u).plan r (wordR 0x20 d a b 0 false 0 9) =
    (n.eng u).regOp (r.putNum d (min (max (r.dAt a) (r.dAt b)) (r.dAt (b.val + 1)))) := by
  have key (x y z : Int) : (if z < y then z else min (max x y) z) = min (max x y) z := by omega
  simp [plan_alu, EngCfg.aluFn, key]

theorem plan_alu_none
    (h : 10 ≤ fn.val ∨ ac ≠ 0 ∨ rnd = true ∨ sh ≠ 0 ∨ ((fn.val = 7 ∨ fn.val = 8) ∧ b ≠ 0)) :
    (n.eng u).plan r (wordR 0x20 d a b ac rnd sh fn) = none := by
  simp only [EngCfg.plan, opOf_wordR, Nat.reduceLT, EngCfg.opAlu, fld_options_wordR]
  split
  · rename_i hoptions
    have hac : ac = 0 := Fin.ext (show ac.val = 0 by omega)
    have hsh : sh = 0 := Fin.ext (show sh.val = 0 by omega)
    have hrnd : rnd = false := by
      cases rnd with
      | false => rfl
      | true => simp [b2n] at hoptions
    have hfn : 10 ≤ fn.val ∨ ((fn.val = 7 ∨ fn.val = 8) ∧ b.val ≠ 0) := by
      simpa [hac, hsh, hrnd, Fin.val_eq_zero_iff] using h
    rw [EngCfg.aluFn_none _ _ (by simpa using hfn), Option.bind_none]
  · rfl

theorem plan_addi : (n.eng u).plan r (engWord 0x21 d a imm.toNat) =
    (n.eng u).regOp (r.putNum d (limited 16 (r.dAt a + imm.toInt))) := by
  simp [EngCfg.plan, EngCfg.opAddi, imm.isLt]
theorem plan_andi : (n.eng u).plan r (engWord 0x22 d a imm.toNat) =
    (n.eng u).regOp (r.putD d (r.bits a &&& imm)) := by
  simp [EngCfg.plan, EngCfg.opLogic, imm.isLt]
theorem plan_ori : (n.eng u).plan r (engWord 0x23 d a imm.toNat) =
    (n.eng u).regOp (r.putD d (r.bits a ||| imm)) := by
  simp [EngCfg.plan, EngCfg.opLogic, imm.isLt]
theorem plan_xori : (n.eng u).plan r (engWord 0x24 d a imm.toNat) =
    (n.eng u).regOp (r.putD d (r.bits a ^^^ imm)) := by
  simp [EngCfg.plan, EngCfg.opLogic, imm.isLt]

theorem plan_shift_left : (n.eng u).plan r (wordR 0x25 d a 0 0 false sh 0) =
    (n.eng u).regOp (r.putNum d (limited 16 (r.dAt a * 2 ^ sh.val))) := by
  simp [EngCfg.plan, EngCfg.opShift]
theorem plan_shift_right : (n.eng u).plan r (wordR 0x25 d a 0 0 rnd sh 1) =
    (n.eng u).regOp (r.putNum d (shifted rnd (r.dAt a) sh.val)) := by
  simp [EngCfg.plan, EngCfg.opShift]
theorem plan_shift_bitsLeft : (n.eng u).plan r (wordR 0x25 d a 0 0 false sh 2) =
    (n.eng u).regOp (r.putD d (BitVec.ofNat 16 ((r.bits a).toNat * 2 ^ sh.val))) := by
  have hv (x : Half) : x <<< sh.val = BitVec.ofNat 16 (x.toNat * 2 ^ sh.val) := by
    apply BitVec.eq_of_toNat_eq; simp [Nat.shiftLeft_eq]
  simp [EngCfg.plan, EngCfg.opShift, hv]
theorem plan_shift_bitsRight : (n.eng u).plan r (wordR 0x25 d a 0 0 false sh 3) =
    (n.eng u).regOp (r.putD d (BitVec.ofNat 16 ((r.bits a).toNat / 2 ^ sh.val))) := by
  have hv (x : Half) : x >>> sh.val = BitVec.ofNat 16 (x.toNat / 2 ^ sh.val) := by
    apply BitVec.eq_of_toNat_eq
    rw [BitVec.toNat_ushiftRight, Nat.shiftRight_eq_div_pow, BitVec.toNat_ofNat,
      Nat.mod_eq_of_lt (Nat.lt_of_le_of_lt (Nat.div_le_self ..) x.isLt)]
  simp [EngCfg.plan, EngCfg.opShift, hv]

theorem plan_shift_none (h : 4 ≤ fn.val ∨ b ≠ 0 ∨ ac ≠ 0 ∨ (rnd = true ∧ fn.val ≠ 1)) :
    (n.eng u).plan r (wordR 0x25 d a b ac rnd sh fn) = none := by
  simp only [EngCfg.plan, opOf_wordR, Nat.reduceLT, EngCfg.opShift, fC_wordR, fAc_wordR, fRnd_wordR, fFn_wordR]
  split
  · rfl
  · rename_i hfields
    have hfn : 4 ≤ fn.val := by
      simp only [not_or, Classical.not_not, Fin.val_eq_zero_iff, Bool.and_eq_true, bne_iff_ne] at hfields
      obtain ⟨hb, hac, hrnd⟩ := hfields
      simpa [hb, hac, hrnd] using h
    obtain ⟨k, hk⟩ := Nat.exists_eq_add_of_le' hfn
    simp only [hk]

theorem plan_mul : (n.eng u).plan r (wordR 0x26 d a b 0 rnd sh 0) =
    (n.eng u).regOp (r.putNum d (limited 16 (shifted rnd (r.dAt a * r.dAt b * 2 ^ sh.val) 15))) := by
  simp [EngCfg.plan, EngCfg.opMul, EngCfg.prod]
theorem plan_muli : (n.eng u).plan r (engWord 0x27 d a imm.toNat) =
    (n.eng u).regOp (r.putNum d (limited 16 (shifted true (r.dAt a * imm.toInt) 15))) := by
  simp [EngCfg.plan, EngCfg.opMuli, imm.isLt]

end

end Sys2Proof.Machine
end

section
/-! O35: the instructions on D and index registers. -/
namespace Sys2Proof.Machine

/-- Settles O35: each word goes on to the next instruction with the register that it names written, and the words that no
function is assigned to stop the run. -/
theorem engineRegisters : Obligations.EngineRegisters := by
  refine ⟨?moves, ?arithmetic, ?unassigned⟩
  case moves =>
    intro s t n u d a x imm hr r hpc steps x32
    have hop {op : Nat} (a b : Fin 32) (h : op < 64) : opOf (engWord op a b imm.toNat) = op :=
      opOf_engWord a b h imm.isLt
    exact ⟨stepsTo_of_regOp 0x12 hr hpc (plan_ldi ..) rfl (hop _ _ (by decide)),
      stepsTo_of_regOp 0x13 hr hpc (plan_mov ..),
      stepsTo_of_regOp 0x16 hr hpc (plan_lix ..) rfl (hop _ _ (by decide)),
      stepsTo_of_regOp 0x17 hr hpc (plan_aix ..) rfl (hop _ _ (by decide)),
      stepsTo_of_regOp 0x18 hr hpc (plan_mix_toIx ..),
      stepsTo_of_regOp 0x18 hr hpc (plan_mix_toD ..),
      stepsTo_of_regOp 0x1A hr hpc (plan_sincos ..)⟩
  case arithmetic =>
    intro s t n u d a b rnd sh imm hr r x y z hpc num pat alu one shift
    have hop {op : Nat} (a b : Fin 32) (h : op < 64) : opOf (engWord op a b imm.toNat) = op :=
      opOf_engWord a b h imm.isLt
    exact ⟨stepsTo_of_regOp 0x20 hr hpc (plan_alu_add ..),
      stepsTo_of_regOp 0x20 hr hpc (plan_alu_sub ..),
      stepsTo_of_regOp 0x20 hr hpc (plan_alu_min ..),
      stepsTo_of_regOp 0x20 hr hpc (plan_alu_max ..),
      stepsTo_of_regOp 0x20 hr hpc (plan_alu_and ..),
      stepsTo_of_regOp 0x20 hr hpc (plan_alu_or ..),
      stepsTo_of_regOp 0x20 hr hpc (plan_alu_xor ..),
      stepsTo_of_regOp 0x20 hr hpc (plan_alu_neg ..),
      stepsTo_of_regOp 0x20 hr hpc (plan_alu_abs ..),
      stepsTo_of_regOp 0x20 hr hpc (plan_alu_clamp ..),
      stepsTo_of_regOp 0x21 hr hpc (plan_addi ..) rfl (hop _ _ (by decide)),
      stepsTo_of_regOp 0x22 hr hpc (plan_andi ..) rfl (hop _ _ (by decide)),
      stepsTo_of_regOp 0x23 hr hpc (plan_ori ..) rfl (hop _ _ (by decide)),
      stepsTo_of_regOp 0x24 hr hpc (plan_xori ..) rfl (hop _ _ (by decide)),
      stepsTo_of_regOp 0x25 hr hpc (plan_shift_left ..),
      stepsTo_of_regOp 0x25 hr hpc (plan_shift_right ..),
      stepsTo_of_regOp 0x25 hr hpc (plan_shift_bitsLeft ..),
      stepsTo_of_regOp 0x25 hr hpc (plan_shift_bitsRight ..),
      stepsTo_of_regOp 0x26 hr hpc (plan_mul ..),
      stepsTo_of_regOp 0x27 hr hpc (plan_muli ..) rfl (hop _ _ (by decide))⟩
  case unassigned =>
    intro s t n u d a b ac rnd sh fn hr
    exact ⟨fun hx h => refuses_of_plan 0x20 hr (plan_alu_none _ _ _ _ _ _ _ _ _ _ h) (hx := hx),
      fun hx h => refuses_of_plan 0x25 hr (plan_shift_none _ _ _ _ _ _ _ _ _ _ h) (hx := hx)⟩

end Sys2Proof.Machine
end

section
/-! R420, R423, R424, R426, R427: the accumulators of a channel's engine, and the PI step. -/
namespace Sys2Proof.Machine

section
variable (n : NleS) (u : RunS) (r : RegsS) (d a b : Fin 32) (k l : Fin 4) (rnd : Bool) (sh fn : Fin 16)

/-! ### MAC (R423) -/

theorem plan_mac_set (h : sh.val < 8) : (n.eng u).plan r (wordR 0x30 0 a b k false sh 0) =
    (n.eng u).regOp (r.putAcc k (r.dAt a * r.dAt b * 2 ^ (1 + sh.val))) := by
  simp [EngCfg.plan, EngCfg.opMac, EngCfg.prod, Nat.not_le_of_lt h]
theorem plan_mac_add (h : sh.val < 8) : (n.eng u).plan r (wordR 0x30 0 a b k false sh 1) =
    (n.eng u).regOp (r.putAcc k (limited 40 (r.accAt k + r.dAt a * r.dAt b * 2 ^ (1 + sh.val)))) := by
  simp [EngCfg.plan, EngCfg.opMac, EngCfg.prod, Nat.not_le_of_lt h]
theorem plan_mac_sub (h : sh.val < 8) : (n.eng u).plan r (wordR 0x30 0 a b k false sh 2) =
    (n.eng u).regOp (r.putAcc k (limited 40 (r.accAt k - r.dAt a * r.dAt b * 2 ^ (1 + sh.val)))) := by
  simp [EngCfg.plan, EngCfg.opMac, EngCfg.prod, Nat.not_le_of_lt h]

theorem plan_mac_none (h : 3 ≤ fn.val ∨ 8 ≤ sh.val ∨ d ≠ 0 ∨ rnd = true) :
    (n.eng u).plan r (wordR 0x30 d a b k rnd sh fn) = none := by
  simp only [EngCfg.plan, opOf_wordR, Nat.reduceLT, EngCfg.opMac, fA_wordR, fRnd_wordR, fSh_wordR, fFn_wordR]
  split
  · rfl
  · rename_i hfields
    simp only [not_or, Classical.not_not, Fin.val_eq_zero_iff] at hfields
    obtain ⟨hd, hrnd, hsh⟩ := hfields
    have hfn : 3 ≤ fn.val := by simpa [hd, hrnd, hsh] using h
    obtain ⟨j, hj⟩ := Nat.exists_eq_add_of_le' hfn
    simp only [hj]

/-! ### AOP (R424) -/

/-- R424 an AOP word whose fields RD and RT are 0. -/
theorem plan_aop : (n.eng u).plan r (wordR 0x31 0 a 0 k rnd sh fn) =
    ((n.eng u).aopFn r (wordR 0x31 0 a 0 k rnd sh fn)).bind fun v => (n.eng u).regOp (r.putAcc k v) := by
  simp [EngCfg.plan, EngCfg.opAop]

theorem plan_aop_zero : (n.eng u).plan r (wordR 0x31 0 0 0 k false 0 0) = (n.eng u).regOp (r.putAcc k 0) := by
  simp [plan_aop, EngCfg.aopFn]
theorem plan_aop_add : (n.eng u).plan r (wordR 0x31 0 ⟨l.val, by omega⟩ 0 k false 0 1) =
    (n.eng u).regOp (r.putAcc k (limited 40 (r.accAt k + r.accAt l))) := by
  simp [plan_aop, EngCfg.aopFn]
theorem plan_aop_sub : (n.eng u).plan r (wordR 0x31 0 ⟨l.val, by omega⟩ 0 k false 0 2) =
    (n.eng u).regOp (r.putAcc k (limited 40 (r.accAt k - r.accAt l))) := by
  simp [plan_aop, EngCfg.aopFn]
theorem plan_aop_copy : (n.eng u).plan r (wordR 0x31 0 ⟨l.val, by omega⟩ 0 k false 0 3) =
    (n.eng u).regOp (r.putAcc k (r.accAt l)) := by
  simp [plan_aop, EngCfg.aopFn]
theorem plan_aop_neg : (n.eng u).plan r (wordR 0x31 0 0 0 k false 0 4) =
    (n.eng u).regOp (r.putAcc k (limited 40 (-r.accAt k))) := by
  simp [plan_aop, EngCfg.aopFn]
theorem plan_aop_limit : (n.eng u).plan r (wordR 0x31 0 0 0 k false 0 5) =
    (n.eng u).regOp (r.putAcc k (limited 32 (r.accAt k))) := by
  simp [plan_aop, EngCfg.aopFn]
theorem plan_aop_shiftLeft : (n.eng u).plan r (wordR 0x31 0 0 0 k false sh 6) =
    (n.eng u).regOp (r.putAcc k (limited 40 (r.accAt k * 2 ^ sh.val))) := by
  simp [plan_aop, EngCfg.aopFn]
theorem plan_aop_shiftRight : (n.eng u).plan r (wordR 0x31 0 0 0 k rnd sh 7) =
    (n.eng u).regOp (r.putAcc k (shifted rnd (r.accAt k) sh.val)) := by
  simp [plan_aop, EngCfg.aopFn]
theorem plan_aop_setD : (n.eng u).plan r (wordR 0x31 0 a 0 k false 0 8) =
    (n.eng u).regOp (r.putAcc k (r.dAt a * 65536)) := by
  simp [plan_aop, EngCfg.aopFn]
theorem plan_aop_addD : (n.eng u).plan r (wordR 0x31 0 a 0 k false 0 9) =
    (n.eng u).regOp (r.putAcc k (limited 40 (r.accAt k + r.dAt a * 65536))) := by
  simp [plan_aop, EngCfg.aopFn]

/-- R424 AOP words whose function is not assigned, or that set a field that must be 0. -/
theorem EngCfg.aopFn_none (g : EngCfg) (r : RegsS) {x : Word}
    (h : 10 ≤ fFn x ∨ (fRnd x = true ∧ fFn x ≠ 7) ∨ (fSh x ≠ 0 ∧ fFn x ≠ 6 ∧ fFn x ≠ 7) ∨
      (4 ≤ fB x ∧ 1 ≤ fFn x ∧ fFn x ≤ 3) ∨ (fB x ≠ 0 ∧ (fFn x = 0 ∨ (4 ≤ fFn x ∧ fFn x ≤ 7)))) :
    g.aopFn r x = none := by
  obtain hfn | ⟨hrnd, h7⟩ | ⟨hsh, h6, h7⟩ | ⟨hB, h1, h3⟩ | ⟨hB, hfn⟩ := h
  · obtain ⟨j, hj⟩ := Nat.exists_eq_add_of_le' hfn
    simp only [EngCfg.aopFn, hj]
  · simp only [EngCfg.aopFn, hrnd, Bool.not_true, Bool.and_false, Bool.false_eq_true, Bool.true_eq_false, and_false,
      if_false]
    split
    case h_8 => contradiction
    all_goals rfl
  · simp only [EngCfg.aopFn, beq_false_of_ne hsh, Bool.false_and, Bool.false_eq_true, and_false, if_false]
    split
    case h_7 => contradiction
    case h_8 => contradiction
    all_goals rfl
  · obtain hfn | hfn | hfn : fFn x = 1 ∨ fFn x = 2 ∨ fFn x = 3 := by omega
    all_goals simp only [EngCfg.aopFn, hfn, Nat.not_lt_of_le hB, false_and, if_false]
  · obtain hfn | hfn | hfn | hfn | hfn : fFn x = 0 ∨ fFn x = 4 ∨ fFn x = 5 ∨ fFn x = 6 ∨ fFn x = 7 := by omega
    all_goals simp only [EngCfg.aopFn, hfn, hB, false_and, if_false]

theorem plan_aop_none (h : 10 ≤ fn.val ∨ d ≠ 0 ∨ (rnd = true ∧ fn.val ≠ 7) ∨ (sh ≠ 0 ∧ fn.val ≠ 6 ∧ fn.val ≠ 7) ∨
    (4 ≤ a.val ∧ 1 ≤ fn.val ∧ fn.val ≤ 3) ∨ (a ≠ 0 ∧ (fn.val = 0 ∨ (4 ≤ fn.val ∧ fn.val ≤ 7)))) :
    (n.eng u).plan r (wordR 0x31 d a b k rnd sh fn) = none := by
  simp only [EngCfg.plan, opOf_wordR, Nat.reduceLT, EngCfg.opAop, fA_wordR]
  split
  · rename_i hfields
    have hd : d = 0 := Fin.ext hfields.1
    rw [EngCfg.aopFn_none _ _ (by simpa [hd, Fin.val_eq_zero_iff] using h), Option.bind_none]
  · rfl

/-! ### RACC (R420) -/

theorem plan_racc : (n.eng u).plan r (wordR 0x32 d 0 0 k rnd sh 0) =
    (n.eng u).regOp (r.putNum d (limited 16 (shifted rnd (r.accAt k * 2 ^ sh.val) 16))) := by
  simp [EngCfg.plan, EngCfg.opRacc]

/-! ### PI (R426, R427) -/

/-- R426, R427 a PI step, with none of the values mirrored. -/
theorem eng_pi (kp ki lo hi e acc : Int) (ksh : Nat) (aw : Bool) :
    let lo' := min lo hi
    let p := 2 * kp * e * 2 ^ ksh
    let step := 2 * ki * e
    let u0 := p + acc
    let hold : Bool := aw && ((decide (hi * 65536 ≤ u0) && decide (0 < step)) ||
      (decide (u0 ≤ lo' * 65536) && decide (step < 0)))
    let i := limited 40 (acc + if hold then 0 else step)
    let i' := min (max i (lo' * 65536)) (hi * 65536)
    let v := limited 16 (shifted rnd (p + i') 16)
    (n.eng u).pi kp ki lo hi e acc ksh aw rnd =
      { out := min (max v lo') hi, acc := i',
        flags := b2n (decide (hi < v)) + 2 * b2n (decide (v < lo')) + 4 * b2n (decide (hi * 65536 < i)) +
          8 * b2n (decide (i < lo' * 65536)) + 16 * b2n hold } := by
  have least (x y : Int) : (if x ≤ y then x else y) = min x y := (Int.min_def x y).symm
  have most (x y : Int) : (if x ≤ y then y else x) = max x y := (Int.max_def x y).symm
  have lower (x y : Int) : (if y < x then y else x) = min x y := by omega
  simp only [EngCfg.pi, eng_mir, Bool.false_eq_true, if_false, decide_eq_true_eq, least, most, lower, eng_shr,
    sat16_eq_limited, sat40_eq_limited]

/-- R427 SH holds the shift of the proportional term and AW, FN the flags' bit. -/
theorem plan_pi (ksh : Fin 8) (aw pif : Bool) :
    let o := (n.eng u).pi (r.dAt b) (r.dAt (b.val + 1)) (r.dAt (b.val + 2)) (r.dAt (b.val + 3)) (r.dAt a) (r.accAt k) ksh
      aw rnd
    let r1 := (r.putNum d o.out).putAcc k o.acc
    (n.eng u).plan r (wordR 0x33 d a b k rnd ⟨ksh.val + 8 * b2n aw, by cases aw <;> simp [b2n] <;> omega⟩
        ⟨b2n pif, by cases pif <;> simp [b2n]⟩) =
      (n.eng u).regOp (if pif then r1.putD (d.val + 1) (BitVec.ofNat 16 o.flags) else r1) := by
  have hshift : (ksh.val + 8 * b2n aw) % 8 = ksh.val := by omega
  have haw : decide (8 ≤ ksh.val + 8 * b2n aw) = aw := by cases aw <;> simp [b2n]
  have hpif : ¬ 2 ≤ b2n pif := Nat.not_le_of_lt (b2n_lt_two pif)
  have hone : (b2n pif = 1) = (pif = true) := by cases pif <;> simp [b2n]
  simp [EngCfg.plan, EngCfg.opPi, hshift, haw, hpif, hone]

theorem plan_pi_none (h : 2 ≤ fn.val) : (n.eng u).plan r (wordR 0x33 d a b k rnd sh fn) = none := by
  simp [EngCfg.plan, EngCfg.opPi, h]

end

end Sys2Proof.Machine
end

section
/-! O37: the accumulator instructions and the PI step. -/
namespace Sys2Proof.Machine

/-- Settles O37: each word goes on to the next instruction with its accumulator or register written, a PI step is the rule's,
and the words that no function is assigned to stop the run. -/
theorem engineAccumulatorsAndPi : Obligations.EngineAccumulatorsAndPi := by
  refine ⟨?accumulators, ?pi, ?unassigned⟩
  case accumulators =>
    intro s t n u d a b k l rnd sh hr r A B hpc acc p mac self two
    exact ⟨fun h => stepsTo_of_regOp 0x30 hr hpc (plan_mac_set _ _ _ _ _ _ _ h.1) (hx := h.2),
      fun h => stepsTo_of_regOp 0x30 hr hpc (plan_mac_add _ _ _ _ _ _ _ h.1) (hx := h.2),
      fun h => stepsTo_of_regOp 0x30 hr hpc (plan_mac_sub _ _ _ _ _ _ _ h.1) (hx := h.2),
      stepsTo_of_regOp 0x31 hr hpc (plan_aop_zero ..),
      stepsTo_of_regOp 0x31 hr hpc (plan_aop_add ..),
      stepsTo_of_regOp 0x31 hr hpc (plan_aop_sub ..),
      stepsTo_of_regOp 0x31 hr hpc (plan_aop_copy ..),
      stepsTo_of_regOp 0x31 hr hpc (plan_aop_neg ..),
      stepsTo_of_regOp 0x31 hr hpc (plan_aop_limit ..),
      stepsTo_of_regOp 0x31 hr hpc (plan_aop_shiftLeft ..),
      stepsTo_of_regOp 0x31 hr hpc (plan_aop_shiftRight ..),
      stepsTo_of_regOp 0x31 hr hpc (plan_aop_setD ..),
      stepsTo_of_regOp 0x31 hr hpc (plan_aop_addD ..),
      stepsTo_of_regOp 0x32 hr hpc (plan_racc ..)⟩
  case pi =>
    intro s t n u d a b k rnd aw pif ksh hr r hpc hx hi lo p step u0 hold i i' v flags r1
    have hplan := plan_pi s.chans[n].nle u r d a b k rnd ksh aw pif
    rw [eng_pi] at hplan
    exact stepsTo_of_regOp 0x33 hr hpc hplan (by cases pif <;> rfl) (hx := hx)
  case unassigned =>
    intro s t n u d a b k rnd sh fn hr
    exact ⟨fun hx h => refuses_of_plan 0x30 hr (plan_mac_none _ _ _ _ _ _ _ _ _ _ h) (hx := hx),
      fun hx h => refuses_of_plan 0x31 hr (plan_aop_none _ _ _ _ _ _ _ _ _ _ h) (hx := hx),
      fun hx h => refuses_of_plan 0x33 hr (plan_pi_none _ _ _ _ _ _ _ _ _ _ h) (hx := hx)⟩

end Sys2Proof.Machine
end

section
/-! What the operations of a channel hand to the device (`ChR.out`): each adds to the end of what stands there. -/
namespace Sys2Proof.Machine

/-! ### Operations that hand out nothing -/

@[simp] theorem ChR.core_out (r : ChR) (f : CoreS → CoreS) : (r.core f).out = r.out := rfl
@[simp] theorem ChR.tb_out (r : ChR) (f : TbS → TbS) : (r.tb f).out = r.out := rfl
@[simp] theorem ChR.pwm_out (r : ChR) (f : PwmS → PwmS) : (r.pwm f).out = r.out := rfl
@[simp] theorem ChR.adc_out (r : ChR) (f : AdcS → AdcS) : (r.adc f).out = r.out := rfl
@[simp] theorem ChR.pos_out (r : ChR) (f : PosS → PosS) : (r.pos f).out = r.out := rfl
@[simp] theorem ChR.fcu_out (r : ChR) (f : FcuS → FcuS) : (r.fcu f).out = r.out := rfl
@[simp] theorem ChR.nle_out (r : ChR) (f : NleS → NleS) : (r.nle f).out = r.out := rfl
@[simp] theorem ChR.prot_out (r : ChR) (f : ProtS → ProtS) : (r.prot f).out = r.out := rfl
@[simp] theorem ChR.setCode_out (r : ChR) (old new : ChCode) (k : Nat) : (r.setCode old new k).out = r.out := rfl
@[simp] theorem ChR.switchClock_out (r : ChR) (b : Bool) : (r.switchClock b).out = r.out := rfl
@[simp] theorem ChR.legsIdle_out (r : ChR) : r.legsIdle.out = r.out := rfl
@[simp] theorem ChR.stopPll_out (r : ChR) : r.stopPll.out = r.out := by
  simp [ChR.stopPll, ChR.when_view ChR.out, apply_ite ChR.out]
@[simp] theorem ChR.restartFilter_out (r : ChR) (s : TripSrc) : (r.restartFilter s).out = r.out := by
  simp only [ChR.restartFilter, ChR.feedSource, ChR.setRaw, ChR.prot_out]; split <;> rfl
@[simp] theorem ChR.disableNle_out (r : ChR) : r.disableNle.out = r.out := by
  simp only [ChR.disableNle]; split <;> rfl
@[simp] theorem ChR.leaveTrip_out (r : ChR) (old new : ChCode) : (r.leaveTrip old new).out = r.out := by
  simp [ChR.leaveTrip, ChR.when_view ChR.out]
@[simp] theorem ChR.intoEngine_out (r : ChR) (old new : ChCode) : (r.intoEngine old new).out = r.out := by
  simp [ChR.intoEngine, ChR.when_view ChR.out, ChR.intoArmed, ChR.freshArmed]
@[simp] theorem ChR.leaveLanes_out (r : ChR) (old new : ChCode) : (r.leaveLanes old new).out = r.out := by
  simp [ChR.leaveLanes, ChR.when_view ChR.out]

/-! ### Operations that add -/

theorem ChR.emit_out (r : ChR) (o : ChOut) : r.out <+: (r.emit o).out := List.prefix_append _ _
theorem ChR.event_out (r : ChR) (code : Nat) (data : List EvField) : r.out <+: (r.event code data).out := r.emit_out _
theorem ChR.eventAt_out (r : ChR) (code stamp : Nat) (data : List EvField) : r.out <+: (r.eventAt code stamp data).out :=
  r.emit_out _
theorem ChR.fcuEvent_out (r : ChR) (code : Nat) (data : List EvField) : r.out <+: (r.fcuEvent code data).out := r.emit_out _
theorem ChR.finish_out (r : ChR) (ops : List Nat) (a b c : Nat) : r.out <+: (r.finish ops a b c).out := r.emit_out _
theorem ChR.protTrip_out (r : ChR) (a b c d : Nat) (new : ChCode) : r.out <+: (r.protTrip a b c d new).out := r.emit_out _

/-- An operation that adds under a condition adds. -/
theorem ChR.when_out (r : ChR) (b : Bool) {f : ChOp} (h : ∀ x : ChR, x.out <+: (f x).out) : r.out <+: (r.when b f).out := by
  cases b
  · exact List.prefix_rfl
  · exact h r

/-- An operation that adds, repeated over a list, adds. -/
theorem ChR.foldl_out {α : Type} {f : ChR → α → ChR} (h : ∀ x a, x.out <+: (f x a).out) (l : List α) (r : ChR) :
    r.out <+: (l.foldl f r).out := by
  induction l generalizing r with
  | nil => exact List.prefix_rfl
  | cons a l ih => exact (h r a).trans (ih _)

theorem ChR.endLb_out (r : ChR) (fails reason : Nat) : r.out <+: (r.endLb fails reason).out := by
  simp only [ChR.endLb]
  split
  · exact List.prefix_rfl
  · refine .trans ?_ ((ChR.event_out _ _ _).trans (ChR.finish_out _ _ _ _ _))
    split <;> exact List.prefix_rfl

theorem ChR.endCmpTest_out (r : ChR) (fails : BitVec 5) (aborted : Bool) : r.out <+: (r.endCmpTest fails aborted).out := by
  simp only [ChR.endCmpTest]
  split
  · exact List.prefix_rfl
  · refine .trans ?_ ((ChR.event_out _ _ _).trans (ChR.finish_out _ _ _ _ _))
    simp

theorem ChR.abortIdent_out (r : ChR) (reason : Nat) (rs : Option Nat) : r.out <+: (r.abortIdent reason rs).out := by
  simp only [ChR.abortIdent]
  split
  · exact List.prefix_rfl
  · exact (ChR.event_out _ _ _).trans (ChR.finish_out _ _ _ _ _)

theorem ChR.reportDischarge_out (r : ChR) (outcome stamp : Nat) : r.out <+: (r.reportDischarge outcome stamp).out := by
  simp only [ChR.reportDischarge]
  split
  · exact ChR.eventAt_out _ _ _ _
  · exact List.prefix_rfl

/-- R139 what ends with the state left. -/
theorem ChR.leaveWaits_out (r : ChR) (new : ChCode) (k : Nat) : r.out <+: (r.leaveWaits new k).out := by
  have hwaits : ∀ (x : ChR) a b (f : ChOp) fails reason, (∀ y : ChR, y.out <+: (f y).out) →
      x.out <+: (((x.when a fun x => x.finish [0x10] stAborted new.num 0).when b f).endLb fails reason).out :=
    fun x a b f _ _ hf => ((x.when_out a fun y => y.finish_out _ _ _ _).trans (ChR.when_out _ b hf)).trans (ChR.endLb_out _ _ _)
  simp only [ChR.leaveWaits]
  split
  · rw [ChR.fcu_out]
    exact (hwaits _ _ _ _ _ _ fun y => y.finish_out _ _ _ _).trans (ChR.when_out _ _ fun y => y.reportDischarge_out _ _)
  · exact hwaits _ _ _ _ _ _ fun y => y.finish_out _ _ _ _

/-- R132 a transition. -/
theorem ChR.goto_out (r : ChR) (new : ChCode) (k : Nat) : r.out <+: (r.goto new k).out := by
  simp only [ChR.goto]
  refine .trans ?_ (ChR.event_out _ _ _)
  refine .trans ?_ (ChR.when_out _ _ fun x => x.endCmpTest_out _ _)
  simpa [ChR.when_view ChR.out] using r.leaveWaits_out new k

/-- R447, R449 a trip. -/
theorem ChR.trip_out (r : ChR) (q : Qual) (qs : List Qual) : r.out <+: (r.trip q qs).out := by
  simp only [ChR.trip]
  split
  · split
    · refine .trans ?_ (ChR.protTrip_out _ _ _ _ _ _)
      split <;> exact List.prefix_rfl
    · refine .trans (.trans ?_ (ChR.protTrip_out _ _ _ _ _ _)) (ChR.goto_out _ _ _)
      exact List.prefix_rfl
  · refine .trans (.trans ?_ (ChR.protTrip_out _ _ _ _ _ _)) (ChR.goto_out _ _ _)
    exact List.prefix_rfl

theorem ChR.joinTrip_out (r : ChR) (q : Qual) (qs : List Qual) : r.out <+: (r.joinTrip q qs).out := by
  simp only [ChR.joinTrip]
  generalize hw : ChR.when _ _ _ = w
  have hout : w.out = r.out := by rw [← hw]; simp [ChR.when_view ChR.out]
  rw [← hout]
  split
  · exact (ChR.protTrip_out _ _ _ _ _ _).trans (ChR.goto_out _ _ _)
  · exact List.prefix_rfl

/-- R441 a qualification. -/
theorem ChR.qualify_out (r : ChR) (q : Qual) (qs : List Qual) : r.out <+: (r.qualify q qs).out := by
  simp only [ChR.qualify]
  generalize hw : r.prot _ = w
  have hout : w.out = r.out := by rw [← hw]; rfl
  rw [← hout]
  split
  · exact w.joinTrip_out q qs
  split
  · exact w.trip_out q qs
  split
  · exact (w.abortIdent_out _ _).trans (ChR.goto_out _ _ _)
  · refine .trans ?_ (ChR.foldl_out (fun x _ => x.emit_out _) _ _)
    split <;> exact List.prefix_rfl

/-- R232 an XCMD event. -/
theorem ChR.xcmd_out (r : ChR) (leg : Fin 3) : r.out <+: (r.xcmd leg).out := by
  have hevent : ∀ (x : ChR) (b : Bool) (data : List EvField), x.out <+: (if b then x else x.event 0x1030 data).out := by
    intro x b data
    split
    · exact List.prefix_rfl
    · exact x.event_out _ _
  simp only [ChR.xcmd]
  split
  · refine .trans ?_ (ChR.qualify_out _ _ _)
    exact hevent (r.pwm _) _ _
  · exact hevent (r.pwm _) _ _

/-- What follows from a command comes after what the command itself hands out. -/
theorem ChR.settle_out (r : ChR) : r.out <+: r.settle.out := by
  simp only [ChR.settle]
  generalize h1 : (if (r.c.fcu.phase == FcuPhase.wrongMotorAsc && !(ascAbove (r.c.ascSpeed r.env.t) r.env.stoSpeed)) = true
    then r.goto .wrongMotor 0x55 else r) = r1
  have k1 : r.out <+: r1.out := by
    rw [← h1]; split
    · exact r.goto_out _ _
    · exact List.prefix_rfl
  refine k1.trans ?_
  generalize h2 : (if (!(ascAbove (r1.c.ascSpeed r1.env.t) r1.env.stoSpeed)) = true then _ else r1) = r2
  have k2 : r2.out = r1.out := by rw [← h2]; split <;> rfl
  generalize h3 : r2.prot _ = r3
  have k3 : r3.out = r2.out := by rw [← h3]; rfl
  generalize h4 : (if r3.env.shut = true then r3 else _) = r4
  have k4 : r4.out = r3.out := by rw [← h4]; split <;> rfl
  rw [← k2, ← k3, ← k4]
  generalize h5 : (if (r4.c.core.code == ChCode.brake && !r4.c.fcu.brakeSlow && _) = true then _ else r4) = r5
  have k5 : r4.out <+: r5.out := by
    rw [← h5]; split
    · exact r4.fcuEvent_out _ _
    · exact List.prefix_rfl
  refine k5.trans ?_
  generalize h6 : r5.pwm _ = r6
  have k6 : r6.out = r5.out := by rw [← h6]; rfl
  rw [← k6]
  generalize h7 : (List.finRange 3).foldl _ r6 = r7
  have k7 : r6.out <+: r7.out := by
    rw [← h7]; exact ChR.foldl_out (fun x i => x.when_out _ fun y => y.xcmd_out i) _ _
  refine k7.trans ?_
  generalize h8 : ChR.when r7.syncLegs _ _ = r8
  have k8 : r8.out = r7.out := by rw [← h8, ChR.when_view ChR.out]; exact ite_self _
  rw [← k8]
  split <;> exact List.prefix_rfl

end Sys2Proof.Machine
end

section
/-! R90, R101, R139: a held descriptor and its completion, while a channel's operation is acted on. -/
namespace Sys2Proof.Machine

/-! ### What grows the outbox and leaves the submission rings -/

/-- The submission rings of every port. -/
def State.rings (s : State) : Vector (Vector Sq 32) 4 := s.ports.map PortS.sqs

theorem State.sqAt_of_rings {s s1 : State} (h : s1.rings = s.rings) (q : SqRef) : s1.sqAt q = s.sqAt q := by
  have := congrArg (fun v => v[q.port][q.sq]) h
  simpa [State.rings, State.sqAt] using this

theorem State.rings_of_calm {s s1 : State} (h : s1.ports.map PortS.calm = s.ports.map PortS.calm) :
    s1.rings = s.rings := by
  have hcalm : ∀ x : State, (x.ports.map PortS.calm).map PortS.sqs = x.rings := fun _ => Vector.map_map
  rw [← hcalm, h, hcalm]

theorem State.onPort_rings (s : State) (p : PortId) (f : PortS → PortS) (h : ∀ x, (f x).sqs = x.sqs) :
    (s.onPort p f).rings = s.rings := State.onPort_map PortS.sqs s p f h

/-- The state after reports: the submission rings as they were, and the outbox no shorter. -/
def State.Follows (s1 s : State) : Prop := s1.rings = s.rings ∧ s.outbox ⊆ s1.outbox

theorem State.Follows.trans {s s1 s2 : State} (h2 : s2.Follows s1) (h1 : s1.Follows s) : s2.Follows s :=
  ⟨h2.1.trans h1.1, List.Subset.trans h1.2 h2.2⟩

theorem State.Follows.rfl {s : State} : s.Follows s := ⟨.refl _, List.Subset.refl _⟩

theorem State.onPort_follows (s : State) (p : PortId) {f : PortS → PortS} (h : ∀ x, (f x).sqs = x.sqs) :
    (s.onPort p f).Follows s := ⟨s.onPort_rings p f h, List.Subset.refl _⟩

theorem State.emit_follows (s : State) (p : PortId) (bytes : Nat) (o : Out) : (s.emit p bytes o).Follows s :=
  ⟨State.rings_of_calm (State.emit_calm ..), List.subset_append_left _ _⟩

theorem State.sendMsix_follows (s : State) (p : PortId) (v : Nat) : (s.sendMsix p v).Follows s :=
  ⟨State.rings_of_calm (State.sendMsix_calm ..), fun _ => State.sendMsix_outbox p v⟩

theorem State.irqCq_follows (s : State) (p : PortId) (c : Fin 32) : (s.irqCq p c).Follows s := by
  simp only [State.irqCq]
  split
  · exact (State.sendMsix_follows _ _ _).trans (s.onPort_follows p fun _ => .refl _)
  · exact .rfl

theorem State.irqEq_follows (s : State) (p : PortId) : (s.irqEq p).Follows s := by
  simp only [State.irqEq]
  split
  · exact (State.sendMsix_follows _ _ _).trans (s.onPort_follows p fun _ => .refl _)
  · exact .rfl

theorem State.writeCompletion_follows (s : State) (p : PortId) (c : Fin 32) (x : Completion) :
    (s.writeCompletion p c x).Follows s :=
  ((State.irqCq_follows _ _ _).trans (State.emit_follows _ _ _ _)).trans (s.onPort_follows p fun _ => .refl _)

theorem State.writeEvent_follows (s : State) (p : PortId) (recorded : Bool) (e : Ev) :
    (s.writeEvent p recorded e).Follows s :=
  ((State.irqEq_follows _ _).trans (State.emit_follows _ _ _ _)).trans (s.onPort_follows p fun _ => .refl _)

theorem State.queueRec_follows (s : State) (x : Rec) : (s.queueRec x).1.Follows s := by
  simp only [State.queueRec]
  repeat' split
  all_goals exact .rfl

theorem State.flushLost_follows (s : State) (p : PortId) : (s.flushLost p).Follows s := by
  simp only [State.flushLost]
  split
  · generalize hw : s.queueRec _ = w
    have hqueue : w.1.Follows s := by rw [← hw]; exact s.queueRec_follows _
    refine (State.writeEvent_follows _ _ _ _).trans (.trans ?_ hqueue)
    exact w.1.onPort_follows _ fun _ => .refl _
  · exact .rfl

theorem State.deliver_follows (s : State) (recorded : Bool) (e : Ev) (p : PortId) :
    (s.deliver recorded e p).Follows s := by
  simp only [State.deliver]
  split
  · exact (State.writeEvent_follows _ _ _ _).trans (s.flushLost_follows p)
  · refine .trans ?_ (s.flushLost_follows p)
    exact State.onPort_follows _ _ fun _ => .refl _

/-- An operation that only reports, repeated over a list, only reports. -/
theorem State.foldl_follows {α : Type} {f : State → α → State} (h : ∀ s a, (f s a).Follows s) (l : List α) (s : State) :
    (l.foldl f s).Follows s := by
  induction l generalizing s with
  | nil => exact .rfl
  | cons a l ih => exact (ih _).trans (h s a)

theorem State.raiseTo_follows (s : State) (ps : List PortId) (e : Ev) : (s.raiseTo ps e).Follows s :=
  (State.foldl_follows (fun s p => s.deliver_follows _ e p) _ _).trans (State.queueRec_follows _ _)

theorem State.raiseUnit_follows (s : State) (code unit stamp : Nat) (data : List EvField) :
    (s.raiseUnit code unit stamp data).Follows s := State.raiseTo_follows _ _ _

theorem State.noteSlack_follows (s : State) (slack : Int) (interval : Nat) (measured : Bool) :
    (s.noteSlack slack interval measured).Follows s := by
  simp only [State.noteSlack]
  repeat' split
  all_goals exact .rfl

/-! ### Completions of one ring and of another -/

/-- A submission ring that changes leaves the others. -/
theorem State.onSq_sqAt_other (s : State) {q q' : SqRef} (f : Sq → Sq) (h : q ≠ q') : (s.onSq q' f).sqAt q = s.sqAt q := by
  obtain ⟨p, i⟩ := q
  obtain ⟨p', i'⟩ := q'
  simp only [State.sqAt, State.onSq, State.onPort_ports, Fin.getElem_fin, Vector.getElem_set]
  split
  · rename_i hp
    obtain rfl := Fin.ext hp
    have hi : (i' : Nat) ≠ i := fun e => h (by rw [Fin.ext e])
    simp only [Vector.getElem_set, if_neg hi]
  · rfl

/-- Whichever way a completion goes, it takes nothing off the outbox, holds nothing and lets go of no completion of its ring, and
leaves the other rings. -/
theorem State.complete_spec (s : State) (q : SqRef) (x : Completion) :
    s.outbox ⊆ (s.complete q x).outbox ∧ ((s.complete q x).sqAt q).held = (s.sqAt q).held ∧
    (s.sqAt q).stalled ⊆ ((s.complete q x).sqAt q).stalled ∧ ∀ q', q' ≠ q → (s.complete q x).sqAt q' = s.sqAt q' := by
  obtain ⟨-, h⟩ | h | ⟨-, h⟩ := s.complete_cases q x <;> rw [h]
  · exact ⟨List.Subset.refl _, rfl, List.Subset.refl _, fun _ _ => rfl⟩
  · obtain ⟨hrings, hout⟩ := s.writeCompletion_follows q.port (s.sqAt q).cqId x
    have hsq := State.sqAt_of_rings hrings
    refine ⟨hout, by rw [hsq], by rw [hsq]; exact List.Subset.refl _, fun q' _ => hsq q'⟩
  · have hsq := State.sqAt_of_rings (State.onPort_rings (s.onSq q fun y => { y with stalled := y.stalled ++ [x] }) q.port
      (fun y => { y with holdFrom := some (y.holdFrom.getD s.dtime) }) fun _ => rfl)
    refine ⟨List.Subset.refl _, ?_, ?_, fun q' hne => ?_⟩
    · rw [hsq]; simp [State.sqAt, State.onSq]
    · rw [hsq]; simp [State.sqAt, State.onSq]
    · rw [hsq, State.onSq_sqAt_other _ _ hne]

/-! ### A held descriptor from its wait to its completion -/

/-- Ring `q` holds descriptor `h`, whose wait can still be answered. -/
structure State.Awaits (s : State) (q : SqRef) (h : Held) : Prop where
  held : (s.sqAt q).held = some h
  usable : s.ports[q.port].cqs[(s.sqAt q).cqId].usable = true
  inTime : h.inTime s.dtime = true

/-- Ring `q` has completed `h` with OK and a RESULT: the completion is written, or held until the completion ring has an entry
(R101). -/
structure State.Ended (s : State) (q : SqRef) (h : Held) (result : Nat) : Prop where
  held : (s.sqAt q).held = none
  reported : ∃ x : Completion, ((∃ c i a ph, Out.completion q.port c i a ph x ∈ s.outbox) ∨ x ∈ (s.sqAt q).stalled) ∧
    x.cid = h.cid ∧ x.sqId = q.sq.val ∧ x.status = stOk ∧ x.result = result % 2 ^ 32

theorem State.Awaits.congr {s s1 : State} {q : SqRef} {h : Held} (ha : s.Awaits q h) (hsq : s1.sqAt q = s.sqAt q)
    (hroutes : s1.routes = s.routes) (htime : s1.dtime = s.dtime) : s1.Awaits q h where
  held := by rw [hsq]; exact ha.held
  usable := by rw [State.usable_of_routes hroutes]; exact ha.usable
  inTime := by rw [htime]; exact ha.inTime

theorem State.Ended.mono {s s1 : State} {q : SqRef} {h : Held} {result : Nat} (he : s.Ended q h result)
    (hheld : (s1.sqAt q).held = (s.sqAt q).held) (hstalled : (s.sqAt q).stalled ⊆ (s1.sqAt q).stalled)
    (hout : s.outbox ⊆ s1.outbox) : s1.Ended q h result where
  held := hheld.trans he.held
  reported := by
    obtain ⟨x, hx, hfields⟩ := he.reported
    exact ⟨x, hx.imp (fun ⟨c, i, a, ph, hm⟩ => ⟨c, i, a, ph, hout hm⟩) (fun hm => hstalled hm), hfields⟩

theorem State.Ended.complete {s : State} {q : SqRef} {h : Held} {result : Nat} (he : s.Ended q h result) (q' : SqRef)
    (x : Completion) : (s.complete q' x).Ended q h result := by
  obtain ⟨hout, hheld, hstalled, hother⟩ := s.complete_spec q' x
  by_cases hq : q = q'
  · subst hq; exact he.mono hheld hstalled hout
  · exact he.mono (by rw [hother q hq]) (by rw [hother q hq]; exact List.Subset.refl _) hout

theorem State.Ended.completes {s : State} {q : SqRef} {h : Held} {result : Nat} (he : s.Ended q h result) (q' : SqRef)
    (xs : List Completion) : (xs.foldl (fun s x => s.complete q' x) s).Ended q h result := by
  induction xs generalizing s with
  | nil => exact he
  | cons x xs ih => exact ih (he.complete q' x)

/-- What the end of another ring's wait leaves of a ring. -/
theorem State.finishHeld_sqAt_other (s : State) {q q' : SqRef} (h : Held) (t status detail result : Nat) (hq : q ≠ q') :
    (s.finishHeld q' h t status detail result).sqAt q = s.sqAt q := by
  simp only [State.finishHeld]
  rw [foldl_keeps (fun s : State => s.sqAt q) _ (fun s x => (s.complete_spec q' x).2.2.2 q hq), State.onSq_sqAt_other _ _ hq]

theorem State.finishAt_sqAt_other (s : State) {q q' : SqRef} (unit : Nat) (ops : List Nat) (status detail result : Nat)
    (hq : q ≠ q') : (s.finishAt unit ops status detail result q').sqAt q = s.sqAt q := by
  simp only [State.finishAt]
  repeat' split
  · exact s.finishHeld_sqAt_other _ _ _ _ _ hq
  · exact State.onSq_sqAt_other _ _ hq
  · rfl
  · rfl

theorem State.finishAt_outbox (s : State) (unit : Nat) (ops : List Nat) (status detail result : Nat) (q : SqRef) :
    s.outbox ⊆ (s.finishAt unit ops status detail result q).outbox := by
  have hfold : ∀ (xs : List Completion) (s : State), s.outbox ⊆ (xs.foldl (fun s x => s.complete q x) s).outbox := by
    intro xs
    induction xs with
    | nil => exact fun s => List.Subset.refl _
    | cons x xs ih => exact fun s => List.Subset.trans (s.complete_spec q x).1 (ih _)
  simp only [State.finishAt]
  repeat' split
  · exact hfold _ (s.onSq q _)
  all_goals exact List.Subset.refl _

/-- A ring that holds nothing has nothing to end. -/
theorem State.finishAt_of_not_held {s : State} {q : SqRef} (h : (s.sqAt q).held = none) (unit : Nat) (ops : List Nat)
    (status detail result : Nat) : s.finishAt unit ops status detail result q = s := by
  simp only [State.finishAt, h]

theorem State.Ended.finishAt {s : State} {q : SqRef} {h : Held} {result : Nat} (he : s.Ended q h result) (q' : SqRef)
    (unit : Nat) (ops : List Nat) (status detail res : Nat) :
    (s.finishAt unit ops status detail res q').Ended q h result := by
  by_cases hq : q = q'
  · subst hq; rw [State.finishAt_of_not_held he.held]; exact he
  · have hsq := s.finishAt_sqAt_other unit ops status detail res hq
    exact he.mono (by rw [hsq]) (by rw [hsq]; exact List.Subset.refl _) (s.finishAt_outbox _ _ _ _ _ _)

/-- R90 what ring `q` waits for comes about: its completion, and then those that ring disable has aborted. -/
theorem State.Awaits.finishAt {s : State} {q : SqRef} {h : Held} (ha : s.Awaits q h) {ops : List Nat}
    (hop : ops.contains h.opcode = true) (detail result : Nat) :
    (s.finishAt h.unit ops stOk detail result q).Ended q h result := by
  simp only [State.finishAt, ha.held, hop, and_self, if_true, ha.inTime, State.finishHeld, List.foldl_cons]
  refine State.Ended.completes ?_ q _
  generalize hs0 : s.onSq q _ = s0
  have hheld : (s0.sqAt q).held = none := by rw [← hs0]; simp [State.sqAt, State.onSq]
  have husable : s0.ports[q.port].cqs[(s0.sqAt q).cqId].usable = true := by
    rw [State.usable_of_routes (s := s) (by rw [← hs0]; exact State.onSq_routes _ _ _ fun _ => rfl)]; exact ha.usable
  exact ⟨(s0.complete_spec q _).2.1.trans hheld, _, s0.complete_reports _ husable, rfl, rfl, rfl, rfl⟩

theorem mem_allRings (q : SqRef) : q ∈ allRings := by
  simp only [allRings, List.mem_flatMap, List.mem_map]
  exact ⟨q.port, List.mem_finRange _, q.sq, List.mem_finRange _, rfl⟩

/-- R90, R139 what held descriptors of a unit wait for comes about: the one of ring `q` completes. -/
theorem State.Awaits.finish {s : State} {q : SqRef} {h : Held} (ha : s.Awaits q h) {ops : List Nat}
    (hop : ops.contains h.opcode = true) (detail result : Nat) :
    (s.finish h.unit ops stOk detail result).Ended q h result := by
  have hend : ∀ (l : List SqRef) (s : State), s.Ended q h result →
      (l.foldl (fun s q => s.finishAt h.unit ops stOk detail result q) s).Ended q h result := by
    intro l
    induction l with
    | nil => exact fun _ he => he
    | cons q' l ih => exact fun s he => ih _ (he.finishAt q' _ _ _ _ _)
  have hwait : ∀ (l : List SqRef) (s : State), q ∈ l → s.Awaits q h →
      (l.foldl (fun s q => s.finishAt h.unit ops stOk detail result q) s).Ended q h result := by
    intro l
    induction l with
    | nil => exact fun _ hm => absurd hm List.not_mem_nil
    | cons q' l ih =>
      intro s hm ha
      by_cases hq : q = q'
      · subst hq; exact hend l _ (ha.finishAt hop _ _)
      · exact ih _ ((List.mem_cons.mp hm).resolve_left hq) (ha.congr (s.finishAt_sqAt_other _ _ _ _ _ hq)
          (s.finishAt_routes _ _ _ _ _ _) (State.quiet_dtime (s.finishAt_quiet _ _ _ _ _ _)))
  exact hwait _ s (mem_allRings q) ha

/-! ### What a channel hands out -/

theorem State.Ended.chOut {s : State} {q : SqRef} {h : Held} {result : Nat} (he : s.Ended q h result) (n : ChanId)
    (o : ChOut) : (s.chOut n o).Ended q h result := by
  have hfollows : ∀ s1 : State, s1.Follows s → s1.Ended q h result := by
    rintro s1 ⟨hrings, hout⟩
    have hsq := State.sqAt_of_rings hrings q
    exact he.mono (by rw [hsq]) (by rw [hsq]; exact List.Subset.refl _) hout
  cases o with
  | event code stamp data => exact hfollows _ (s.raiseUnit_follows _ _ _ _)
  | limited code key stamp off data =>
    refine hfollows _ ?_
    simp only [State.chOut]
    split
    · exact (State.raiseUnit_follows _ _ _ _ _).trans .rfl
    · exact .rfl
  | finish ops status detail res =>
    have hend : ∀ (l : List SqRef) (s : State), s.Ended q h result →
        (l.foldl (fun s q => s.finishAt (chUnit n) ops status detail res q) s).Ended q h result := by
      intro l
      induction l with
      | nil => exact fun _ he => he
      | cons q' l ih => exact fun s he => ih _ (he.finishAt q' _ _ _ _ _)
    exact hend _ s he
  | slack slack interval measured => exact hfollows _ (s.noteSlack_follows _ _ _)

theorem State.Ended.chOuts {s : State} {q : SqRef} {h : Held} {result : Nat} (he : s.Ended q h result) (n : ChanId)
    (os : List ChOut) : (os.foldl (fun s o => s.chOut n o) s).Ended q h result := by
  induction os generalizing s with
  | nil => exact he
  | cons o os ih => exact ih (he.chOut n o)

theorem State.Awaits.event {s : State} {q : SqRef} {h : Held} (ha : s.Awaits q h) (n : ChanId) (code stamp : Nat)
    (data : List EvField) : (s.chOut n (.event code stamp data)).Awaits q h :=
  ha.congr (State.sqAt_of_rings (s.raiseUnit_follows _ _ _ _).1 q) (s.raiseUnit_routes _ _ _ _)
    (State.raiseUnit_dtime _ _ _ _ _)

/-- R734 a channel that hands out an event, and then what a held descriptor of its waits for. -/
theorem State.Awaits.ends {s : State} {q : SqRef} {h : Held} {n : ChanId} (ha : s.Awaits q h) (hu : h.unit = n.val)
    {ops : List Nat} (hop : ops.contains h.opcode = true) (code stamp detail result : Nat) (data : List EvField)
    (more : List ChOut) :
    ((.event code stamp data :: .finish ops stOk detail result :: more).foldl (fun s o => s.chOut n o) s).Ended q h
      result := by
  have hfinish := (ha.event n code stamp data).finish hop detail result
  rw [hu] at hfinish
  rw [List.foldl_cons, List.foldl_cons]
  exact State.Ended.chOuts (by simpa only [State.chOut, chUnit] using hfinish) n more

end Sys2Proof.Machine
end

section
/-! R316, R319, R320: a position loop-back test brought up to now. -/
namespace Sys2Proof.Machine

/-! ### No change of the pins changes the configuration of the position unit -/

theorem PosS.step_cfg (p : PosS) (cpr : Nat) (down : Bool) : (p.step cpr down).cfg = p.cfg := by
  simp only [PosS.step]
  repeat' split
  all_goals rfl

theorem PosS.steps_cfg (p : PosS) (cpr : Nat) (down : Bool) (k : Nat) : (p.steps cpr down k).cfg = p.cfg := by
  induction k generalizing p with
  | zero => rfl
  | succ k ih => rw [PosS.steps, ih, PosS.step_cfg]

theorem ChR.hallChange_cfg (r : ChR) (stamp16 before after : Nat) :
    (r.hallChange stamp16 before after).c.pos.cfg = r.c.pos.cfg := by
  simp only [ChR.hallChange, ChR.posLimited]
  repeat' split
  all_goals simp [PosS.edgeSpeed, PosS.lostSpeed, PosS.step_cfg, PosS.steps_cfg]

theorem ChR.quadChange_cfg (r : ChR) (stamp16 before after : Nat) :
    (r.quadChange stamp16 before after).c.pos.cfg = r.c.pos.cfg := by
  obtain ⟨p, hc, hcfg⟩ := r.quadChange_c stamp16 before after
  rw [hc, ← hcfg]

theorem ChR.indexEvent_cfg (r : ChR) (stamp16 : Nat) : (r.indexEvent stamp16).c.pos.cfg = r.c.pos.cfg := by
  have hstart : ∀ x : ChR, (x.startEnds false).c.pos.cfg = x.c.pos.cfg :=
    fun x => congrArg (fun y => y.1.cfg) (x.startEnds_counting false)
  have hfault : ∀ (x : ChR) cause info stamp, (x.qualifyPos cause info stamp).c.pos.cfg = x.c.pos.cfg :=
    fun x cause info stamp => congrArg (fun y => y.pos.cfg) (x.qualifyPos_kept cause info stamp)
  simp only [ChR.indexEvent]
  repeat' split
  · rw [hstart]; rfl
  · rfl
  · rfl
  · rfl
  · rw [hfault]; rfl
  · rfl

theorem ChR.pinsTo_cfg (r : ChR) (stamp16 : Nat) (new : BitVec 3) : (r.pinsTo stamp16 new).c.pos.cfg = r.c.pos.cfg := by
  simp only [ChR.pinsTo, ChR.zChange]
  split
  · rfl
  · split
    · rfl
    · rw [ChR.hallChange_cfg]; rfl
  · repeat' split
    · rw [ChR.quadChange_cfg]; rfl
    · rw [ChR.indexEvent_cfg, ChR.quadChange_cfg]; rfl
    · rw [ChR.quadChange_cfg]; rfl

/-! ### The pattern (R320) -/

/-- R320 the pattern of the test `l` has come on by `k` changes: it adds to what failed, and hands out nothing. -/
structure ChR.PatternOn (r' r : ChR) (l : LbRun) (k : Nat) : Prop where
  env : r'.env = r.env
  out : r'.out = r.out
  cfg : r'.c.pos.cfg = r.c.pos.cfg
  test : ∃ home bad, r'.c.core.lb = some { l with made := l.made + k, home := home, bad := bad }

theorem ChR.PatternOn.refl {r : ChR} {l : LbRun} (h : r.c.core.lb = some l) : r.PatternOn r l 0 :=
  ⟨rfl, rfl, rfl, l.home, l.bad, h⟩

theorem ChR.patternStep_on {r : ChR} {l : LbRun} (h : r.c.core.lb = some l) : r.patternStep.PatternOn r l 1 where
  env := r.patternStep_env
  out := by simp only [ChR.patternStep, h, ChR.core_out]
  cfg := by
    simp only [ChR.patternStep, h, ChR.core_c_pos]
    split
    · rw [ChR.pinsTo_cfg]
    · rw [ChR.pinsTo_cfg, ChR.pinsTo_cfg]
  test := by simp only [ChR.patternStep, h, ChR.core_c_core]; exact ⟨_, _, rfl⟩

theorem ChR.patternSteps_on {r : ChR} {l : LbRun} (h : r.c.core.lb = some l) (k : Nat) :
    (r.patternSteps k).PatternOn r l k := by
  induction k generalizing r l with
  | zero => exact .refl h
  | succ k ih =>
    obtain ⟨henv, hout, hcfg, home, bad, htest⟩ := ChR.patternStep_on h
    obtain ⟨henv', hout', hcfg', home', bad', htest'⟩ := ih htest
    refine ⟨henv'.trans henv, hout'.trans hout, hcfg'.trans hcfg, home', bad', htest'.trans ?_⟩
    simp only [Nat.add_assoc, Nat.add_comm 1 k]

theorem ChR.pattern_on {r : ChR} {l : LbRun} (h : r.c.core.lb = some l) (hl : l.target = 1) (t : Nat) :
    (r.pattern t).PatternOn r l (min (patternLen r.c.posMode) ((t - l.start) / 640) - l.made) := by
  simp only [ChR.pattern, h, hl, if_true]
  exact ChR.patternSteps_on h _

theorem ChR.pattern_of_target {r : ChR} {l : LbRun} (h : r.c.core.lb = some l) (hl : l.target ≠ 1) (t : Nat) :
    r.pattern t = r := by
  simp only [ChR.pattern, h, if_neg hl]

/-! ### The sample instant during a loop-back test (R303, R316) -/

/-- R316 no sample instant waits to be taken. -/
def ChR.SlotTaken (r : ChR) : Prop := ∀ x, r.c.adc.slot = some x → x.pos.isSome = true ∨ r.env.t ≤ x.start + 60

theorem ChR.sampleFirst_of_taken {r : ChR} {l : LbRun} (h : r.c.core.lb = some l) (hl : l.target ≠ 1) (ht : r.SlotTaken) :
    r.sampleFirst = r := by
  have htake : r.when (r.c.adc.slot.any fun x => decide (x.start + 60 < r.env.t)) ChR.takeSample = r := by
    cases hslot : r.c.adc.slot with
    | none => rfl
    | some x =>
      obtain hpos | htime := ht x hslot
      · have hnone : x.pos.isNone = false := by rw [← Option.not_isSome, hpos]; rfl
        simp [ChR.when, ChR.takeSample, hslot, hnone]
      · simp [Nat.not_lt.mpr htime]
  rw [ChR.sampleFirst, htake, ChR.pattern_of_target h hl]

/-- R319 during a position test the Hall check counts, and qualifies nothing. -/
theorem ChR.hallSample_of_test {r : ChR} (h : r.c.posLb = true) (stamp : Nat) :
    ∃ k, r.hallSample stamp = r.pos fun p => { p with invRun := k } := by
  simp only [ChR.hallSample]
  split
  · split
    · exact ⟨0, rfl⟩
    · rw [if_neg fun hq => Bool.noConfusion (h.symm.trans hq.2.2)]
      exact ⟨_, rfl⟩
  · exact ⟨r.c.pos.invRun, rfl⟩

/-- R320 after the nominal instant of its last change the pattern is complete. -/
theorem ChR.sampleFirst_completes {r : ChR} {l : LbRun} (h : r.c.core.lb = some l) (hl : l.target = 1)
    (ht : l.start + 640 * patternLen r.c.posMode ≤ r.env.t) :
    ∃ k, r.sampleFirst.PatternOn r l k ∧ patternLen r.c.posMode ≤ l.made + k := by
  have htake : ∀ b, ∃ k, (r.when b ChR.takeSample).PatternOn r l k := by
    intro b
    cases b
    · exact ⟨0, .refl h⟩
    rw [ChR.when_true]
    simp only [ChR.takeSample]
    split
    · split
      · rename_i x _ _
        obtain ⟨henv, hout, hcfg, home, bad, htest⟩ := ChR.pattern_on h hl (x.start + 60)
        generalize hw : (r.pattern (x.start + 60)).adc _ = w
        have hlb : w.c.core.lb = (r.pattern (x.start + 60)).c.core.lb := by rw [← hw]; rfl
        obtain ⟨k, hhall⟩ := ChR.hallSample_of_test (r := w) (by simp [Chan.posLb, hlb, htest, hl]) (x.start + 60)
        rw [hhall, ← hw]
        exact ⟨_, henv, hout, hcfg, home, bad, htest⟩
      · exact ⟨0, .refl h⟩
    · exact ⟨0, .refl h⟩
  rw [ChR.sampleFirst]
  obtain ⟨k, henv, hout, hcfg, home, bad, htest⟩ := htake (r.c.adc.slot.any fun x => decide (x.start + 60 < r.env.t))
  generalize r.when _ ChR.takeSample = w at henv hout hcfg htest
  obtain ⟨henv', hout', hcfg', home', bad', htest'⟩ := ChR.pattern_on htest hl r.env.t
  have hmode : w.c.posMode = r.c.posMode := by simp only [Chan.posMode, hcfg]
  rw [hmode] at htest'
  refine ⟨k + (min (patternLen r.c.posMode) ((r.env.t - l.start) / 640) - (l.made + k)),
    ⟨henv'.trans henv, hout'.trans hout, hcfg'.trans hcfg, home', bad', ?_⟩, ?_⟩
  · rw [htest', ← Nat.add_assoc]
  · have : patternLen r.c.posMode ≤ (r.env.t - l.start) / 640 := by omega
    omega

end Sys2Proof.Machine
end

section
/-! R284, R320, R730 to R734: a loop-back test that ends by itself. -/
namespace Sys2Proof.Machine

/-! ### Sensing at LB1 (R284, R731) -/

/-- What the codes of LB1 leave: the channel's state with its test, and what it has handed out. -/
def ChR.apart (r : ChR) : ChEnv × List ChOut × CoreS := (r.env, r.out, r.c.core)

theorem ChR.apart_eq_iff {r : ChR} {e : ChEnv} {o : List ChOut} {c : CoreS} :
    r.apart = (e, o, c) ↔ r.env = e ∧ r.out = o ∧ r.c.core = c := by simp [ChR.apart]

theorem ChR.give_apart (r : ChR) (a v : Nat) : (r.give a v).apart = r.apart := rfl

theorem ChR.giveAll_apart (r : ChR) (a : Nat) (vs : List Nat) : (r.giveAll a vs).apart = r.apart := by
  induction vs generalizing r a with
  | nil => rfl
  | cons v vs ih => exact ih _ _

/-- R731 during a sensing test windows raise no event. -/
theorem ChR.windowSees_apart {r : ChR} (h : r.c.sensTest = true) (src v : Nat) (k : Fin 4) :
    (r.windowSees src v k).apart = r.apart := by
  simp only [ChR.windowSees]
  split
  · split
    · rw [if_pos (by exact h)]; rfl
    · rfl
  · rfl

/-- R731 a test of sensing runs for as long as the channel's state is what it was. -/
theorem ChR.sensTest_of_apart {r r' : ChR} (h : r'.apart = r.apart) : r'.c.sensTest = r.c.sensTest := by
  obtain ⟨-, -, hcore⟩ := ChR.apart_eq_iff.mp h
  simp only [Chan.sensTest, hcore]

theorem ChR.foldl_apart {α : Type} {f : ChR → α → ChR} (h : ∀ x a, x.c.sensTest = true → (f x a).apart = x.apart)
    (l : List α) {r : ChR} (hr : r.c.sensTest = true) : (l.foldl f r).apart = r.apart := by
  induction l generalizing r with
  | nil => rfl
  | cons a l ih =>
    have hstep := h r a hr
    exact (ih ((ChR.sensTest_of_apart hstep).trans hr)).trans hstep

theorem ChR.windows_apart {r : ChR} (h : r.c.sensTest = true) (src v : Nat) : (r.windows src v).apart = r.apart :=
  ChR.foldl_apart (fun _ k hx => ChR.windowSees_apart hx src v k) _ h

theorem ChR.lb1Code_apart {r : ChR} (h : r.c.sensTest = true) (code : Nat) : (r.lb1Code code).apart = r.apart := by
  simp only [ChR.lb1Code]
  generalize hw : ChR.give _ _ _ = w
  have hgive : w.apart = r.apart := by rw [← hw, ChR.give_apart, ChR.giveAll_apart]; rfl
  have hwin : ∀ {x : ChR}, x.apart = r.apart → ∀ src v, (x.windows src v).apart = r.apart :=
    fun hx src v => (ChR.windows_apart ((ChR.sensTest_of_apart hx).trans h) src v).trans hx
  exact hwin (hwin (hwin (hwin hgive _ _) _ _) _ _) _ _

/-! ### The end of a test (R734) -/

/-- R734 RESULT [5:0] of a test that ends by itself: PASS, and the FAIL bits. -/
def lbResult (fails : BitVec 5) : Nat := (if fails = 0 then 1 else 0) + 2 * fails.toNat

theorem lbResult_zero : lbResult 0 = 1 := rfl

theorem lbResult_of_ne {fails : BitVec 5} (h : fails ≠ 0) : lbResult fails = 2 * fails.toNat := by
  rw [lbResult, if_neg h, Nat.zero_add]

section
variable {r : ChR} {l : LbRun} (h : r.c.core.lb = some l) (fails : BitVec 5)
include h

theorem ChR.endLb_lb : (r.endLb fails.toNat 0).c.core.lb = none := by
  simp only [ChR.endLb, h, ChR.finish_c, ChR.event_c]; split <;> rfl

/-- R321 a position test leaves the position state reset. -/
theorem ChR.endLb_count (hl : l.target = 1) : (r.endLb fails.toNat 0).c.pos.count = 0 := by
  simp only [ChR.endLb, h, if_pos hl]; rfl

/-- R734 the end of any other test leaves the rest of the channel. -/
theorem ChR.endLb_c (hl : l.target ≠ 1) :
    (r.endLb fails.toNat 0).c = { r.c with core := { r.c.core with lb := none } } := by
  simp only [ChR.endLb, h, if_neg hl]; rfl

/-- R734 event LB_TEST_DONE, and RESULT for the descriptor. -/
theorem ChR.endLb_hands : ∃ data us, (r.endLb fails.toNat 0).out =
    r.out ++ [.event 0x1090 r.env.t data, .finish [0x19] stOk 0 (lbResult fails + 65536 * us)] := by
  have hfails : fails.toNat % 32 = fails.toNat := Nat.mod_eq_of_lt fails.isLt
  have hresult : b2n (fails.toNat == 0 && (0 : Nat) == 0) + 2 * (fails.toNat % 32) + 256 * 0 = lbResult fails := by
    by_cases hz : fails = 0
    · subst hz; rfl
    · have hne : fails.toNat ≠ 0 := fun e => hz (BitVec.eq_of_toNat_eq e)
      rw [lbResult_of_ne hz, hfails]; simp [b2n, hne]
  simp only [ChR.endLb, h, hresult]
  generalize hw : ite (l.target = 1) _ _ = w
  have hwout : w.out = r.out ∧ w.env = r.env := by rw [← hw]; split <;> exact ⟨rfl, rfl⟩
  refine ⟨[u8 16 l.target, u8 17 l.depth, u16 18 (lbResult fails), u16 20 (min ((r.env.t - l.start) / 1000) 65535)],
    min ((r.env.t - l.start) / 1000) 65535, ?_⟩
  rw [← hwout.1, ← hwout.2, List.append_cons]
  rfl
end

/-! ### LB_TEST_DONE by target (R730 to R733) -/

/-- R320 the FAIL bit of a HALL test in which the invalid state at the end of the pattern was not sampled often enough. -/
def ChR.hallMissed (r : ChR) : BitVec 5 :=
  if r.c.posMode == 3 && decide (r.c.pos.invRun < atLeast1 (fld r.c.pos.cfg 19 16)) then 16#5 else 0#5

section
variable {r : ChR} {l : LbRun} (h : r.c.core.lb = some l)
include h

/-- R731 sensing at LB1, with its codes passed through the channel's correction. -/
theorem ChR.lbDone_lb1 (hl : l.target = 0) (hd : l.depth ≠ 2) (ht : r.SlotTaken) (fails : BitVec 5) :
    r.lbDone (.digital fails) = (lb1Codes.foldl ChR.lb1Code r).endLb (fails ||| l.bad).toNat 0 := by
  have hs := ChR.sampleFirst_of_taken h (by rw [hl]; decide) ht
  simp [ChR.lbDone, hs, h, ChR.lbOver, hl, hd]

/-- R733 a gate test of four carrier periods. -/
theorem ChR.lbDone_gate (hl : l.target = 2) (ht : r.SlotTaken)
    (hover : 4 * actPeriod r.c.pwm.period * sixteenth ≤ r.c.ticksWithin r.env.time l.start r.env.t) (fails : BitVec 5) :
    r.lbDone (.digital fails) = r.endLb (fails ||| l.bad).toNat 0 := by
  have hs := ChR.sampleFirst_of_taken h (by rw [hl]; decide) ht
  simp [ChR.lbDone, hs, h, ChR.lbOver, hl, hover]

/-- R731 sensing at LB2. -/
theorem ChR.lbDone_lb2 (hl : l.target = 0) (hd : l.depth = 2) (ht : r.SlotTaken) {codes : List (Nat × Nat)}
    {cmps : List (BitVec 5)} (hcodes : codes.length = 24) (hcmps : cmps.length = 8) (dacs : Bool) :
    r.lbDone (.analog codes cmps dacs) = r.endLb (r.c.adc.lb2Fails codes cmps dacs).toNat 0 := by
  have hs := ChR.sampleFirst_of_taken h (by rw [hl]; decide) ht
  simp [ChR.lbDone, hs, h, ChR.lbOver, hl, hd, hcodes, hcmps]

/-- R320, R732 a position test whose pattern has run. -/
theorem ChR.lbDone_position (hl : l.target = 1) (ht : l.start + 640 * patternLen r.c.posMode ≤ r.env.t) :
    ∃ (l' : LbRun) (more : BitVec 5), r.sampleFirst.c.core.lb = some l' ∧ l'.target = 1 ∧ r.sampleFirst.env = r.env ∧
      r.sampleFirst.out = r.out ∧
      ∀ fails, r.lbDone (.digital fails) = r.sampleFirst.endLb (fails ||| more).toNat 0 := by
  obtain ⟨k, ⟨henv, hout, hcfg, home, bad, htest⟩, hmade⟩ := ChR.sampleFirst_completes h hl ht
  have hmode : r.sampleFirst.c.posMode = r.c.posMode := congrArg (fld · 31 30) hcfg
  refine ⟨_, bad ||| r.sampleFirst.hallMissed, htest, hl, henv, hout, fun fails => ?_⟩
  have hover : decide (patternLen r.sampleFirst.c.posMode ≤ l.made + k) = true := by rw [hmode]; exact decide_eq_true hmade
  simp only [ChR.lbDone, htest, ChR.lbOver, hl, hover, if_true, BitVec.or_assoc]
  rfl
end

end Sys2Proof.Machine
end

section
/-! R731: the verdict on sensing at LB2. -/
namespace Sys2Proof.Machine

/-- R731 the codes of each level lie within 8 steps of it and within 4 of each other, each comparator whose threshold is more
than 16 steps away from a level agrees with it, and the threshold DACs pass. -/
def AdcS.Lb2Good (a : AdcS) (codes : List (Nat × Nat)) (cmps : List (BitVec 5)) (dacs : Bool) : Prop :=
  let near (k c : Nat) : Prop := lb2Level (k / 3) * 16 ≤ c + 128 ∧ c ≤ lb2Level (k / 3) * 16 + 128
  let agrees (k : Nat) (got : BitVec 5) (j : Fin 5) : Prop :=
    (lb2Level k ≤ a.threshold j + 16 ∧ a.threshold j ≤ lb2Level k + 16) ∨
      got.getLsbD j = decide (if j.val = 1 ∨ j.val = 3 then lb2Level k < a.threshold j else a.threshold j < lb2Level k)
  (∀ k u v, codes[k]? = some (u, v) → near k u ∧ near k v ∧ u ≤ v + 64 ∧ v ≤ u + 64) ∧
  (∀ k got, cmps[k]? = some got → ∀ j : Fin 5, agrees k got j) ∧ dacs = false

theorem AdcS.lb2Cmp_iff (a : AdcS) (level : Nat) (got : BitVec 5) :
    a.lb2Cmp level got = true ↔ ∀ j : Fin 5,
      (level ≤ a.threshold j + 16 ∧ a.threshold j ≤ level + 16) ∨
        got.getLsbD j = decide (if j.val = 1 ∨ j.val = 3 then level < a.threshold j else a.threshold j < level) := by
  simp only [AdcS.lb2Cmp, List.all_eq_true, List.mem_finRange, forall_const, Bool.or_eq_true, decide_eq_true_eq, beq_iff_eq]
  refine forall_congr' fun j => or_congr_right ?_
  split <;> rfl

theorem all_zipIdx_iff {α : Type} (l : List α) (p : α × Nat → Bool) :
    l.zipIdx.all p = true ↔ ∀ k x, l[k]? = some x → p (x, k) = true := by
  simp only [List.all_eq_true, Prod.forall, List.mk_mem_zipIdx_iff_getElem?]
  exact forall_comm

/-- The FAIL bits of five checks are 0 when each passes. -/
theorem failBits_eq_zero_iff : ∀ a b c d e : Bool,
    (if !a then BitVec.ofNat 5 (2 ^ 0) else 0) ||| (if !b then BitVec.ofNat 5 (2 ^ 1) else 0) |||
      (if !c then BitVec.ofNat 5 (2 ^ 2) else 0) ||| (if !d then BitVec.ofNat 5 (2 ^ 3) else 0) |||
      (if e then BitVec.ofNat 5 (2 ^ 4) else 0) = (0 : BitVec 5) ↔ a = true ∧ b = true ∧ c = true ∧ d = true ∧ e = false := by
  decide

/-- R730, R731 no FAIL bit of sensing at LB2 is set when all is well. -/
theorem AdcS.lb2Fails_eq_zero_iff (a : AdcS) (codes : List (Nat × Nat)) (cmps : List (BitVec 5)) (dacs : Bool) :
    a.lb2Fails codes cmps dacs = 0 ↔ a.Lb2Good codes cmps dacs := by
  have hpair : codes.all (fun x => decide (x.1 ≤ x.2 + 64) && decide (x.2 ≤ x.1 + 64)) = true ↔
      ∀ (k : Nat) (x : Nat × Nat), codes[k]? = some x → x.1 ≤ x.2 + 64 ∧ x.2 ≤ x.1 + 64 := by
    simp only [List.all_eq_true, List.mem_iff_getElem?, Bool.and_eq_true, decide_eq_true_eq]
    exact ⟨fun h k x hx => h x ⟨k, hx⟩, fun h x ⟨k, hx⟩ => h k x hx⟩
  refine (failBits_eq_zero_iff _ _ _ _ _).trans ?_
  simp only [all_zipIdx_iff, hpair, AdcS.lb2Cmp_iff, Bool.and_eq_true, decide_eq_true_eq, Prod.forall, AdcS.Lb2Good]
  constructor
  · rintro ⟨hu, hv, hpair, hcmps, hdacs⟩
    exact ⟨fun k u v hc => ⟨hu k u v hc, hv k u v hc, hpair k u v hc⟩, hcmps, hdacs⟩
  · rintro ⟨hcodes, hcmps, hdacs⟩
    exact ⟨fun k u v hc => (hcodes k u v hc).1, fun k u v hc => (hcodes k u v hc).2.1, fun k u v hc => (hcodes k u v hc).2.2,
      hcmps, hdacs⟩

end Sys2Proof.Machine
end

section
/-! R320, R730 to R734: LB_TEST_DONE of a channel as a command finds it. -/
namespace Sys2Proof.Machine

theorem exec_lbTestDone (t : Nat) (n : ChanId) (found : LbFound) (s : State) :
    exec (.lbTestDone t n found) s = s.chCmd t n fun r => r.lbDone found := by rfl

/-! ### What the command finds -/

theorem State.chanIn_out (s : State) (n : ChanId) : (s.chanIn n).out = [] := by
  simp only [State.chanIn, ChR.lanesFirst]
  repeat' split
  all_goals rfl

/-- R461 a slot in progress has its lanes taken, and no more. -/
theorem State.chanIn_slot {s : State} {n : ChanId} {x' : SlotRun} (h : (s.chanIn n).c.adc.slot = some x') :
    ∃ x, s.chans[n].adc.slot = some x ∧ x'.pos = x.pos ∧ x'.start = x.start := by
  simp only [State.chanIn, ChR.lanesFirst] at h
  split at h
  · rename_i x hx
    split at h
    · obtain rfl := Option.some.inj h
      exact ⟨x, hx, rfl, rfl⟩
    · exact ⟨x', h, rfl, rfl⟩
  · exact ⟨x', h, rfl, rfl⟩

/-- R316 a sample instant that has been taken, or has not passed, as the command finds it. -/
theorem State.chanIn_slotTaken {s : State} {t : Nat} {n : ChanId}
    (h : ∀ x, s.chans[n].adc.slot = some x → x.pos.isSome = true ∨ max s.dtime t ≤ x.start + 60) :
    ((s.at t).chanIn n).SlotTaken := by
  intro x' hx'
  obtain ⟨x, hx, hpos, hstart⟩ := State.chanIn_slot hx'
  rw [hpos, hstart, State.chanIn_env]
  exact h x hx

/-! ### The command -/

/-- The command ends the test `l` of channel `n` with these FAIL bits, from `r` on. -/
structure LbEnds (s : State) (t : Nat) (n : ChanId) (found : LbFound) (r : ChR) (l : LbRun) (fails : BitVec 5) : Prop where
  powered : (s.at t).powered = true
  done : ((s.at t).chanIn n).lbDone found = r.endLb fails.toNat 0
  env : r.env = (s.at t).chEnv n
  out : r.out = []
  test : r.c.core.lb = some l

/-- R734 a descriptor CH_LB_TEST held in time for the channel completes with OK and such a RESULT [15:0]. -/
def LbAnswers (s : State) (t : Nat) (n : ChanId) (found : LbFound) (P : Nat → Prop) : Prop :=
  ∀ (q : SqRef) (h : Held), (s.sqAt q).held = some h → h.opcode = 0x19 → h.unit = n.val → h.late = false →
    (∀ d, h.deadline = some d → max s.dtime t ≤ d) → (s.ports[q.port].cqs[(s.sqAt q).cqId]).usable = true →
    Does (.lbTestDone t n found) s fun s1 => (s1.sqAt q).held = none ∧
      ∃ x : Completion, ((∃ c i a ph, Out.completion q.port c i a ph x ∈ s1.outbox) ∨ x ∈ (s1.sqAt q).stalled) ∧
        x.cid = h.cid ∧ x.sqId = q.sq.val ∧ x.status = stOk ∧ P (x.result % 65536)

theorem lbResult_lt (fails : BitVec 5) : lbResult fails < 64 := by
  have := fails.isLt
  simp only [lbResult]; split <;> omega

section
variable {s : State} {t : Nat} {n : ChanId} {found : LbFound} {r : ChR} {l : LbRun} {fails : BitVec 5}

theorem LbEnds.leaves (h : LbEnds s t n found r l fails) {P : Chan → Prop} (hP : P (r.endLb fails.toNat 0).c) :
    Leaves (.lbTestDone t n found) s t n P :=
  leaves_chCmd _ (exec_lbTestDone ..) h.powered (Nat.le_refl _) (by rw [h.done, ChR.endLb_env, h.env]; rfl)
    (by rw [h.done]; exact hP)

theorem LbEnds.leaves_noTest (h : LbEnds s t n found r l fails) :
    Leaves (.lbTestDone t n found) s t n fun c => c.core.lb = none :=
  h.leaves (ChR.endLb_lb h.test fails)

theorem LbEnds.answers (h : LbEnds s t n found r l fails) {P : Nat → Prop} (hP : P (lbResult fails)) :
    LbAnswers s t n found P := by
  intro q x hheld hop hunit hlate hdue husable
  obtain ⟨data, us, hout⟩ := ChR.endLb_hands h.test fails
  obtain ⟨more, hmore⟩ := ChR.settle_out (r.endLb fails.toNat 0)
  rw [hout, h.out, List.nil_append, List.cons_append, List.singleton_append] at hmore
  let s0 : State := { s.at t with chans := s.chans.set n (r.endLb fails.toNat 0).settle.c }
  have hwait : s0.Awaits q x := ⟨hheld, husable, by
    simp only [Held.inTime, hlate, Bool.not_false, Bool.true_and, Option.all_eq_true, decide_eq_true_eq]
    exact hdue⟩
  obtain ⟨hnone, y, hy, hcid, hsq, hst, hres⟩ := hwait.ends (n := n) hunit (ops := [0x19]) (by rw [hop]; rfl) 0x1090 r.env.t 0
    (lbResult fails + 65536 * us) data more
  have hexec : exec (.lbTestDone t n found) s = .next ((.event 0x1090 r.env.t data :: .finish [0x19] stOk 0
      (lbResult fails + 65536 * us) :: more).foldl (fun s o => s.chOut n o) s0) := by
    rw [exec_lbTestDone, hmore]
    simp only [State.chCmd, h.powered, if_true, State.onChan, h.done]
    rfl
  refine ⟨_, hexec, hnone, y, hy, hcid, hsq, hst, ?_⟩
  have hlow : y.result % 65536 = lbResult fails := by
    have := lbResult_lt fails
    omega
  rw [hlow]
  exact hP
end

/-! ### The tests by target -/

section
variable {s : State} {n : ChanId} {b : LbRun} (hb : s.chans[n].core.lb = some b)
include hb

/-- The command finds the channel's test. -/
theorem State.chanIn_lb (t : Nat) : ((s.at t).chanIn n).c.core.lb = some b := by
  have hcore : ((s.at t).chanIn n).c.core = s.chans[n].core := s.chanAt_core t n
  rw [hcore, hb]

variable {t : Nat} (hp : (s.at t).powered = true)
include hp

theorem lbEnds_lb1 (hl : b.target = 0) (hd : b.depth ≠ 2) (ht : ((s.at t).chanIn n).SlotTaken) (fails : BitVec 5) :
    LbEnds s t n (.digital fails) (lb1Codes.foldl ChR.lb1Code ((s.at t).chanIn n)) b (fails ||| b.bad) := by
  have hlb := State.chanIn_lb hb t
  have hsens : ((s.at t).chanIn n).c.sensTest = true := by simp [Chan.sensTest, hlb, hl]
  have hcodes : (lb1Codes.foldl ChR.lb1Code ((s.at t).chanIn n)).apart = _ :=
    ChR.foldl_apart (fun _ code hx => ChR.lb1Code_apart hx code) _ hsens
  obtain ⟨henv, hout, hcore⟩ := ChR.apart_eq_iff.mp hcodes
  exact ⟨hp, ChR.lbDone_lb1 hlb hl hd ht fails, henv.trans (State.chanIn_env _ _), hout.trans (State.chanIn_out _ _),
    by rw [hcore]; exact hlb⟩

theorem lbEnds_lb2 (hl : b.target = 0) (hd : b.depth = 2) (ht : ((s.at t).chanIn n).SlotTaken) {codes : List (Nat × Nat)}
    {cmps : List (BitVec 5)} (hcodes : codes.length = 24) (hcmps : cmps.length = 8) (dacs : Bool) :
    LbEnds s t n (.analog codes cmps dacs) ((s.at t).chanIn n) b
      (((s.at t).chanIn n).c.adc.lb2Fails codes cmps dacs) :=
  have hlb := State.chanIn_lb hb t
  ⟨hp, ChR.lbDone_lb2 hlb hl hd ht hcodes hcmps dacs, State.chanIn_env _ _, State.chanIn_out _ _, hlb⟩

theorem lbEnds_gate (hl : b.target = 2) (ht : ((s.at t).chanIn n).SlotTaken)
    (hover : 4 * actPeriod s.chans[n].pwm.period * sixteenth ≤ (s.chanAt t n).ticksWithin s.time b.start (max s.dtime t))
    (fails : BitVec 5) : LbEnds s t n (.digital fails) ((s.at t).chanIn n) b (fails ||| b.bad) := by
  have hlb := State.chanIn_lb hb t
  have hpwm : ((s.at t).chanIn n).c.pwm = s.chans[n].pwm := s.chanAt_pwm t n
  have henv := (s.at t).chanIn_env n
  exact ⟨hp, ChR.lbDone_gate hlb hl ht (by rw [hpwm, henv]; exact hover) fails, henv, State.chanIn_out _ _, hlb⟩

theorem lbEnds_position (hl : b.target = 1)
    (ht : b.start + 640 * (if s.chans[n].posMode = 3 then 98 else 8193) ≤ max s.dtime t) :
    ∃ (r : ChR) (l : LbRun) (more : BitVec 5), l.target = 1 ∧
      ∀ fails, LbEnds s t n (.digital fails) r l (fails ||| more) := by
  have hpos : ((s.at t).chanIn n).c.pos = s.chans[n].pos := s.chanAt_pos t n
  have henv0 := (s.at t).chanIn_env n
  obtain ⟨l, more, htest, hl', henv, hout, hdone⟩ := ChR.lbDone_position (State.chanIn_lb hb t) hl
    (by rw [henv0, Chan.posMode, hpos]; exact ht)
  exact ⟨_, l, more, hl', fun fails => ⟨hp, hdone fails, henv.trans henv0, hout.trans (State.chanIn_out _ _), htest⟩⟩
end

/-- R279 the lanes of a slot in progress are no part of the thresholds. -/
theorem State.chanIn_lb2Fails (s : State) (t : Nat) (n : ChanId) (codes : List (Nat × Nat)) (cmps : List (BitVec 5))
    (dacs : Bool) :
    ((s.at t).chanIn n).c.adc.lb2Fails codes cmps dacs = s.chans[n].adc.lb2Fails codes cmps dacs := by
  obtain ⟨sl, h⟩ := s.chanAt_eq t n
  have hc : ((s.at t).chanIn n).c = _ := h
  rw [hc]; rfl

end Sys2Proof.Machine
end

section
/-! R739 to R747: the counting windows and the tag samples. -/
namespace Sys2Proof.Machine

/-! ### The commands -/

theorem exec_perfWindowEnd (t : Nat) (s : State) : exec (.perfWindowEnd t) s = s.lastCmd t State.windowEnds := by rfl
theorem exec_bwWinWrite (t : Nat) (p : PortId) (v : Word) (s : State) :
    exec (.bwWinWrite t p v) s = s.barCmd t p fun s => s.barWrite p 0x060000 v := by rfl
theorem exec_tagSampleRead (t : Nat) (p : PortId) (s : State) :
    exec (.tagSampleRead t p) s = s.barCmd t p fun s => State.answer (s.barRead p 0x060404) := by rfl

/-- R668 a command of a unit that runs for as long as the main supply lasts. -/
theorem does_lastCmd {i : Instr} {s : State} {t : Nat} {P : State → Prop} {f : State → State}
    (he : exec i s = s.lastCmd t f) (hs : s.supplied = true) (h : P (f (s.at t))) : Does i s P := by
  have hs' : (s.at t).supplied = true := hs
  exact ⟨_, he.trans (by simp only [State.lastCmd, hs', if_true]), h⟩

/-! ### The end of a window (R740) -/

/-- R739 a port's counts but for CQ_HOLD, and its window. -/
def PortS.counted (x : PortS) : PerfCnt × PerfCnt × PerfCnt := ({ x.live with cqHold := 0 }, x.winBase, x.win)

/-- R739 bringing CQ_HOLD up to now leaves the other counts. -/
theorem State.settleCounts_counted (s : State) (p : PortId) : s.settleCounts.ports[p].counted = s.ports[p].counted := by
  have hone : ∀ (s : State) (q : PortId), (s.settleHold q).ports.map PortS.counted = s.ports.map PortS.counted := by
    intro s q
    simp only [State.settleHold]
    split
    · rfl
    · exact State.onPort_map PortS.counted s q _ fun _ => rfl
  have hall := foldl_keeps (fun s : State => s.ports.map PortS.counted) _ hone (List.finRange 4) s
  rw [← State.settleCounts] at hall
  simpa using congrArg (fun v => v[p]) hall

theorem State.settleCounts_perf (s : State) : s.settleCounts.perf = s.perf :=
  foldl_keeps State.perf _ (fun s p => s.settleHold_perf p) _ _

section
variable {s : State}

/-- R740 before the end of the window nothing ends. -/
theorem State.windowEnds_early (h : s.dtime < s.perf.winEnd) : s.windowEnds = s := if_neg (Nat.not_le.mpr h)

variable (h : s.perf.winEnd ≤ s.dtime)
include h

theorem State.windowEnds_due : s.windowEnds = { s.restartWindow (!s.perf.winWait) with perf := { s.perf with
    bwSeq := if !s.perf.winWait then (s.perf.bwSeq + 1) % 2 ^ 32 else s.perf.bwSeq
    winEnd := s.perf.winEnd + s.perf.winLen
    winWait := false } } := by
  have hperf : ∀ keep, (s.restartWindow keep).perf = s.perf := fun _ => s.settleCounts_perf
  simp only [State.windowEnds, if_pos h, hperf]

/-- R740 the window that starts counts from the running counts. -/
theorem State.windowEnds_starts (p : PortId) : s.windowEnds.ports[p].winBase = s.windowEnds.ports[p].live ∧
    s.windowEnds.ports[p].live.desc = s.ports[p].live.desc := by
  have hlive : s.settleCounts.ports[p].live.desc = s.ports[p].live.desc :=
    congrArg (fun x => x.1.desc) (s.settleCounts_counted p)
  rw [State.windowEnds_due h]
  simpa [State.restartWindow] using hlive

/-- R740 the first window of a new length leaves the window set. -/
theorem State.windowEnds_win_of_wait (hw : s.perf.winWait = true) (p : PortId) :
    s.windowEnds.ports[p].win = s.ports[p].win := by
  have hwin : s.settleCounts.ports[p].win = s.ports[p].win := congrArg (fun x => x.2.2) (s.settleCounts_counted p)
  rw [State.windowEnds_due h]
  simpa [State.restartWindow, hw] using hwin

/-- R740, R741 the window set takes the counts of the window that ends. -/
theorem State.windowEnds_win (hw : s.perf.winWait = false) (p : PortId) :
    ∃ hold, s.windowEnds.ports[p].win = { s.ports[p].live.since s.ports[p].winBase with cqHold := hold } := by
  have hcounted := s.settleCounts_counted p
  have hlive : ({ s.settleCounts.ports[p].live with cqHold := 0 } : PerfCnt) = { s.ports[p].live with cqHold := 0 } :=
    congrArg (fun x => x.1) hcounted
  have hbase : s.settleCounts.ports[p].winBase = s.ports[p].winBase := congrArg (fun x => x.2.1) hcounted
  refine ⟨since48 s.settleCounts.ports[p].live.cqHold s.ports[p].winBase.cqHold, ?_⟩
  simp only [PerfCnt.mk.injEq, Fin.getElem_fin] at hlive hbase
  obtain ⟨hrd, hwr, hdesc, hmmio, -⟩ := hlive
  rw [State.windowEnds_due h]
  simp [State.restartWindow, hw, PerfCnt.since, hrd, hwr, hdesc, hmmio, hbase]
end

/-! ### PERF.CTRL (R740, R747) -/

theorem State.barWrite_perfCtrl (s : State) (p : PortId) (v : Word) :
    s.barWrite p 0x060000 v = s.adminWrite p 0x060000 fun s => s.writePerfCtrl v := by rfl

/-- R747 BW_WIN is among the writable bits of PERF.CTRL. -/
theorem fld_bwWin (v : Word) : fld (v &&& 0x000FFFFF#32) 15 0 = fld v 15 0 := by
  simp only [fld, BitVec.toNat_and, Nat.shiftRight_zero, Nat.and_mod_two_pow]
  exact Nat.and_two_pow_sub_one_of_lt_two_pow (n := 16) (Nat.mod_lt _ (by decide))

/-- R740 the length of a window in ticks. -/
theorem PerfS.winLen_eq (x : PerfS) : x.winLen = max 1 (fld x.ctrl 15 0) * 100000 := by
  simp [PerfS.winLen, atLeast1, Nat.max_comm]

theorem State.writePerfCtrl_same {s : State} {v : Word} (h : fld v 15 0 = fld s.perf.ctrl 15 0) :
    (s.writePerfCtrl v).perf = { s.perf with ctrl := v &&& 0x000FFFFF#32 } := by
  simp [State.writePerfCtrl, h]

/-- R740 a new BW_WIN: the next window starts at the next multiple of the new length. -/
theorem State.writePerfCtrl_new {s : State} {v : Word} (h : fld v 15 0 ≠ fld s.perf.ctrl 15 0) :
    let len := max 1 (fld v 15 0) * 100000
    (s.writePerfCtrl v).perf =
      { s.perf with ctrl := v &&& 0x000FFFFF#32, winEnd := (s.dtime / len + 1) * len, winWait := true } := by
  simp [State.writePerfCtrl, h, PerfS.winLen_eq, fld_bwWin]

/-- The next multiple of a length is no farther than that length. -/
theorem next_multiple (d : Nat) {len : Nat} (h : 0 < len) :
    (d / len + 1) * len % len = 0 ∧ d < (d / len + 1) * len ∧ (d / len + 1) * len ≤ d + len := by
  have hdiv := Nat.div_add_mod' d len
  have hmod := Nat.mod_lt d h
  refine ⟨Nat.mul_mod_left _ _, ?_, ?_⟩ <;> rw [Nat.succ_mul] <;> omega

/-! ### Tag samples (R742, R744) -/

theorem State.barRead_tagSample (s : State) (p : PortId) :
    s.barRead p 0x060404 = (s.latchTag p, (s.latchTag p).ports[p].tagCopy[0]) := by rfl

theorem State.latchTag_copy (s : State) (p : PortId) : (s.latchTag p).ports[p].tagCopy = s.tagSample p := by
  simp [State.latchTag]

theorem fld_pack_tag (a b : Nat) :
    fld (pack [(16, 16, a), (0, 8, b)]) 7 0 = b % 256 ∧ fld (pack [(16, 16, a), (0, 8, b)]) 31 16 = a % 65536 := by
  have hsum : (pack [(16, 16, a), (0, 8, b)]).toNat = 2 ^ 16 * (a % 65536) + b % 256 := by
    have hhigh : a % 65536 * 65536 % 4294967296 = 2 ^ 16 * (a % 65536) := by omega
    have hlow : b % 256 % 4294967296 = b % 256 := by omega
    rw [Nat.two_pow_add_eq_or_of_lt (by omega), ← hhigh, ← hlow]
    simp [pack, Nat.shiftLeft_eq]
  simp only [fld, hsum, Nat.shiftRight_eq_div_pow]
  omega

section
variable {s : State} {p : PortId} {n : ChanId} (hn : n.val = fld s.ports[p].tagSel 6 0)
include hn

theorem State.tagSample_eq : s.tagSample p =
    let w := s.chans[n].tag.words
    if w = Vector.replicate 6 0#32 then Vector.replicate 8 0#32
    else #v[w[0], w[1], w[2], w[3], w[4], w[5], pack [(16, 16, s.dtimeTag), (0, 8, n.val)], 0#32] := by
  have hch : fld s.ports[p].tagSel 6 0 % 128 = n.val := by rw [← hn]; exact Nat.mod_eq_of_lt n.isLt
  simp only [State.tagSample, hch]
  rfl

/-- R744 the copy holds the words of the channel, and 0 in the last place. -/
theorem State.tagSample_words : (s.tagSample p)[0] = s.chans[n].tag.words[0] ∧
    (s.tagSample p)[5] = s.chans[n].tag.words[5] ∧ (s.tagSample p)[7] = 0#32 := by
  rw [State.tagSample_eq hn]
  generalize s.chans[n].tag.words = w
  by_cases hz : w = Vector.replicate 6 0#32
  · subst hz
    exact ⟨rfl, rfl, rfl⟩
  · simp only [if_neg hz]
    exact ⟨rfl, rfl, rfl⟩

/-- R742, R744 the copy of a channel that has been sampled names it and the DTIME of the read. -/
theorem State.tagSample_stamp (hw : s.chans[n].tag.words ≠ Vector.replicate 6 0#32) :
    fld (s.tagSample p)[6] 7 0 = n.val ∧ fld (s.tagSample p)[6] 31 16 = s.dtime / 1024 % 65536 := by
  obtain ⟨hch, htime⟩ := fld_pack_tag s.dtimeTag n.val
  rw [State.tagSample_eq hn]
  dsimp only
  rw [if_neg hw]
  exact ⟨hch.trans (Nat.mod_eq_of_lt (by omega)), htime.trans (Nat.mod_mod ..)⟩
end

end Sys2Proof.Machine
end

section
/-! R736 to R738: the test access port. -/
namespace Sys2Proof.Machine

/-- R736 an instruction of the test access port while the main supply is up. -/
theorem does_jtag {i : Instr} {s : State} {f : JtagS → JtagS} {P : State → Prop} (he : exec i s = s.onJtag f)
    (hs : s.supplied = true) (h : P { s with jtag := f s.jtag }) : Does i s P :=
  ⟨_, he.trans (by simp only [State.onJtag, hs, if_true]), h⟩

/-- Without the main supply the test access port does nothing (log 33). -/
theorem does_jtag_unsupplied {i : Instr} {s : State} {f : JtagS → JtagS} (he : exec i s = s.onJtag f)
    (hs : s.supplied = false) : Does i s fun s1 => s1 = s :=
  ⟨_, he.trans (by simp only [State.onJtag, hs, Bool.false_eq_true, if_false]), rfl⟩

/-- R737 the fields of IDCODE. -/
theorem fld_idWord : fld idWord 31 28 = 1 ∧ fld idWord 27 12 = 0x9128 ∧ fld idWord 11 1 = Config.manufacturer.toNat ∧
    bitOf idWord 0 = true := by
  have hm := Config.manufacturer.isLt
  have hsum : idWord.toNat = 2 ^ 1 * (2 ^ 11 * 0x19128 + Config.manufacturer.toNat) + 1 := by
    have hid : Config.manufacturer.toNat % 2048 * 2 % 4294967296 = 2 ^ 1 * Config.manufacturer.toNat := by omega
    rw [Nat.two_pow_add_eq_or_of_lt (by omega), Nat.mul_add, ← Nat.mul_assoc, ← Nat.pow_add,
      Nat.two_pow_add_eq_or_of_lt (by omega), ← hid]
    simp [idWord, pack, Nat.shiftLeft_eq]
  have hbit : bitOf idWord 0 = true := by
    simp only [bitOf, BitVec.getLsbD, hsum, Nat.testBit_zero]
    exact decide_eq_true (by omega)
  refine ⟨?_, ?_, ?_, hbit⟩ <;> simp only [fld, hsum, Nat.shiftRight_eq_div_pow] <;> omega

end Sys2Proof.Machine
end

section
/-! R739 to R747: what the commands of the counters and samples leave. -/
namespace Sys2Proof.Machine

section
variable {s : State} {t : Nat} (hs : s.supplied = true)
include hs

theorem does_perfWindowEnd {P : State → Prop} (h : P (s.at t).windowEnds) : Does (.perfWindowEnd t) s P :=
  does_lastCmd (exec_perfWindowEnd ..) hs h

/-- R740 the first window of a new length starts. -/
theorem does_perfWindowEnd_wait (hend : s.perf.winEnd ≤ max s.dtime t) (hw : s.perf.winWait = true) :
    Does (.perfWindowEnd t) s fun s1 =>
      s1.perf = { s.perf with winEnd := s.perf.winEnd + max 1 (fld s.perf.ctrl 15 0) * 100000, winWait := false } ∧
      ∀ p : PortId, (s1.ports[p].winBase = s1.ports[p].live ∧ s1.ports[p].live.desc = s.ports[p].live.desc) ∧
        s1.ports[p].win = s.ports[p].win := by
  have hend' : (s.at t).perf.winEnd ≤ (s.at t).dtime := hend
  have hw' : (s.at t).perf.winWait = true := hw
  refine does_perfWindowEnd hs ⟨?_, fun p => ⟨State.windowEnds_starts hend' p, State.windowEnds_win_of_wait hend' hw' p⟩⟩
  rw [State.windowEnds_due hend']
  simp [hw, PerfS.winLen_eq]

/-- R740, R741 a window ends. -/
theorem does_perfWindowEnd_win (hend : s.perf.winEnd ≤ max s.dtime t) (hw : s.perf.winWait = false) :
    Does (.perfWindowEnd t) s fun s1 =>
      s1.perf = { s.perf with
        bwSeq := (s.perf.bwSeq + 1) % 4294967296
        winEnd := s.perf.winEnd + max 1 (fld s.perf.ctrl 15 0) * 100000 } ∧
      ∀ p : PortId, (s1.ports[p].winBase = s1.ports[p].live ∧ s1.ports[p].live.desc = s.ports[p].live.desc) ∧
        s1.ports[p].win.desc = since48 s.ports[p].live.desc s.ports[p].winBase.desc ∧
        s1.ports[p].win.rdBytes = since48 s.ports[p].live.rdBytes s.ports[p].winBase.rdBytes ∧
        s1.ports[p].win.wrBytes = since48 s.ports[p].live.wrBytes s.ports[p].winBase.wrBytes ∧
        s1.ports[p].win.mmio = since48 s.ports[p].live.mmio s.ports[p].winBase.mmio := by
  have hend' : (s.at t).perf.winEnd ≤ (s.at t).dtime := hend
  have hw' : (s.at t).perf.winWait = false := hw
  refine does_perfWindowEnd hs ⟨?_, fun p => ⟨State.windowEnds_starts hend' p, ?_⟩⟩
  · rw [State.windowEnds_due hend']
    simp [hw, PerfS.winLen_eq]
  · obtain ⟨hold, hwin⟩ := State.windowEnds_win hend' hw' p
    rw [hwin]
    exact ⟨rfl, rfl, rfl, rfl⟩
end

section
variable {s : State} {t : Nat} {p : PortId} (hp : (s.at t).busUp p = true)
include hp

theorem does_bwWinWrite {v : Word} {P : State → Prop}
    (h : P (((s.at t).countMmio p).adminWrite p 0x060000 fun s => s.writePerfCtrl v)) : Does (.bwWinWrite t p v) s P :=
  does_barCmd (exec_bwWinWrite ..) hp (by rw [State.barWrite_perfCtrl]; exact h)

/-- R21 PERF.CTRL written by another port than the administrator. -/
theorem does_bwWinWrite_nonadmin (v : Word) (ha : s.admin ≠ p) :
    Does (.bwWinWrite t p v) s fun s1 => s1.perf = s.perf := by
  refine does_bwWinWrite hp ?_
  rw [State.adminWrite, if_neg (by exact ha)]
  exact (State.quiet_perf (State.nonowner_quiet _ _ _) : _ = ((s.at t).countMmio p).perf)

theorem does_bwWinWrite_admin {v : Word} (ha : s.admin = p) {P : State → Prop}
    (h : P (((s.at t).countMmio p).writePerfCtrl v)) : Does (.bwWinWrite t p v) s P := by
  refine does_bwWinWrite hp ?_
  rw [State.adminWrite, if_pos (by exact ha)]
  exact h

theorem does_bwWinWrite_same {v : Word} (ha : s.admin = p) (hv : fld v 15 0 = fld s.perf.ctrl 15 0) :
    Does (.bwWinWrite t p v) s fun s1 => s1.perf = { s.perf with ctrl := v &&& 0x000FFFFF#32 } :=
  does_bwWinWrite_admin hp ha (State.writePerfCtrl_same (s := (s.at t).countMmio p) hv)

/-- R740 the first window of a new length is the next that starts. -/
theorem does_bwWinWrite_new {v : Word} (ha : s.admin = p) (hv : fld v 15 0 ≠ fld s.perf.ctrl 15 0) :
    let len := max 1 (fld v 15 0) * 100000
    Does (.bwWinWrite t p v) s fun s1 =>
      s1.perf = { s.perf with ctrl := v &&& 0x000FFFFF#32, winEnd := s1.perf.winEnd, winWait := true } ∧
      s1.perf.winEnd % len = 0 ∧ max s.dtime t < s1.perf.winEnd ∧ s1.perf.winEnd ≤ max s.dtime t + len := by
  refine does_bwWinWrite_admin hp ha ?_
  have hperf := State.writePerfCtrl_new (s := (s.at t).countMmio p) (v := v) hv
  have hlen : 0 < max 1 (fld v 15 0) * 100000 := by omega
  rw [hperf]
  exact ⟨rfl, next_multiple (max s.dtime t) hlen⟩

section
variable {n : ChanId} (hn : n.val = fld s.ports[p].tagSel 6 0)
include hn

/-- R744 a read of TAG_SAMPLE[0] latches the copy of port `p` from the state as it finds it. -/
theorem does_tagSampleRead {P : State → Prop}
    (h : ∀ s0 : State, n.val = fld s0.ports[p].tagSel 6 0 → s0.chans = s.chans → s0.dtime = max s.dtime t →
      (∀ p', p' ≠ p → s0.ports[p'] = s.ports[p']) →
      P (State.answer (s0.latchTag p, (s0.latchTag p).ports[p].tagCopy[0]))) : Does (.tagSampleRead t p) s P := by
  refine does_barCmd (exec_tagSampleRead ..) hp ?_
  rw [State.barRead_tagSample]
  refine h _ ?_ rfl rfl fun p' hne => ?_
  · simpa [State.countMmio] using hn
  · rw [State.countMmio, State.onPort_other _ _ hne, State.at_ports]

theorem does_tagSampleRead_copy :
    let w := s.chans[n].tag.words
    Does (.tagSampleRead t p) s fun s1 =>
      s1.ports[p].tagCopy[0] = w[0] ∧ s1.lastRead = w[0] ∧ s1.ports[p].tagCopy[5] = w[5] ∧ s1.ports[p].tagCopy[7] = 0#32 ∧
      (∀ p', p' ≠ p → s1.ports[p'] = s.ports[p']) ∧ s1.chans = s.chans := by
  refine does_tagSampleRead hp hn fun s0 hn0 hchans _ hports => ?_
  obtain ⟨h0, h5, h7⟩ := State.tagSample_words hn0
  rw [hchans] at h0 h5
  simp only [State.answer, State.latchTag_copy]
  exact ⟨h0, h0, h5, h7, fun p' hne => (State.onPort_other _ _ hne).trans (hports p' hne), hchans⟩

theorem does_tagSampleRead_stamp (hw : s.chans[n].tag.words ≠ Vector.replicate 6 0#32) :
    Does (.tagSampleRead t p) s fun s1 =>
      fld s1.ports[p].tagCopy[6] 7 0 = n.val ∧ fld s1.ports[p].tagCopy[6] 31 16 = max s.dtime t / 1024 % 65536 := by
  refine does_tagSampleRead hp hn fun s0 hn0 hchans htime _ => ?_
  rw [← hchans] at hw
  simp only [State.answer, State.latchTag_copy]
  rw [← htime]
  exact State.tagSample_stamp hn0 hw
end
end

end Sys2Proof.Machine
end

section
/-! O55: the loop-back tests, the counting windows, the tag samples and the test access port (R320, R730 to R747). -/
namespace Sys2Proof.Machine

/-- R730, R731 RESULT of a test of sensing at LB2 with a FAIL bit. -/
theorem lbResult_fail {fails : BitVec 5} (h : fails ≠ 0) :
    lbResult fails % 2 = 0 ∧ lbResult fails < 64 ∧ lbResult fails ≠ 0 := by
  have hpos : fails.toNat ≠ 0 := fun h0 => h (BitVec.eq_of_toNat_eq h0)
  have hlt := lbResult_lt fails
  rw [lbResult_of_ne h] at hlt ⊢
  omega

/-! ### The loop-back tests by target (R320, R730 to R734) -/

section
variable {s : State} {t : Nat} {n : ChanId} {b : LbRun} (hb : s.chans[n].core.lb = some b) (hp : (s.at t).powered = true)
include hb hp

section
variable (ht : ∀ x, s.chans[n].adc.slot = some x → x.pos.isSome = true ∨ max s.dtime t ≤ x.start + 60)
include ht

theorem lbTestDone_lb1 (hl : b.target = 0) (hd : b.depth ≠ 2) (fails : BitVec 5) :
    Leaves (.lbTestDone t n (.digital fails)) s t n (fun c => c.core.lb = none) ∧
      LbAnswers s t n (.digital fails) fun x => x = lbResult (fails ||| b.bad) :=
  have hends := lbEnds_lb1 hb hp hl hd (State.chanIn_slotTaken ht) fails
  ⟨hends.leaves_noTest, hends.answers rfl⟩

theorem lbTestDone_lb2 (hl : b.target = 0) (hd : b.depth = 2) {codes : List (Nat × Nat)} {cmps : List (BitVec 5)}
    (hcodes : codes.length = 24) (hcmps : cmps.length = 8) (dacs : Bool) :
    Leaves (.lbTestDone t n (.analog codes cmps dacs)) s t n (fun c => c.core.lb = none) ∧
      (s.chans[n].adc.Lb2Good codes cmps dacs → LbAnswers s t n (.analog codes cmps dacs) fun x => x = 1) ∧
      (¬ s.chans[n].adc.Lb2Good codes cmps dacs →
        LbAnswers s t n (.analog codes cmps dacs) fun x => x % 2 = 0 ∧ x < 64 ∧ x ≠ 0) := by
  have hends := lbEnds_lb2 hb hp hl hd (State.chanIn_slotTaken ht) hcodes hcmps dacs
  rw [State.chanIn_lb2Fails] at hends
  have hgood := s.chans[n].adc.lb2Fails_eq_zero_iff codes cmps dacs
  refine ⟨hends.leaves_noTest, fun h => ?_, fun h => ?_⟩
  · rw [hgood.mpr h] at hends
    exact hends.answers lbResult_zero
  · exact hends.answers (lbResult_fail fun h0 => h (hgood.mp h0))

theorem lbTestDone_gate (hl : b.target = 2)
    (hover : 4 * actPeriod s.chans[n].pwm.period * sixteenth ≤ (s.chanAt t n).ticksWithin s.time b.start (max s.dtime t))
    (fails : BitVec 5) :
    Leaves (.lbTestDone t n (.digital fails)) s t n
        (fun c => c = { s.chanAt t n with core := { (s.chanAt t n).core with lb := none } }) ∧
      LbAnswers s t n (.digital fails) fun x => x = lbResult (fails ||| b.bad) :=
  have hends := lbEnds_gate hb hp hl (State.chanIn_slotTaken ht) hover fails
  ⟨hends.leaves (ChR.endLb_c hends.test _ (by omega)), hends.answers rfl⟩
end

theorem lbTestDone_position (hl : b.target = 1)
    (ht : b.start + 640 * (if s.chans[n].posMode = 3 then 98 else 8193) ≤ max s.dtime t) (fails : BitVec 5) :
    Leaves (.lbTestDone t n (.digital fails)) s t n (fun c => c.core.lb = none ∧ c.pos.count = 0) ∧
      LbAnswers s t n (.digital fails) fun x => ∃ more : BitVec 5, x = lbResult (fails ||| more) := by
  obtain ⟨r, l, more, hl', hends⟩ := lbEnds_position hb hp hl ht
  have htest := (hends fails).test
  exact ⟨(hends fails).leaves ⟨ChR.endLb_lb htest _, ChR.endLb_count htest _ hl'⟩, (hends fails).answers ⟨more, rfl⟩⟩
end

/-! ### The test access port (R736 to R738) -/

theorem exec_idcode (s : State) : exec .idcode s = s.onJtag fun j => { j with ir := .idcode, dr := idWord } := by rfl
theorem exec_bypass (s : State) : exec .bypass s = s.onJtag fun j => { j with ir := .bypass } := by rfl
theorem exec_samplePreload (bits : List Bool) (s : State) :
    exec (.samplePreload bits) s = s.onJtag fun j => { j with ir := .samplePreload, boundary := bits } := by rfl

/-- R737 IDCODE. -/
theorem does_idcode {s : State} (hs : s.supplied = true) :
    Does .idcode s fun s1 => s1 = { s with jtag := { s.jtag with ir := .idcode, dr := s1.jtag.dr } } ∧
      fld s1.jtag.dr 31 28 = 1 ∧ fld s1.jtag.dr 27 12 = 0x9128 ∧ fld s1.jtag.dr 11 1 = Config.manufacturer.toNat ∧
      bitOf s1.jtag.dr 0 = true := by
  have hfields := fld_idWord
  refine does_jtag (exec_idcode s) hs ?_
  generalize idWord = w at hfields ⊢
  exact ⟨rfl, hfields⟩

/-- R736, R738 the instructions that need BOOT_MODE = TEST. -/
def IsTestInstr (i : Instr) (ir : JtagIr) : Prop := ∀ s, exec i s = s.onJtag fun j => { j with ir := s.testOnly ir }

theorem IsTestInstr.does_test {i : Instr} {ir : JtagIr} {s : State} (h : IsTestInstr i ir) (hs : s.supplied = true)
    (hm : s.dev.bootMode = 2) : Does i s fun s1 => s1 = { s with jtag := { s.jtag with ir := ir } } :=
  does_jtag (h s) hs (by rw [State.testOnly, if_pos hm])

theorem IsTestInstr.does_other {i : Instr} {ir : JtagIr} {s : State} (h : IsTestInstr i ir) (hs : s.supplied = true)
    (hm : s.dev.bootMode ≠ 2) : Does i s fun s1 => s1 = { s with jtag := { s.jtag with ir := .bypass } } :=
  does_jtag (h s) hs (by rw [State.testOnly, if_neg hm])

theorem isTestInstr_extest : IsTestInstr .extest .extest := fun _ => rfl
theorem isTestInstr_clamp : IsTestInstr .clamp .clamp := fun _ => rfl
theorem isTestInstr_highz : IsTestInstr .highz .highz := fun _ => rfl
theorem isTestInstr_prodTest : IsTestInstr .prodTest .prodTest := fun _ => rfl

/-- Without the main supply no instruction of the test access port does anything. -/
theorem does_jtag_off {s : State} (hs : s.supplied = false) :
    ∀ i ∈ [Instr.idcode, .extest, .clamp, .highz, .prodTest, .bypass], Does i s fun s1 => s1 = s := by
  simp only [List.forall_mem_cons]
  exact ⟨does_jtag_unsupplied (exec_idcode s) hs, does_jtag_unsupplied (isTestInstr_extest s) hs,
    does_jtag_unsupplied (isTestInstr_clamp s) hs, does_jtag_unsupplied (isTestInstr_highz s) hs,
    does_jtag_unsupplied (isTestInstr_prodTest s) hs, does_jtag_unsupplied (exec_bypass s) hs,
    fun _ h => absurd h List.not_mem_nil⟩

/-! ### The whole -/

/-- Settles O55, in its four parts: the loop-back tests by target, the windows, the commands of the bus, the test access port. -/
theorem testAndPerformance : Obligations.TestAndPerformance := by
  unfold Obligations.TestAndPerformance
  refine ⟨fun s t n hp b hb => ⟨fun fails => ⟨fun hl hd ht => lbTestDone_lb1 hb hp ht hl hd fails,
        fun hl ht => lbTestDone_position hb hp hl ht fails, fun hl hover ht => lbTestDone_gate hb hp ht hl hover fails⟩,
      fun codes cmps dacs hl hd ht hcodes hcmps => lbTestDone_lb2 hb hp ht hl hd hcodes hcmps dacs⟩,
    fun s t hs => ⟨fun hend => does_perfWindowEnd hs (State.windowEnds_early hend), does_perfWindowEnd_wait hs,
      does_perfWindowEnd_win hs⟩,
    fun s t p hp => ⟨fun v => ⟨does_bwWinWrite_nonadmin hp v, does_bwWinWrite_same hp, does_bwWinWrite_new hp⟩,
      fun n hn => ⟨does_tagSampleRead_copy hp hn, does_tagSampleRead_stamp hp hn⟩⟩,
    fun s => ⟨fun hs => ⟨does_idcode hs, fun _ => does_jtag (exec_samplePreload ..) hs rfl,
        does_jtag (exec_bypass s) hs rfl, fun hm => ?_, fun hm => ?_⟩,
      does_jtag_off⟩⟩
  · exact ⟨isTestInstr_extest.does_test hs hm, isTestInstr_clamp.does_test hs hm, isTestInstr_highz.does_test hs hm,
      isTestInstr_prodTest.does_test hs hm⟩
  · exact ⟨isTestInstr_extest.does_other hs hm, isTestInstr_clamp.does_other hs hm, isTestInstr_highz.does_other hs hm,
      isTestInstr_prodTest.does_other hs hm⟩

end Sys2Proof.Machine
end
